-- ==== Sys2Proof/Word.lean ====
section
/-! DEFINITION. The word, byte and index types of the NP32 model (spec chapters 00 and 22: R2, Table SC-4, Table RM-2). -/

namespace Sys2Proof

/-- A register: 64 bits (R2). -/
abbrev Word := BitVec 64
/-- A byte of memory or of a message. -/
abbrev Byte := BitVec 8
/-- A quadrant Q0 to Q3 (Table SC-4). -/
abbrev Quad := Fin 4
/-- A Setting, stack port or stack, ST0 to ST31 and SP0 to SP31 (Table SC-4). -/
abbrev Setting := Fin 32
/-- A Quagen link LK00 to LK31 (Table SC-4). -/
abbrev LinkId := Fin 32
/-- A client, 0 to 511 (R69). -/
abbrev Client := Fin 512
/-- A queue pair of a client, 0 to 7 (R70). -/
abbrev Qp := Fin 8
/-- A virtual channel, VC0 to VC7 (R381). -/
abbrev Vc := Fin 8

/-- A sparse map from keys to values, a list in rising order of the keys. -/
abbrev SMap (α : Type) := List (Nat × α)

end Sys2Proof
end

