-- ==== Sys2Proof/Syntax.lean ====
section
/-! DEFINITION. The commands of the NP32: one constructor for every row of spec/opcode_table.json, with the packets, frames, messages and environment answers that they carry. -/

namespace Sys2Proof

/-- The access paths of Table RM-3, in the order of R496; the code of GLB_CFG_VIOL.path is the position. -/
inductive Path where
  | firmware | ilcen | quagen | smbus | jtag
deriving DecidableEq, Repr

/-- A Quagen packet: the header of Table RT-1 and the payload. `rsv` holds the reserved bits, 0 in every packet the NP32 originates. -/
structure Packet where
  dst : Nat
  src : Nat
  tc : Nat
  mclass : Nat
  epoch : Nat
  dl : Nat
  opcode : Nat
  length : Nat
  tag : Nat
  gen : Nat
  client : Nat
  inc : Nat
  hops : Nat
  status : Nat
  rsv : Nat
  addr : Nat
  aux : Nat
  pcrc : Nat
  payload : List Byte
deriving DecidableEq, Repr

/-- A frame of Table LK-1. `bad` marks a codeword that the FEC could not correct (R346). -/
structure Frame where
  seq : Nat
  vc : Nat
  ctrl : Bool
  ack : Nat
  nak : Bool
  cvc : Nat
  credit : Nat
  fill : Nat
  ctype : Nat
  payload : List Byte
  crc : Nat
  bad : Bool
deriving DecidableEq, Repr

/-- The commands of a prong (Table LK-5). -/
inductive ProngCmd where
  | train | swap | swapAck | retrain | resume | down
deriving DecidableEq, Repr

/-- A prong of Table LK-5; `valid` is false where its magic or its CRC does not match. -/
structure Prong where
  cmd : ProngCmd
  lane : Nat
  next : Nat
  node : Nat
  session : Nat
  valid : Bool
deriving DecidableEq, Repr

/-- What port ECC finds in one read of a unit of 64 bytes (R124 to R126). -/
inductive EccResult where
  /-- no error -/
  | clean
  /-- corrected inside the DRAM die, which the stack reports -/
  | ondie
  /-- corrected by the port -/
  | corrected
  /-- detected and not corrected; the read after the write-back passes -/
  | detected
  /-- detected and not corrected; the read after the write-back fails too -/
  | hard
deriving DecidableEq, Repr

/-- What a read of the source of a descriptor over Ilcen brings, what companion agents write back when the line is recalled, and what port ECC finds in the granules that the descriptor reads: the answers of the parties beyond the pins that a descriptor's work meets. -/
structure Env where
  /-- bytes of companion memory read, in the order of the descriptor's reads -/
  ext : List Byte
  /-- a read over Ilcen met an error answer -/
  extFail : Bool
  /-- dirty lines that holders write back on a recall: line number and 64 bytes -/
  recalls : List (Nat × List Byte)
  /-- what port ECC finds in units of 64 bytes: stack, 4 × slot + unit of the granule, and the result of each read of it before a write-back; a unit not listed is clean -/
  ecc : List (Nat × Nat × EccResult)
  /-- what the check bits of bank words show on a read (R165): bank (Setting × 64 + bank), word of the bank, and the result; a word not listed is clean -/
  banks : List (Nat × Nat × EccResult) := []
deriving DecidableEq, Repr

/-- A step of an operation instance of a recipe run: the instance's number, and what the step meets beyond the pins. -/
structure InstStep where
  n : Nat
  env : Env
deriving DecidableEq, Repr

/-- A packet that arrives at the endpoint, and what the work it starts meets beyond the pins. -/
structure Arrival where
  p : Packet
  env : Env
deriving DecidableEq, Repr

/-- A read of a register of a quadrant, with its size in bytes (R3). -/
structure SizedRead where
  size : Nat
  q : Quad
deriving DecidableEq, Repr

/-- A pass of a Facet: whether it is fill work, and what it meets beyond the pins. -/
structure PassTurn where
  fill : Bool
  env : Env
deriving DecidableEq, Repr

/-- The operand of a bank atomic: the operand word, whether the requester asks for the old word (R161), and what the check bits of the word show when it is read (R165). -/
structure LaneOperand where
  word : List Byte
  ret : Bool
  ecc : List EccResult
deriving DecidableEq, Repr

/-- A descriptor in flight: serving quadrant, queue pair of the quadrant (client div 4 × 8 + qp), seq. -/
structure DescKey where
  q : Fin 4
  j : Fin 1024
  seq : Nat
deriving DecidableEq, Repr

/-- The lane operations of a bank atomic (R161). -/
inductive LaneOp where
  | add32 | add64 | fadd32 | swap32 | swap64
deriving DecidableEq, Repr

/-- The operations of a bank port (R153, R161): bytes read or written, or an atomic with its lane mask, its operand and whether it returns the old word. -/
inductive BankOp where
  | read (n : Nat)
  | write (data : List Byte)
  | atomic (op : LaneOp) (mask : Fin 256) (operand : List Byte) (ret : Bool)
deriving DecidableEq, Repr

/-- An access at a bank port: its owner tag, its window address, whether it takes the whole line of that word, its operation, and what the check bits of the words it reads show, none for a word that is clean (R153, R154, R156, R165). An access to a word begins at the address, one to a line at the line's first byte. -/
structure BankReq where
  tag : Fin 16
  oa : Nat
  line : Bool
  op : BankOp
  ecc : List EccResult
deriving DecidableEq, Repr

/-- A bank port. -/
inductive Port where
  | a | b
deriving DecidableEq, Repr

/-- A requester or holder of coherent lines: the line cache of a Setting, or a companion agent, 15 being non-caching (R317, Table CO-6). -/
inductive Who where
  | setting (st : Fin 32)
  | agent (a : Fin 16)
deriving DecidableEq, Repr

/-- The states of a cached line (Table CO-3, Table CO-6). -/
inductive LineState where
  | i | s | e | m | f | o
deriving DecidableEq, Repr

/-- The snoops of Table CO-4. -/
inductive SnoopKind where
  | cur | shr | cln | inv | fwd | wb | backInv
deriving DecidableEq, Repr

/-- The fields of a Hello flit for one agent (R333). -/
structure HelloAgent where
  present : Bool
  tracker : Nat
  snpBuf : Nat
deriving DecidableEq, Repr

/-- A Hello flit (R333). -/
structure IlcHello where
  version : Nat
  np8 : Bool
  agents : List HelloAgent
deriving DecidableEq, Repr

/-- An Ilcen flit of messages (R332); `bad` marks a CRC failure. -/
structure IlcFlit where
  seq : Nat
  ack : Nat
  nak : Bool
  reqCredits : Nat
  snpCredits : Nat
  agent : Fin 8
  bad : Bool
deriving DecidableEq, Repr

/-- An access at a line cache: bytes read, or written, within one line. -/
inductive LineOp where
  | read
  | write (start : Fin 64) (data : List Byte)
deriving DecidableEq, Repr

/-- What leaves the NP32 through its pins and ports. -/
inductive OutMsg where
  /-- the answer to a register read: path, offset and value -/
  | regRead (path : Path) (offset : Nat) (value : Word)
  /-- a write to companion memory over Ilcen: address and bytes -/
  | ilcenWrite (addr : Nat) (data : List Byte)
  /-- a read of companion memory over Ilcen: address and length -/
  | ilcenRead (addr len : Nat)
  /-- an answer to an Ilcen request: address, status and bytes -/
  | ilcenAnswer (addr status : Nat) (data : List Byte)
  /-- a snoop to a companion agent: the agent, the snoop, the line and, for SnpFwd, the agent to forward to -/
  | snoop (agent : Nat) (kind : SnoopKind) (line fwdTo : Nat)
  /-- Data or Cmp from the home to a companion agent: its transaction, line, granted state, status and data (none for Cmp) -/
  | grant (agent txn line : Nat) (state : LineState) (status : Nat) (data : Option (List Byte))
  /-- an Ilcen NAK for a flit number -/
  | ilcNak (seq : Nat)
  /-- a Hello flit sent -/
  | ilcHello (np8 : Bool)
  /-- a frame on a link -/
  | frame (link : Nat) (f : Frame)
  /-- a prong on one lane of a link -/
  | prong (link lane : Nat) (p : Prong)
  /-- a message on the heartbeat pins -/
  | heartbeat (data : List Byte)
  /-- an SMBus answer -/
  | smbus (data : List Byte)
  /-- JTAG data shifted out: length in bits and value -/
  | jtag (bits value : Nat)
deriving DecidableEq, Repr

/-- Where a heartbeat message comes from: the pins, or a HEARTBEAT packet at the local port with its arrival port (R415, R416). -/
inductive HbSrc where
  | pins (data : List Byte)
  | packet (port : Fin 36) (p : Packet)
deriving DecidableEq, Repr

/-- The commands of the block, one constructor for every row of the opcode table: those with operands first, then those without, each in the order of the table but for the operand rows 245 to 260 (compiled code can build no constructor with fields past the 244th). -/
inductive Instr where
  /-- PERST_N_DEASSERT (R46). PERST_N goes high and start-up resumes at step 2. -/
  | perstNDeassert (strapA strapB : Bool)
  /-- RAIL_OUT_OF_TOLERANCE (R25). A rail has been outside its tolerance for 10 µs; the NP32 sets its PWR_SENSE_STATUS bit and raises a power event. -/
  | railOutOfTolerance (rail : Fin 8)
  /-- VDD_CORE_UNDERVOLTAGE (R25). A VDD_CORE rail has been below 0.68 V for 1 µs and the NP32 enters cold reset. -/
  | vddCoreUndervoltage (q : Quad)
  /-- THERMAL_SAMPLE (R27). A die temperature reading crosses a threshold or falls 5 °C below one, and the thermal level enters or clears with its action. -/
  | thermalSample (q : Quad) (temp : BitVec 12)
  /-- DIE_OVER_TEMPERATURE (R29). A die has been at 115 °C or more for 1 ms and the NP32 enters cold reset. -/
  | dieOverTemperature (q : Quad)
  /-- STACK_SENSOR_READ (R127). A stack port's 1 ms sensor read updates the stack temperature, the refresh interval and the command-rate throttle. -/
  | stackSensorRead (n : Setting) (temp : BitVec 12)
  /-- DROOP_TRIP (R36). A droop sensor sees VDD_CORE sag and the quadrant's CORE clock goes to half rate within 2 cycles. -/
  | droopTrip (q : Quad) (mv : Nat)
  /-- STRETCH_END (R36). A count of 256 half-rate cycles ends; the clock returns to full rate if no sensor still sees sag, or else the stretch extends. -/
  | stretchEnd (q : Quad) (sag : Bool)
  /-- BACKGROUND_RECALIBRATION (R39). The next unit in the 100 ms rotation is recalibrated by one code step, and at_limit is set at the end of its range. -/
  | backgroundRecalibration (atLimit : Bool)
  /-- BOOT_ROM (R46). Start-up step 2 ends: PLLs are locked, fuses are read and SMBus becomes available, or start-up stops. -/
  | bootRom (pllOk fuseOk : Bool)
  /-- FIRMWARE_IMAGE_CHECK (R454). Start-up step 3 ends: the firmware image is read and checked with both signatures, with a fallback to slot B. -/
  | firmwareImageCheck (slotA slotB : List Byte)
  /-- CONFIGURATION_IMAGE (R56). Start-up step 4 ends: the configuration image is read and checked, and then applied as one commit or replaced by factory defaults. -/
  | configurationImage (image : List Byte)
  /-- ANALOGUE_CALIBRATION (R48). Start-up step 5 ends: the digital shell has calibrated in its fixed order and background recalibration begins. -/
  | analogueCalibration (failedLanes : List (LinkId × Fin 3))
  /-- STACK_TRAINING (R46). Start-up step 6 ends: stacks are trained and a stack that fails training is marked failed. -/
  | stackTraining (failed : BitVec 32)
  /-- ATTESTATION (R46). Start-up step 11 ends: Hallmark measures firmware and configuration and becomes ready to quote. -/
  | attestation (ok : Bool)
  /-- CFG_RESET_WARM (R44). A write of CFG_RESET.warm starts a warm reset, which keeps the pool only under keep_pool with the Bezel OPEN. -/
  | cfgResetWarm (path : Path) (value : Word)
  /-- CFG_RESET_COLD (R42). A write of CFG_RESET.cold starts a cold reset and prevails over warm. -/
  | cfgResetCold (path : Path) (value : Word)
  /-- GLB_COMMIT_NEXT_US (R61). A GLB_COMMIT write with when 0b00 freezes the shadow and starts the check for a commit at the next 1 µs boundary. -/
  | glbCommitNextUs (path : Path) (value : Word)
  /-- GLB_COMMIT_AT_INSTANT (R62). A GLB_COMMIT write with when 0b01 starts a commit at the instant in CFG_COMMIT_AT, or is refused at once as TOO_SOON or TOO_LATE. -/
  | glbCommitAtInstant (path : Path) (value : Word)
  /-- COMMIT_CANCEL (R63). A write of CFG_COMMIT_CTL.cancel before the instant ends the pending commit with CANCELLED. -/
  | commitCancel (path : Path) (value : Word)
  /-- COMMIT_DISCARD (R66). A write of CFG_COMMIT_CTL.discard with no commit pending copies the live values into the shadow. -/
  | commitDiscard (path : Path) (value : Word)
  /-- REGISTER_WRITE (R5). A write to a register with no row of its own acts by the field access codes, with locked, reserved and unassigned writes logged. -/
  | registerWrite (path : Path) (offset : Nat) (size : Nat) (value : Word) (env : Env)
  /-- PWR_SENSE_READ (R40). A read of PWR_SENSE returns the sensor values and sets vcore_min_mv to 0xFFF. -/
  | pwrSenseRead (path : Path) (read : SizedRead)
  /-- GLB_CFG_VIOL_CLEAR (R501). A write of clear sets the offset, kind, path and count of GLB_CFG_VIOL to 0. -/
  | glbCfgViolClear (path : Path) (value : Word)
  /-- MGMT_BEAT (R502). A firmware write of a beat bit in GLB_MGMT_LIVE marks a management core alive; a write from another path is logged with kind 9. -/
  | mgmtBeat (path : Path) (value : Word)
  /-- ILCEN_DOORBELL_WRITE (R72). An Ilcen write to a doorbell page is decoded as a submission-tail or completion-head doorbell, or is rejected. -/
  | ilcenDoorbellWrite (client : Client) (offset : Fin 4096) (data : List Byte)
  /-- DOORBELL (R73). A DOORBELL packet is accepted for an enabled client with matching incarnation and node, or is dropped and counted. -/
  | doorbell (port : Fin 36) (p : Packet)
  /-- FETCH_TURN (R87). Weighted round robin gives a queue pair with pending work its turn to fetch up to eight descriptors. -/
  | fetchTurn (q : Quad)
  /-- FETCH_DATA (R83). The descriptors of a fetch arrive at the queue engine. -/
  | fetchData (q : Quad) (j : Fin 1024) (env : Env)
  /-- DESCRIPTOR_ISSUE (R83). A fetched descriptor issues in seq order once max_inflight allows; it is checked and its translation and leases are snapshotted. -/
  | descriptorIssue (q : Quad) (j : Fin 1024)
  /-- DESCRIPTOR_START (R85). An issued descriptor is accepted by its executing unit, after its earlier descriptors have completed when its ord flag is set. -/
  | descriptorStart (key : DescKey)
  /-- COMPLETION_WRITE (R84). Once every write of a descriptor is visible, the queue engine writes its 32-byte completion. -/
  | completionWrite (key : DescKey) (env : Env)
  /-- EVENT_MESSAGE (R89). Once the completion is visible, the 16-byte event message of a descriptor with the ev flag is written. -/
  | eventMessage (key : DescKey) (env : Env)
  /-- NOP (R81). The NOP descriptor completes with result 0. -/
  | nop (key : DescKey)
  /-- MOVE (R148). The MOVE descriptor copies rows × row_len bytes between spaces on one mover. -/
  | move (key : DescKey) (env : Env)
  /-- FILL (R149). The FILL descriptor writes an 8-byte pattern over len bytes. -/
  | fill (key : DescKey) (env : Env)
  /-- ATOMIC (R150). The ATOMIC descriptor runs an operation on pool memory at the stack port after a home recall and returns the old value. -/
  | atomic (key : DescKey) (env : Env)
  /-- FENCE (R86). The FENCE descriptor stops issue for its client until every earlier write of that client is visible. -/
  | fence (key : DescKey)
  /-- FENCE_COMPLETION (R86). The writes of the earlier descriptors are visible; the FENCE completion is written and issue resumes. -/
  | fenceCompletion (key : DescKey)
  /-- FLUSH (R313). The FLUSH descriptor writes back every modified or owned cached line of the range to the stack. -/
  | flush (key : DescKey) (env : Env)
  /-- SEG_SYNC_LOAD (R100). A SEG_SYNC load reads the master entry over Ilcen and checks it. -/
  | segSyncLoad (key : DescKey) (env : Env)
  /-- SEG_SYNC_INVALIDATE (R100). A SEG_SYNC invalidate installs an invalid entry for the segment. -/
  | segSyncInvalidate (key : DescKey)
  /-- SEG_SYNC_INSTALL (R101). An accepted entry is installed in one step with its generation raised and the old bitmap lines dropped. -/
  | segSyncInstall (key : DescKey)
  /-- SEG_SYNC_COMPLETION (R102). Every descriptor with an older snapshot has completed and the SEG_SYNC completion is written. -/
  | segSyncCompletion (key : DescKey)
  /-- PUBLISH (R305). The PUBLISH descriptor acts as a fence and commits a new region version at the home if the expected version matches. -/
  | publish (key : DescKey) (env : Env)
  /-- LEASE_RENEW (R307). The LEASE_RENEW descriptor creates or extends a lease entry to a whole-millisecond expiry, or is refused. -/
  | leaseRenew (key : DescKey)
  /-- RECIPE_RUN (R244). The RECIPE_RUN descriptor is checked at issue and queued for the package-wide run order. -/
  | recipeRun (key : DescKey) (env : Env)
  /-- RECIPE_RUN_START (R214). The sequencer has fetched the recipe image and the run begins. -/
  | recipeRunStart (key : DescKey) (env : Env)
  /-- EXPERT_BATCH (R271). The EXPERT_BATCH descriptor runs expert dispatch over its tokens in sub-batches. -/
  | expertBatch (key : DescKey) (env : Env)
  /-- EXPERT_SUB_BATCH_END (R272). A sub-batch of an EXPERT_BATCH ends and the next sub-batch begins. -/
  | expertSubBatchEnd (key : DescKey) (env : Env)
  /-- ATTN_STEP (R289). The ATTN_STEP descriptor runs attention for each sequence of its list on the home Settings. -/
  | attnStep (key : DescKey) (env : Env)
  /-- ATTN_SEQUENCE_END (R295). One sequence of an attention step finishes and its output row is written. -/
  | attnSequenceEnd (n : Fin 4096) (env : Env)
  /-- KV_APPEND (R284). The KV_APPEND descriptor writes K and V rows and updates the page summaries per position and layer. -/
  | kvAppend (key : DescKey) (env : Env)
  /-- QP_RESET (R92). A write of QUE_QP_CTL.reset stops fetching, discards unissued descriptors and ends unstarted ones with 0xF001. -/
  | qpReset (path : Path) (q : Quad) (j : Fin 1024) (value : Word)
  /-- QP_RESET_DONE (R92). No descriptor remains in flight; the completion ring is zeroed, the pointers are cleared and busy is cleared. -/
  | qpResetDone (q : Quad) (j : Fin 1024) (env : Env)
  /-- RETIRE (R93). A write of QUE_RETIRE.go resets the client's queue pairs, invalidates its segments, raises its incarnation and quarantines its tags. -/
  | retire (path : Path) (q : Quad) (value : Word)
  /-- RETIRE_DONE (R93). The retirement completes and QUE_RETIRE.busy is cleared. -/
  | retireDone (q : Quad)
  /-- TILE_CHECK (R109). An engine's tile in space 0 is checked for segment, bounds, write permission and present pages before any byte moves. -/
  | tileCheck (key : DescKey) (requester : Nat) (va rowLen rows stride : Nat) (write : Bool)
  /-- BITMAP_LINE_FILL (R112). A bitmap-cache miss returns its line, and the waiting checks proceed or end. -/
  | bitmapLineFill (q : Quad) (client : Client) (segment : Fin 8) (generation : Nat) (line : Nat) (env : Env)
  /-- FAULT_RECHECK (R116). A tile that waits without a stall slot or record repeats its check every 1 µs. -/
  | faultRecheck (key : DescKey) (requester : Nat)
  /-- SEG_FAULT_RESOLVE_RESUME (R118). A resume drops and re-reads the record's bitmap line and re-checks every waiter. -/
  | segFaultResolveResume (path : Path) (q : Quad) (value : Word)
  /-- FAULT_RESUME_DONE (R118). The re-read of a resume ends; passing tiles are released and the record frees or stays open. -/
  | faultResumeDone (q : Quad) (record : Fin 64) (env : Env)
  /-- SEG_FAULT_RESOLVE_ABORT (R120). An abort ends every waiter of the record, with 0x2002 or 0xF002. -/
  | segFaultResolveAbort (path : Path) (q : Quad) (value : Word)
  /-- FAULT_TIMEOUT (R119). NT reaches a record's open_nt plus timeout_ms and the record is aborted. -/
  | faultTimeout (q : Quad) (record : Fin 64)
  /-- SEG_BMC_INV (R114). A write of SEG_BMC_INV.go starts dropping the cached bitmap lines of a client's segment or segments. -/
  | segBmcInv (path : Path) (q : Quad) (value : Word)
  /-- GRANULE_READ (R124). A stack port reads a granule, with port ECC applied. -/
  | granuleRead (n : Setting) (row : Nat) (ecc : EccResult)
  /-- ROW_WRITE (R135). A write to a data granule runs as a row transaction with a parity delta, or as a full-row write. -/
  | rowWrite (n : Setting) (row : Nat) (start : Fin 256) (data : List Byte)
  /-- STACK_POWER_ACTIVE (R128). A write of power 0 returns a stack to active, or is ignored for a stack that is off. -/
  | stackPowerActive (path : Path) (n : Setting) (value : Word)
  /-- STACK_SELF_REFRESH (R128). A write of power 1 puts a stack into self-refresh. -/
  | stackSelfRefresh (path : Path) (n : Setting) (value : Word)
  /-- STACK_POWER_OFF (R128). A write of power 2 switches off a failed stack, or is ignored and logged for a stack that is not failed. -/
  | stackPowerOff (path : Path) (n : Setting) (value : Word)
  /-- STACK_INTERFACE_ERRORS (R140). Command or address parity errors on a stack exceed 16 in 1 ms and the stack is marked failed. -/
  | stackInterfaceErrors (n : Setting)
  /-- STACK_FATAL_REPORT (R140). A stack reports a fatal condition and is marked failed. -/
  | stackFatalReport (n : Setting)
  /-- SLAB_FILL_DONE (R131). The zero-fill of a newly enabled slab ends, the slab becomes ready and held accesses proceed. -/
  | slabFillDone (slab : Fin 14336)
  /-- CLS_FAIL (R140). A write of CLS_CTL.fail marks the named stack failed. -/
  | clsFail (path : Path) (q : Quad) (value : Word)
  /-- CLS_REINSTATE (R141). A write of CLS_CTL.reinstate starts the retraining of a failed stack. -/
  | clsReinstate (path : Path) (q : Quad) (value : Word)
  /-- BACKGROUND_TASK_ROW (R143). A rebuild, copy-back or reinstatement advances its watermark by a row and completes at the last row. -/
  | backgroundTaskRow (q : Quad) (ecc : List (Nat × Nat × EccResult))
  /-- CLS_ROW_REPAIR (R146). A write of CLS_ROW_REPAIR.go starts the repair of a logged row. -/
  | clsRowRepair (path : Path) (q : Quad) (value : Word)
  /-- ROW_REPAIR_DONE (R146). The repair ends: the row is zero-written with parity recomputed, or the repair stops on a further lost granule. -/
  | rowRepairDone (q : Quad) (ecc : List (Nat × Nat × EccResult))
  /-- PATROL_SCRUB_ROW (R147). The scrub engine reads its next row, checks ECC and parity, and rewrites parity or logs the row. -/
  | patrolScrubRow (q : Quad) (ecc : List (Nat × Nat × EccResult))
  /-- BANK_ACCESS (R156). An access reaches a bank port, is refused or served, and has same-word collisions resolved. -/
  | bankAccess (st : Setting) (a b : Option BankReq) (rest : List BankReq)
  /-- BANK_ATOMIC (R161). A bank atomic acts on the lanes of one 32-byte word. -/
  | bankAtomic (st : Setting) (port : Port) (tag : Fin 16) (oa : Nat) (op : LaneOp) (mask : Fin 256) (operand : LaneOperand) (other : Option BankReq)
  /-- BANK_OWNER_WRITE (R157). A write of a new owner code starts a bank handover, including the special cases of R158. -/
  | bankOwnerWrite (path : Path) (st : Setting) (bank : Fin 64) (value : Word)
  /-- HANDOVER_GRANT (R157). The old owner's accesses complete, the new owner is granted and busy clears. -/
  | handoverGrant (st : Setting) (bank : Fin 64)
  /-- BANK_POWER_ON (R162). A write of power 0 starts the transition of a bank to on. -/
  | bankPowerOn (path : Path) (st : Setting) (bank : Fin 64) (value : Word)
  /-- BANK_POWER_RETENTION (R162). A write of power 1 starts the transition of a bank to retention. -/
  | bankPowerRetention (path : Path) (st : Setting) (bank : Fin 64) (value : Word)
  /-- BANK_POWER_OFF (R162). A write of power 2 starts the transition of a bank to off, which loses its data. -/
  | bankPowerOff (path : Path) (st : Setting) (bank : Fin 64) (value : Word)
  /-- BANK_POWER_TRANSITION_DONE (R162). A bank power transition ends and busy clears. -/
  | bankPowerTransitionDone (st : Setting) (bank : Fin 64)
  /-- BANK_CLEAR (R164). A write of BNK_BANK.clear starts the clear of the written-line bitmap. -/
  | bankClear (path : Path) (st : Setting) (bank : Fin 64) (value : Word)
  /-- BANK_CLEAR_DONE (R164). The 1 µs clear ends and the waiting requests proceed. -/
  | bankClearDone (st : Setting) (bank : Fin 64)
  /-- BANK_REGION_TEST_START (R166). Each test_interval the bank-test engine copies the next region to its save line and begins the march. -/
  | bankRegionTestStart (st : Setting)
  /-- WHOLE_BANK_TEST_DONE (R168). The whole-bank test ends and test_result is set to pass or fail. -/
  | wholeBankTestDone (st : Setting) (bank : Fin 64) (pass : Bool)
  /-- DECODER_TILE (R193). The stream decoder finishes a tile into a free slot, after decryption and mask counting, and marks the slot ready. -/
  | decoderTile (st : Setting) (facet : Fin 8) (fill : Bool) (env : Env)
  /-- FACET_PASS (R198). A Facet applies a weight tile to a token tile and issues its products. -/
  | facetPass (st : Setting) (facet : Fin 8) (turn : PassTurn)
  /-- SWEEP_END (R200). The last K tile of a sweep is done, and the accumulators are converted and written or handed to a mover. -/
  | sweepEnd (st : Setting) (facet : Fin 8) (fill : Bool)
  /-- MOVER_TRANSFER_COMPLETE (R205). Every write of a mover transfer, broadcast included, is visible at its destination. -/
  | moverTransferComplete (mover : Fin 128) (env : Env)
  /-- REDUCE_CONTRIBUTION (R208). A REDUCE contribution is added at a stage or destination Setting and acknowledged. -/
  | reduceContribution (n sum : Nat) (source : Fin 36)
  /-- INSTANCE_COMPLETE (R245). An instance completes, or fails and stops the run. -/
  | instanceComplete (n : Nat)
  /-- MATMUL (R227). The MATMUL operation multiplies a sharded weight by sliced activations and reduces the partials. -/
  | matmul (n : Nat)
  /-- ACT (R229). The ACT operation applies an elementwise function row by row. -/
  | act (n : InstStep)
  /-- NORM (R229). The NORM operation applies RMS or layer normalisation with a gain. -/
  | norm (n : Nat) (env : Env)
  /-- ROPE (R230). The ROPE operation rotates element pairs by the position. -/
  | rope (n : Nat) (env : Env)
  /-- SOFTMAX (R231). The SOFTMAX operation computes a scaled softmax over each segment. -/
  | softmax (n : InstStep)
  /-- TOPK (R231). The TOPK operation writes the k largest index–value pairs of each segment. -/
  | topk (n : InstStep)
  /-- QUANT (R229). The QUANT operation converts rows to the destination format. -/
  | quant (n : InstStep)
  /-- REDUCE (R232). The REDUCE operation sums FP32 rows from the masked Settings into the home destination. -/
  | reduce (n : InstStep)
  /-- COMBINE (R232). The COMBINE operation forms the weighted sum of k rows. -/
  | combine (n : InstStep)
  /-- GATHER (R233). The GATHER operation copies an indexed tensor row into each batch row. -/
  | gather (n : Nat) (env : Env)
  /-- SCATTER (R233). The SCATTER operation writes each batch row to an indexed tensor row. -/
  | scatter (n : Nat) (env : Env)
  /-- ATTN (R234). The ATTN operation runs the paged-attention step for every batch entry, appending first when asked. -/
  | attn (n : Nat) (env : Env)
  /-- EXPERT (R248). The EXPERT operation begins one layer of expert dispatch with the gate phase. -/
  | expert (n : Nat) (env : Env)
  /-- SAMPLE (R235). The SAMPLE operation draws one token per row with the seeded Philox generator. -/
  | sample (n : Nat) (env : Env)
  /-- SEND (R237). The SEND operation sends each batch row to a peer node in activation packets. -/
  | send (n : InstStep)
  /-- RECV (R238). The RECV operation opens a channel and completes when every row has arrived. -/
  | recv (n : Nat)
  /-- SEND_RETRY (R238). A refused activation packet is sent again every 10 µs. -/
  | sendRetry (n piece : Nat)
  /-- RECV_TIMEOUT (R238). recv_timeout_ms passes before every row of a RECV has arrived and its run ends with 0xF002. -/
  | recvTimeout (n : Nat)
  /-- RCP_LOAD (R242). A write of RCP_LOAD_CTL.go reads and checks a recipe image for a store slot. -/
  | rcpLoad (path : Path) (value : Word)
  /-- RCP_UNLOAD (R242). A write of RCP_LOAD_CTL.unload clears a slot's valid bit. -/
  | rcpUnload (path : Path) (value : Word)
  /-- RCP_LOAD_DONE (R243). The load ends, the recipe is copied and valid is set or the first failed check is reported, and busy clears. -/
  | rcpLoadDone (env : Env)
  /-- EXPERT_ADMISSION (R260). The selector admits pairs in rank-major order under capacity, applies the overflow policy and writes the load record. -/
  | expertAdmission (env : Env)
  /-- SPILL_REQUEST (R269). A spill request is accepted or refused by a serving node. -/
  | spillRequest (port : Fin 36) (p : Packet) (env : Env)
  /-- SPILL_ACCEPT (R268). A spill accept reaches the sender, which sends that group's token rows. -/
  | spillAccept (port : Fin 36) (got : Arrival)
  /-- SPILL_REFUSE (R268). A spill refuse reaches the sender, which drops the group as under DROP. -/
  | spillRefuse (port : Fin 36) (p : Packet)
  /-- SPILL_TOKEN_ROW (R269). A spill token-row fragment reaches the server for an accepted group. -/
  | spillTokenRow (port : Fin 36) (p : Packet)
  /-- SPILL_RESULT_ROW (R267). A spill result-row fragment reaches the sender, which adds it to the token's row. -/
  | spillResultRow (port : Fin 36) (got : Arrival)
  /-- SPILL_GROUP_SERVE (R269). The server runs an accepted group after its own groups and returns the unweighted results. -/
  | spillGroupServe (src group : Fin 65536) (env : Env)
  /-- ROUTED_CHUNK_END (R263). A holder finishes a chunk of a routed group and delivers the inputs of its next chunk. -/
  | routedChunkEnd (st : Setting) (env : Env)
  /-- SHARED_PHASE_A_END (R265). Every Setting has ended shared phase A and phase B begins. -/
  | sharedPhaseAEnd (env : Env)
  /-- EXPERT_CLOSE (R267). Every contribution and spill result is acknowledged and the expert instance closes. -/
  | expertClose (env : Env)
  /-- REGION_CREATE (R303). A create action writes a region record into the lowest free way of its bucket. -/
  | regionCreate (path : Path) (q : Quad) (value : Word) (env : Env)
  /-- REGION_DELETE (R303). A delete action clears the record's valid flag. -/
  | regionDelete (path : Path) (q : Quad) (value : Word) (env : Env)
  /-- REGION_BUMP (R303). A bump action raises the version and sets publisher to 0xFFFF. -/
  | regionBump (path : Path) (q : Quad) (value : Word) (env : Env)
  /-- LEASE_EXPIRY (R310). NT reaches a lease's expiry and the entry becomes DRAINING. -/
  | leaseExpiry (q : Quad) (entry : Fin 256)
  /-- LEASE_REVOKE (R310). A write of SHR_LEASE_CTL.revoke ends an ACTIVE lease now. -/
  | leaseRevoke (path : Path) (q : Quad) (value : Word)
  /-- LEASE_DRAIN_COMPLETE (R310). Every descriptor issued before expiry has completed; the entry goes to FILLING or RECLAIMED. -/
  | leaseDrainComplete (q : Quad) (entry : Fin 256) (env : Env)
  /-- LEASE_FILL_COMPLETE (R312). The zero-fill of the lease's present pages ends and the entry becomes RECLAIMED. -/
  | leaseFillComplete (q : Quad) (entry : Fin 256) (env : Env)
  /-- LEASE_RELEASE (R310). A write of SHR_LEASE_CTL.release frees a RECLAIMED entry. -/
  | leaseRelease (path : Path) (q : Quad) (value : Word)
  /-- RD_SHARED (R326). A RdShared request at the home grants a shared, exclusive or forward copy. -/
  | rdShared (who : Who) (txn line : Nat) (ecc : List (Nat × Nat × EccResult))
  /-- RD_OWN (R326). A RdOwn request at the home invalidates the other holders and grants ownership. -/
  | rdOwn (who : Who) (txn line : Nat) (ecc : List (Nat × Nat × EccResult))
  /-- UPGRADE (R326). An Upgrade request at the home invalidates the other holders and answers Cmp. -/
  | upgrade (who : Who) (txn line : Nat) (ecc : List (Nat × Nat × EccResult))
  /-- RD_CUR (R326). A RdCur request at the home reads the current data without allocating. -/
  | rdCur (who : Who) (txn line : Nat) (ecc : List (Nat × Nat × EccResult))
  /-- WR_INV (R326). A WrInv request at the home invalidates holders, merges and writes the stack. -/
  | wrInv (who : Who) (txn line mask : Nat) (data : List Byte) (ecc : List (Nat × Nat × EccResult))
  /-- EVICT_DIRTY (R326). An EvictDirty writes the stack and removes its holder. -/
  | evictDirty (who : Who) (txn line : Nat) (dataErr : Bool) (data : List Byte) (ecc : List (Nat × Nat × EccResult))
  /-- EVICT_CLEAN (R326). An EvictClean removes its holder. -/
  | evictClean (who : Who) (txn line : Nat) (ecc : List (Nat × Nat × EccResult))
  /-- HOME_TRANSACTION_START (R327). A request waiting on a busy line or a full tracker begins its transaction at the home. -/
  | homeTransactionStart (line : Nat) (ecc : List (Nat × Nat × EccResult))
  /-- SNP_CUR (R325). A SnpCur at a holder returns data or the held state. -/
  | snpCur (st : Setting) (line : Nat)
  /-- SNP_SHR (R325). A SnpShr at a holder demotes it and returns data. -/
  | snpShr (st : Setting) (line : Nat)
  /-- SNP_CLN (R325). A SnpCln at a holder cleans the line to S. -/
  | snpCln (st : Setting) (line : Nat)
  /-- SNP_INV (R325). A SnpInv at a holder invalidates the line. -/
  | snpInv (st : Setting) (line : Nat)
  /-- SNP_FWD (R325). A SnpFwd makes the forwarder send the data to the requester. -/
  | snpFwd (st : Setting) (line : Nat)
  /-- SNP_WB (R325). A SnpWb writes dirty data back and keeps a clean copy. -/
  | snpWb (st : Setting) (line : Nat)
  /-- BACK_INV (R325). A BackInv invalidates the line for a directory eviction or removal. -/
  | backInv (st : Setting) (line : Nat)
  /-- RSP_I (R330). A RspI answer reaches the home. -/
  | rspI (who : Who) (line : Nat) (wbPending : Bool) (ecc : List (Nat × Nat × EccResult))
  /-- RSP_S (R326). A RspS answer reaches the home. -/
  | rspS (who : Who) (line : Nat) (ecc : List (Nat × Nat × EccResult))
  /-- RSP_E (R326). A RspE answer reaches the home. -/
  | rspE (who : Who) (line : Nat) (ecc : List (Nat × Nat × EccResult))
  /-- RSP_FWD (R325). A RspFwd answer reaches the home after a forward. -/
  | rspFwd (who : Who) (line : Nat) (ecc : List (Nat × Nat × EccResult))
  /-- CMP (R328). A Cmp from the home completes a request at its agent. -/
  | cmp (st : Setting) (line : Nat)
  /-- DATA (R328). A Data message brings the line and its granted state to the requester. -/
  | data (st : Setting) (line : Nat)
  /-- DATA_WB (R330). A DataWb brings dirty data from a holder to the home. -/
  | dataWb (who : Who) (line : Nat) (dataErr : Bool) (data : List Byte) (ecc : List (Nat × Nat × EccResult))
  /-- LINE_CACHE_ACCESS (R324). A local read or write at a line cache hits, or sends a request to the home. -/
  | lineCacheAccess (st : Setting) (line : Nat) (op : LineOp)
  /-- LINE_CACHE_EVICTION (R324). A line cache replaces a line and announces it with EvictDirty or EvictClean. -/
  | lineCacheEviction (st : Setting) (line : Nat)
  /-- ILCEN_FLIT (R332). An Ilcen flit arrives; it is accepted in sequence, or answered with a NAK on a CRC failure. -/
  | ilcenFlit (f : IlcFlit)
  /-- ILCEN_HELLO (R333). A Hello flit arrives in PARAM or RETRAIN and the link enters ACTIVE when both agree. -/
  | ilcenHello (h : IlcHello)
  /-- SNOOP_TIMEOUT (R335). A snoop stays unanswered for snoop_timeout_us and its agent is declared lost. -/
  | snoopTimeout (agent : Fin 8) (ecc : List (Nat × Nat × EccResult))
  /-- AGENT_REMOVE (R335). A write of ILC_AGENT_CTL.remove back-invalidates every line the agent holds. -/
  | agentRemove (path : Path) (value : Word)
  /-- AGENT_LOSE (R335). A write of ILC_AGENT_CTL.lose declares the agent lost now. -/
  | agentLose (path : Path) (value : Word)
  /-- LOSS_EVENT_COMPLETE (R337). The region bumps are written, the loss event completes and a coherence event is raised. -/
  | lossEventComplete (ecc : List (Nat × Nat × EccResult))
  /-- DIR_PROBE (R341). A write of COH_DIR_PROBE.go looks up a line's directory entry. -/
  | dirProbe (path : Path) (q : Quad) (value : Word)
  /-- LLL_CONSUME (R339). A write of COH_LLL_CTL.consume frees the oldest Lost Line Log entries. -/
  | lllConsume (path : Path) (q : Quad) (value : Word)
  /-- LLL_CLEAR_OVERFLOW (R339). A write of COH_LLL_CTL.clear_overflow sets the overflow count to 0. -/
  | lllClearOverflow (path : Path) (q : Quad) (value : Word)
  /-- FRAME_SLOT (R347). At each 5.12 ns slot an ACTIVE link sends a DATA, replay or CTRL frame carrying ack and a credit counter. -/
  | frameSlot (n : LinkId)
  /-- DATA_FRAME (R352). A received DATA frame is classed as expected, ahead or behind and accepted or discarded. -/
  | dataFrame (n : LinkId) (f : Frame)
  /-- IDLE (R349). An IDLE CTRL frame arrives and its ack, nak and credit fields are taken. -/
  | idle (n : LinkId) (f : Frame)
  /-- HELLO (R364). A HELLO arrives in PARAM; the session is resumed or started fresh and the link moves on. -/
  | hello (n : LinkId) (f : Frame)
  /-- HELLO_TICK (R350). Every 1 µs in PARAM the link sends a HELLO. -/
  | helloTick (n : LinkId)
  /-- TIME_REQ (R367). A TIME_REQ arrives and is answered with TIME_RESP. -/
  | timeReq (n : LinkId) (f : Frame) (arr dep : Fin 65536)
  /-- TIME_RESP (R367). A TIME_RESP arrives; after the 16th exchange the offset is computed and NT is stepped or slewed. -/
  | timeResp (n : LinkId) (f : Frame) (arr : Fin 65536)
  /-- TIME_EXCHANGE_TICK (R367). Every 1 µs in OFFSET the requesting end sends a TIME_REQ. -/
  | timeExchangeTick (n : LinkId) (frac : Fin 65536)
  /-- NAK_RESEND (R352). e has not advanced for replay_timeout_us / 2 after a NAK and the NAK is sent again. -/
  | nakResend (n : LinkId)
  /-- REPLAY_TIMEOUT (R353). No ack has advanced for replay_timeout_us and the sender replays from ack_base. -/
  | replayTimeout (n : LinkId)
  /-- ERROR_WINDOW_EXCEEDED (R357). Frame errors in the window exceed err_limit and the link enters RETRAIN. -/
  | errorWindowExceeded (n : LinkId)
  /-- TRAIN (R359). TRAIN prongs keep a spare or training lane trained. -/
  | train (n : LinkId) (lane : Fin 3) (p : Prong)
  /-- SWAP (R360). A SWAP prong makes the peer stop DATA, answer SWAP_ACK and move the slot to the spare. -/
  | swap (n : LinkId) (p : Prong)
  /-- SWAP_ACK (R360). A SWAP_ACK prong confirms the lane swap. -/
  | swapAck (n : LinkId) (p : Prong)
  /-- RETRAIN (R358). RETRAIN prongs put the link into retraining. -/
  | retrain (n : LinkId) (p : Prong)
  /-- RESUME (R358). A RESUME prong returns the link to ACTIVE and replay starts from the peer's next expected number. -/
  | resume (n : LinkId) (p : Prong)
  /-- DOWN (R363). A DOWN prong takes the link DOWN. -/
  | down (n : LinkId) (p : Prong)
  /-- RETRAIN_TIMEOUT (R358). A retrain has not succeeded in 20 ms and starts again, or the link goes DOWN after three failures in 1 s. -/
  | retrainTimeout (n : LinkId)
  /-- PAUSE_TIMEOUT (R363). No RESUME has arrived within 20 µs of PAUSE and the link enters RETRAIN. -/
  | pauseTimeout (n : LinkId)
  /-- LANE_FAILURE (R360). A lane loses lock or exceeds its error counts; it is swapped to the spare, or the link goes DOWN. -/
  | laneFailure (n : LinkId) (lane : Fin 3)
  /-- LANE_RETRY (R362). Every 100 ms a failed lane is retried with training patterns. -/
  | laneRetry (n : LinkId) (lane : Fin 3) (ok : Bool)
  /-- LANE_SPARE_PROMOTION (R362). A retrained lane that holds lock for 1 s becomes the spare. -/
  | laneSparePromotion (n : LinkId) (lane : Fin 3)
  /-- LINK_TRAINING_DONE (R363). Two lanes are trained and the link enters ALIGN. -/
  | linkTrainingDone (n : LinkId) (a b : Fin 3) (third : Bool)
  /-- LINK_TRAINING_TIMEOUT (R363). Fewer than two lanes have trained in 900 ms and the link goes DOWN. -/
  | linkTrainingTimeout (n : LinkId)
  /-- ALIGN_LOCK (R363). Codeword lock and deskew succeed and the link enters PARAM. -/
  | alignLock (n : LinkId)
  /-- SYNTONISE_LOCK (R366). The TIME PLL locks to the source link, or the link is not the source, and the link enters OFFSET. -/
  | syntoniseLock (n : LinkId)
  /-- DOWN_RETRY (R363). retry_ms has elapsed in DOWN while the link is enabled, and it retrains. -/
  | downRetry (n : LinkId)
  /-- LNK_CTL_RETRAIN (R358). A write of LNK_CTL.retrain forces an ACTIVE link into RETRAIN. -/
  | lnkCtlRetrain (path : Path) (n : LinkId) (value : Word)
  /-- LNK_CTL_DISCARD (R365). A write of LNK_CTL.discard on a DOWN or DISABLED link discards its held packets and replay buffer. -/
  | lnkCtlDiscard (path : Path) (n : LinkId) (value : Word)
  /-- PACKET_HEAD_ROUTE (R378). A packet head at the front of its input virtual channel is routed by the table of its epoch, ejected or dropped. -/
  | packetHeadRoute (port : Fin 33) (vc : Vc)
  /-- READ (R375). A READ packet at the endpoint is policed, checked, and read through the line cache path. -/
  | read (port : Fin 36) (p : Packet) (env : Env)
  /-- WRITE (R375). A WRITE packet at the endpoint is applied after its pcrc matches and is acknowledged. -/
  | write (port : Fin 36) (p : Packet) (env : Env)
  /-- ACTIVATION (R238). An activation packet is written into its open RECV channel or refused, and answered with ACT_ACK. -/
  | activation (port : Fin 36) (p : Packet)
  /-- READ_DATA (R391). A READ_DATA answer is matched to its tag and frees it. -/
  | readData (port : Fin 36) (p : Packet)
  /-- WRITE_ACK (R391). A WRITE_ACK answer is matched to its tag; a refused mirror write puts the node into SOLO. -/
  | writeAck (port : Fin 36) (p : Packet)
  /-- ACT_ACK (R238). An ACT_ACK tells the sender whether its activation packet was accepted. -/
  | actAck (port : Fin 36) (p : Packet)
  /-- DROP_NOTICE (R408). A DROP_NOTICE packet reports policing drops and is not answered. -/
  | dropNotice (port : Fin 36) (p : Packet)
  /-- REG_READ (R377). A REG_READ from the fabric manager reads a register and is answered with REG_RESP. -/
  | regRead (port : Fin 36) (p : Packet)
  /-- REG_WRITE (R377). A REG_WRITE writes a register under its access rules and is answered with REG_RESP. -/
  | regWrite (port : Fin 36) (p : Packet) (env : Env)
  /-- REG_RESP (R373). A REG_RESP reaches its originator. -/
  | regResp (port : Fin 36) (p : Packet)
  /-- TAG_TIMEOUT (R391). tag_timeout_us passes without an answer; the tag is freed and the request is reissued or its descriptor ended. -/
  | tagTimeout (tag : Fin 4096)
  /-- BEAT (R416). A valid BEAT from the partner keeps its path alive, and its term is adopted or leads to FENCED. -/
  | beat (src : HbSrc)
  /-- HANDOVER (R431). A HANDOVER message makes a STANDBY enter CLAIMING at once. -/
  | handover (src : HbSrc)
  /-- PATH_SILENT (R416). A path has carried no valid message for 800 µs; degraded is set and, with both paths silent, the role changes. -/
  | pathSilent (fabric : Bool)
  /-- PAI_GRANT (R426). A grant makes the claimant ACTIVE or SOLO with a new term and the alias valid, and quarantines its tags. -/
  | paiGrant (path : Path) (value : Word)
  /-- TAKEOVER_QUARANTINE_END (R426). The takeover quarantine ends, journalled work is re-executed or completed, and fetching resumes. -/
  | takeoverQuarantineEnd (env : Env)
  /-- PAI_FENCE (R429). A write of PAI_CTL.fence puts the node into FENCED: alias cleared and paired work stopped. -/
  | paiFence (path : Path) (value : Word)
  /-- PAI_HANDOVER (R431). A write of PAI_CTL.handover stops issuing for paired clients to begin a planned handover. -/
  | paiHandover (path : Path) (value : Word)
  /-- QUOTE (R441). A write of SEC_CTL.quote makes Hallmark generate an ephemeral key and sign a quote. -/
  | quote (path : Path) (value : Word)
  /-- QUOTE_DONE (R441). The quote and certificate blob are written and the result is set. -/
  | quoteDone (cert : List Byte) (env : Env)
  /-- BIND (R444). A write of SEC_CTL.bind checks the wrapped bind record and starts the bind fill when accepted. -/
  | bind (path : Path) (value : Word)
  /-- RELEASE (R451). A write of SEC_CTL.release starts the release sequence and the Bezel enters RELEASING. -/
  | release (path : Path) (value : Word)
  /-- SVN_COMMIT (R455). A write of SEC_CTL.svn_commit blows svn_min bits up to the running svn. -/
  | svnCommit (path : Path) (value : Word)
  /-- TRACE_RECORD_WRITE (R469). A trace record reaches the writer and is admitted by the bucket and written by the capture state, or dropped. -/
  | traceRecordWrite (cls : Fin 16) (idx : Fin 4096)
  /-- TRACE_TRIGGER (R471). A write of LPE_TRC_CTL.trigger triggers the capture. -/
  | traceTrigger (path : Path) (value : Word)
  /-- TRACE_REARM (R471). A write of LPE_TRC_CTL.rearm restarts the capture empty in PRE. -/
  | traceRearm (path : Path) (value : Word)
  /-- LPE_MARK (R464). A write of LPE_MARK raises a software marker record 0xF81. -/
  | lpeMark (path : Path) (value : Word)
  /-- LPE_SEL_WRITE (R460). A write of LPE_SEL sets its selector and clears its counter. -/
  | lpeSelWrite (path : Path) (q : Quad) (n : Fin 512) (value : Word)
  /-- LPE_CTR_WRITE (R460). A write of LPE_CTR sets its counter to the value written. -/
  | lpeCtrWrite (path : Path) (q : Quad) (n : Fin 512) (value : Word)
  /-- GLOBAL_STOP_REQUEST (R472). A write of LPE_STOP.stop stops every CORE domain within 16 edges. -/
  | globalStopRequest (path : Path) (value : Word)
  /-- STOP_IN_N_LOW (R472). STOP_IN_N has been low for 20 ns with pin_en set and a global stop is requested. -/
  | stopInNLow (held : Bool)
  /-- GLOBAL_STOP_RESUME (R474). A write of LPE_STOP.resume is accepted or refused with its result code. -/
  | globalStopResume (path : Path) (value : Word)
  /-- SNAPSHOT (R462). A write of LPE_SNAP_CTL.go schedules a snapshot of the counters. -/
  | snapshot (path : Path) (value : Word)
  /-- DUMP (R475). A write of LPE_DUMP_CTL.go while stopped starts a global dump. -/
  | dump (path : Path) (value : Word)
  /-- WATCHDOG_EXPIRY (R477). A quadrant's watchdog reaches timeout_ms; its issue stops and a hang dump begins. -/
  | watchdogExpiry (q : Quad)
  /-- HANG_DUMP_DONE (R477). The hang dump is written, issue resumes and a 0xFC6 record and an event are raised. -/
  | hangDumpDone (q : Quad)
  /-- WATCHDOG_REARM (R477). A write of LPE_WDOG.rearm clears expired and re-arms the watchdog. -/
  | watchdogRearm (path : Path) (q : Quad) (value : Word)
  /-- SAMPLE_PRELOAD (R478). The SAMPLE/PRELOAD instruction samples or preloads the boundary scan. -/
  | samplePreload (value : Nat)
  /-- EXTEST (R478). The EXTEST instruction drives the covered pins from the boundary scan. -/
  | extest (value : Nat)
  /-- JTAG_REG (R478). The REG instruction reads or writes a register at Update-DR. -/
  | jtagReg (write : Bool) (offset : BitVec 26) (value : Word) (env : Env)
  /-- SMB_WRITE (R497). The SMBus WRITE command writes a 64-bit value to a register offset. -/
  | smbWrite (host : Nat) (count offset : Nat) (value : Word) (pecOk : Bool) (env : Env)
  /-- SMB_ADDR (R497). The SMBus ADDR command sets the host's offset for the next READ. -/
  | smbAddr (host : Nat) (count offset : Nat) (pecOk : Bool)
  /-- SMB_READ (R497). The SMBus READ command returns a status and the value at the ADDR offset. -/
  | smbRead (host : Nat)
  /-- EVT_HEAD_WRITE (R485). A write of EVT_RING_PTR.head consumes records, or is ignored and logged when out of range. -/
  | evtHeadWrite (path : Path) (value : Word)
  /-- NODE_FATAL_ERROR (R488). A node-fatal error stops heartbeats, fences the node, stops the queue engines and writes EVT_FATAL. -/
  | nodeFatalError (cause : Fin 16) (quadrant : Option Quad)
  /-- SEG_BMC_INV_DONE (R114). The drop ends within 1 µs and busy clears. -/
  | segBmcInvDone (q : Quad)
  /-- REFRESH (R127). A refresh interval ends and the stack port refreshes the next bank. -/
  | refresh (n : Setting)
  /-- POWER_DOWN_IDLE (R128). A stack has been idle for 1 µs and enters power-down. -/
  | powerDownIdle (n : Setting)
  /-- REINSTATE_RETRAIN_DONE (R141). The retraining ends and the group enters REINSTATING, stays as it was, or abandons the reinstatement. -/
  | reinstateRetrainDone (q : Quad) (ok : Bool)
  /-- BANK_REGION_TEST_END (R167). The march ends and the region is restored, or it is repaired or its bank failed. -/
  | bankRegionTestEnd (st : Setting) (pass : Bool)
  /-- SEND_RETRY_EXPIRY (R238). A packet is still refused after send_retry_ms and the sending run ends with 0xF002. -/
  | sendRetryExpiry (n piece : Nat)
  /-- SPILL_RESULT_TIMEOUT (R270). An accepted group's results have not arrived within spill_timeout_us and the instance ends with 0xF002. -/
  | spillResultTimeout (group : Fin 65536)
  /-- ALIGN_TIMEOUT (R363). There is no lock in 10 ms and the link goes DOWN. -/
  | alignTimeout (n : LinkId)
  /-- PARAM_TIMEOUT (R363). No valid HELLO has arrived in 1 ms and the link goes DOWN. -/
  | paramTimeout (n : LinkId)
  /-- SYNTONISE_TIMEOUT (R363). There is no lock in 50 ms and the link goes DOWN. -/
  | syntoniseTimeout (n : LinkId)
  /-- TAG_QUARANTINE_END (R390). A freed tag's 2 × L quarantine ends and the tag may be allocated again. -/
  | tagQuarantineEnd (tag : Fin 4096)
  /-- DROP_NOTICE_HOLDOFF_END (R408). The 1 ms holdoff ends and one notice is sent for the drops that accumulated. -/
  | dropNoticeHoldoffEnd (c : Client)
  /-- NP8_HOLD_EXPIRY (R331). The 64-cycle NP8 hold after a grant ends and a snoop held back for that holder is sent. -/
  | np8HoldExpiry (line : Nat)
  /-- SPARE_DESKEW_DONE (R360). During a lane swap the deskew of the spare lane completes and the end sends RESUME. -/
  | spareDeskewDone (n : LinkId)
  /-- EQUALISER_ADAPTATION_DONE (R358). In RETRAIN the digital shell finishes re-adapting the equalisers and the end sends RESUME. -/
  | equaliserAdaptationDone (n : LinkId)
  /-- STACK_POWER_TRANSITION_DONE (R128). A stack's self-refresh entry (1 µs) or exit (2 µs) completes, and held accesses are served after an exit. -/
  | stackPowerTransitionDone (n : Setting)
  /-- POWER_ON (R42). PWROK rises for the first time after VDD_IO is in tolerance; the whole device is reset and start-up begins at step 2. -/
  | powerOn
  /-- PERST_N_ASSERT (R42). PERST_N goes low and the NP32 enters cold reset. -/
  | perstNAssert
  /-- PWROK_LOSS (R24). PWROK goes low while PERST_N is high; within 1 µs the NP32 enters cold reset, stops heartbeats and idles every link and Ilcen lane. -/
  | pwrokLoss
  /-- REFCLK_LOST (R35). REFCLK has stopped or drifted for 10 µs; the NP32 sets ref_lost, raises a clock event and the PLLs enter holdover. -/
  | refclkLost
  /-- REFCLK_RETURN (R35). REFCLK has been within specification for 1 ms and the PLLs leave holdover without a phase step in NT. -/
  | refclkReturn
  /-- CLASP_CHECK (R49). Start-up step 7 ends: failed stacks are counted per group and the stacks are zero-filled unless they are kept. -/
  | claspCheck
  /-- LINK_TRAINING_STEP (R363). Start-up step 8 ends once every enabled link is up or has been left down. -/
  | linkTrainingStep
  /-- ROUTE_TABLE_ACTIVATION (R51). Start-up step 9 ends: the router takes the applied route-table versions into service. -/
  | routeTableActivation
  /-- ILCEN_BRINGUP (R46). Start-up step 10 ends: Ilcen bring-up has been attempted and start-up continues. -/
  | ilcenBringup
  /-- AUTO_QUEUE_COMMIT (R52). Once step 11 has completed and no commit is pending, the NP32 applies the staged queue enables by a commit with token 0. -/
  | autoQueueCommit
  /-- COMMIT_CHECK_END (R64). The consistency check ends: it passes, or it fails with RULE and the faulting offset. -/
  | commitCheckEnd
  /-- COMMIT_APPLY (R65). At the commit instant every clock domain switches to the staged values, or the commit fails with HALTED under a global stop. -/
  | commitApply
  /-- MGMT_LIVENESS_LOSS (R502). Neither management core has beaten for 1 ms and the heartbeat generator stops. -/
  | mgmtLivenessLoss
  /-- INSTANCE_START (R216). The sequencer starts the next operation instance once the instances it depends on have completed. -/
  | instanceStart
  /-- LOOP (R239). The LOOP operation repeats its body count times with a loop index. -/
  | loop
  /-- BARRIER (R217). The BARRIER operation waits for every earlier instance and completes at once. -/
  | barrier
  /-- SPILL_ANSWER_TIMEOUT (R268). answer_us passes without an answer and the unanswered groups are dropped. -/
  | spillAnswerTimeout
  /-- ILCEN_CRC_LIMIT (R333). CRC failures in 1 ms exceed crc_limit and the Ilcen link enters RETRAIN. -/
  | ilcenCrcLimit
  /-- ILCEN_TRAINED (R333). The Ilcen PHY trains and the link enters PARAM and sends Hello. -/
  | ilcenTrained
  /-- ILCEN_TRAINING_TIMEOUT (R333). Training has not succeeded in 50 ms and the link goes DOWN. -/
  | ilcenTrainingTimeout
  /-- ILCEN_RETRY (R333). 100 ms after DOWN with the enable set, the link retrains. -/
  | ilcenRetry
  /-- ILCEN_PARAM_TIMEOUT (R333). No Hello arrives within 1 ms and the link counts a failed retrain. -/
  | ilcenParamTimeout
  /-- LOSS_WALK_DONE (R336). The directory walk of a loss event ends with its lost lines logged, and the region scan begins. -/
  | lossWalkDone
  /-- DRAIN_END (R386). drain_us after a flip, draining clears and, with auto_retire, the old version is retired. -/
  | drainEnd
  /-- HEARTBEAT_TICK (R415). Every 100 µs the NP32 sends a BEAT on the pin path and over Quagen. -/
  | heartbeatTick
  /-- CLAIM_TICK (R425). Every 100 µs a CLAIMING node sends a CLAIM to the fabric manager. -/
  | claimTick
  /-- CLAIM_TIMEOUT (R425). claim_ms passes without a grant and the claimant returns to STANDBY. -/
  | claimTimeout
  /-- HANDOVER_DRAIN_DONE (R431). Every paired journal slot is completed; the HANDOVER message is sent and the node becomes STANDBY. -/
  | handoverDrainDone
  /-- MIRROR_SEND (R420). The mirror engine sends a captured range to the partner as WRITE packets on the mirror links. -/
  | mirrorSend
  /-- JOIN_COPY_COMPLETE (R430). The copy to a joining node ends; the sender becomes ACTIVE and the joiner STANDBY. -/
  | joinCopyComplete
  /-- BIND_FILL_DONE (R445). The bind fill ends and the Bezel enters BOUND. -/
  | bindFillDone
  /-- RELEASE_DRAIN_END (R451). Started work has ended or drain_ms has passed, and the key is destroyed and the zero-write begins. -/
  | releaseDrainEnd
  /-- RELEASE_SCRUB_DONE (R451). The plaintext zero-write ends, caches, bitmaps and recipes are cleared, and the Bezel becomes OPEN. -/
  | releaseScrubDone
  /-- RESUME_INSTANT (R474). At the next 1 µs boundary of NT after a resume, every CORE domain restarts and STOP_OUT_N rises. -/
  | resumeInstant
  /-- SNAPSHOT_INSTANT (R462). At the snapshot instant every counter is copied into LPE_SNAP. -/
  | snapshotInstant
  /-- DUMP_DONE (R475). A dump ends, whole or truncated, and its result is set. -/
  | dumpDone
  /-- TAP_RESET (R478). TRST_N, or five TCK edges with TMS high, reset the TAP and select IDCODE. -/
  | tapReset
  /-- IDCODE (R478). The IDCODE instruction returns part_id with bit 0 set. -/
  | idcode
  /-- JTAG_STOP (R478). The STOP instruction requests a global stop at Update-IR. -/
  | jtagStop
  /-- JTAG_RESUME (R478). The RESUME instruction requests a resume at Update-IR. -/
  | jtagResume
  /-- DUMP_READ (R478). The DUMP_READ instruction streams the global dump image while stopped. -/
  | dumpRead
  /-- BYPASS (R478). The BYPASS instruction selects the 1-bit bypass register. -/
  | bypass
  /-- SMB_ALERT_RESPONSE (R487). The NP32 answers the SMBus Alert Response Address with its own address. -/
  | smbAlertResponse
  /-- EVENT_RECORD_WRITE (R484). The oldest queued event record is written to the ring once it has room and Ilcen is ACTIVE. -/
  | eventRecordWrite
  /-- EVENT_NOTIFY (R485). After a record becomes visible, the tail is written to the notify target at most once per holdoff. -/
  | eventNotify
  /-- SVN_COMMIT_DONE (R455). Firmware has blown svn_min bits up to the running svn, within 10 ms, and SEC_STATUS.busy clears. -/
  | svnCommitDone
  /-- NT_HIGH_BITS_CHANGE (R467). NT bits [63:48] change and the trace writer writes a 0xFC2 time record. -/
  | ntHighBitsChange
deriving DecidableEq, Repr

end Sys2Proof
end

