-- ==== Sys2Proof/Machine/Bits.lean ====
section
/-! DEFINITION. Bit fields, byte order, CRC-32C and sparse maps: the helpers every later file reads words and bytes with (R2, R54). -/

namespace Sys2Proof.Machine

open Sys2Proof

/-- A field of a 64-bit register: its lowest bit and its width. -/
structure Field where
  lo : Nat
  width : Nat
deriving DecidableEq, Repr

/-- Bits [lo + width - 1 : lo] of a number. -/
def bitsAt (n lo width : Nat) : Nat := (n >>> lo) % 2 ^ width

/-- The number with bits [lo + width - 1 : lo] replaced by v. -/
def withBits (n lo width v : Nat) : Nat :=
  n - (bitsAt n lo width) * 2 ^ lo + (v % 2 ^ width) * 2 ^ lo

/-- The value of a field of a register word. -/
def getF (w : Word) (f : Field) : Nat := bitsAt w.toNat f.lo f.width

/-- The register word with one field replaced. -/
def setF (w : Word) (f : Field) (v : Nat) : Word := BitVec.ofNat 64 (withBits w.toNat f.lo f.width v)

/-- n bytes of a number, least significant byte first (R2). -/
def leBytes : Nat → Nat → List Byte
  | 0, _ => []
  | n + 1, v => BitVec.ofNat 8 v :: leBytes n (v / 256)

/-- The number that bytes hold, least significant byte first (R2). -/
def ofLE : List Byte → Nat
  | [] => 0
  | b :: bs => b.toNat + 256 * ofLE bs

/-- The n bytes from position `at` on, zero where the list is shorter. -/
def slice (bs : List Byte) (start n : Nat) : List Byte :=
  (List.range n).map fun i => bs.getD (start + i) 0

/-- The little-endian number in n bytes from a position. -/
def leAt (bs : List Byte) (start n : Nat) : Nat := ofLE (slice bs start n)

/-- A list padded with zero bytes, or cut, to n bytes. -/
def padTo (n : Nat) (bs : List Byte) : List Byte := slice bs 0 n

/-- Bytes replaced from a position on, within the length of the list. -/
def splice (bs : List Byte) (start : Nat) (new : List Byte) : List Byte :=
  bs.take start ++ new.take (bs.length - start) ++ bs.drop (start + new.length)

/-- n shifted right with the Castagnoli polynomial, reflected (R54). -/
def crcStep (c : Nat) : Nat := if c % 2 = 1 then (c / 2) ^^^ 0x82F63B78 else c / 2

/-- One byte through CRC-32C (R54). -/
def crcByte (c : Nat) (b : Byte) : Nat :=
  crcStep (crcStep (crcStep (crcStep (crcStep (crcStep (crcStep (crcStep (c ^^^ b.toNat))))))))

/-- CRC-32C: reflected, initial value and final XOR all ones (R54). -/
def crc32c (bs : List Byte) : Nat := (bs.foldl crcByte 0xFFFFFFFF) ^^^ 0xFFFFFFFF

/-- The signed value of the low w bits of a number. -/
def signedOf (w n : Nat) : Int := if (n % 2 ^ w) < 2 ^ (w - 1) then (n % 2 ^ w : Nat) else ((n % 2 ^ w : Nat) : Int) - ((2 ^ w : Nat) : Int)

/-- The low w bits of a signed number, two's complement. -/
def ofSigned (w : Nat) (i : Int) : Nat := (i % ((2 ^ w : Nat) : Int)).toNat

/-- Ceiling division; 0 for a divisor of 0. -/
def cdiv (a b : Nat) : Nat := (a + b - 1) / b

/-- A count that stops at the top of its width. -/
def satAdd (width a b : Nat) : Nat := if a + b < 2 ^ width then a + b else 2 ^ width - 1

/-- A value held within a range. -/
def clampTo (lo hi v : Nat) : Nat := if v < lo then lo else if hi < v then hi else v

/-- The next multiple of m at or after n. -/
def roundUp (m n : Nat) : Nat := cdiv n m * m

/-- A Boolean as a bit. -/
def bit (b : Bool) : Nat := if b then 1 else 0

/-- The value a sparse map holds at a key, the default where it lists none. -/
def mget {α : Type} (d : Nat → α) : SMap α → Nat → α
  | [], k => d k
  | (k', v) :: t, k => if k = k' then v else mget d t k

/-- A sparse map with one key set. The keys stay in rising order, and a value equal to the key's default is not listed. -/
def mset {α : Type} [DecidableEq α] (d : Nat → α) : SMap α → Nat → α → SMap α
  | [], k, v => if v = d k then [] else [(k, v)]
  | (k', v') :: t, k, v =>
    if k < k' then (if v = d k then (k', v') :: t else (k, v) :: (k', v') :: t)
    else if k = k' then (if v = d k then t else (k, v) :: t)
    else (k', v') :: mset d t k v

/-- The canonical form from a lower bound on: keys strictly rising and no value equal to its key's default. -/
def mwfFrom {α : Type} [DecidableEq α] (d : Nat → α) : Nat → SMap α → Bool
  | _, [] => true
  | lo, (k, v) :: t => decide (lo ≤ k) && decide (v ≠ d k) && mwfFrom d (k + 1) t

/-- The canonical form of a sparse map. -/
def mwf {α : Type} [DecidableEq α] (d : Nat → α) (m : SMap α) : Bool := mwfFrom d 0 m

/-- The map without the keys of a range. -/
def mclear {α : Type} (m : SMap α) (lo hi : Nat) : SMap α := m.filter fun e => e.1 < lo || hi ≤ e.1

/-- The entries that list the values of consecutive keys: those that are not their key's default. -/
def mlisted {α : Type} [DecidableEq α] (d : Nat → α) : Nat → List α → SMap α
  | _, [] => []
  | k, v :: vs => if v = d k then mlisted d (k + 1) vs else (k, v) :: mlisted d (k + 1) vs

/-- Consecutive keys set to the values of a list. -/
def msetList {α : Type} [DecidableEq α] (d : Nat → α) (m : SMap α) (k : Nat) (vs : List α) : SMap α :=
  (m.filter fun e => decide (e.1 < k)) ++ mlisted d k vs ++ m.filter fun e => decide (k + vs.length ≤ e.1)

/-- The values of n consecutive keys. -/
def mgetList {α : Type} (d : Nat → α) (m : SMap α) (k n : Nat) : List α :=
  let w := m.filter fun e => decide (k ≤ e.1) && decide (e.1 < k + n)
  (List.range n).map fun i => mget d w (k + i)

/-- The bytes of two lists combined by exclusive or, as long as the first. -/
def xorBytes (a b : List Byte) : List Byte := (a.zip b).map (fun p => p.1 ^^^ p.2) ++ a.drop b.length

/-- The element of a list at a position replaced. -/
def lset {α : Type} (l : List α) (i : Nat) (v : α) : List α := l.set i v

/-- Every element that meets a test mapped, the others kept. -/
def mapIf {α : Type} (p : α → Bool) (f : α → α) (l : List α) : List α := l.map fun x => if p x then f x else x

end Sys2Proof.Machine
end

