-- ==== Sys2Proof/Machine/Float.lean ====
section
/-! DEFINITION. Exact binary numbers, their rounding to the element formats, and FP32 arithmetic (R170 to R177, R185 to R188). -/

namespace Sys2Proof.Machine

open Sys2Proof

/-- A value of a floating-point or integer element: NaN, an infinity, or the finite value ± m × 2^e. -/
inductive Num where
  | nan
  | inf (neg : Bool)
  | fin (neg : Bool) (m : Nat) (e : Int)
deriving DecidableEq, Repr

/-- Plus zero. -/
def Num.zero : Num := .fin false 0 0

/-- A natural number as a value. -/
def Num.ofNat (n : Nat) : Num := .fin false n 0

/-- An integer as a value. -/
def Num.ofInt (i : Int) : Num := .fin (decide (i < 0)) i.natAbs 0

/-- The sign turned. -/
def Num.neg : Num → Num
  | .nan => .nan
  | .inf s => .inf (!s)
  | .fin s m e => .fin (!s) m e

/-- The magnitude. -/
def Num.abs : Num → Num
  | .nan => .nan
  | .inf _ => .inf false
  | .fin _ m e => .fin false m e

/-- Whether a value is NaN. -/
def Num.isNan : Num → Bool
  | .nan => true
  | _ => false

/-- Whether a value is finite. -/
def Num.isFin : Num → Bool
  | .fin _ _ _ => true
  | _ => false

/-- Whether a value is +0 or −0. -/
def Num.isZero : Num → Bool
  | .fin _ m _ => m == 0
  | _ => false

/-- Two finite values as integers over one power of two. -/
def alignTo (m : Nat) (e low : Int) : Nat := m * 2 ^ (e - low).toNat

/-- The exact sum of finite values; infinities and NaN as IEEE 754. The sum of +0 and −0, and of opposite values, is +0 (R187). -/
def Num.add : Num → Num → Num
  | .nan, _ => .nan
  | _, .nan => .nan
  | .inf a, .inf b => if a = b then .inf a else .nan
  | .inf a, _ => .inf a
  | _, .inf b => .inf b
  | .fin sa ma ea, .fin sb mb eb =>
    let low := min ea eb
    let a := alignTo ma ea low
    let b := alignTo mb eb low
    if sa = sb then .fin sa (a + b) low
    else if a = b then .fin false 0 low
    else if b < a then .fin sa (a - b) low
    else .fin sb (b - a) low

/-- The exact product; infinity times zero is invalid and gives NaN. -/
def Num.mul : Num → Num → Num
  | .nan, _ => .nan
  | _, .nan => .nan
  | .inf a, .inf b => .inf (a != b)
  | .inf a, .fin b m _ => if m = 0 then .nan else .inf (a != b)
  | .fin a m _, .inf b => if m = 0 then .nan else .inf (a != b)
  | .fin a ma ea, .fin b mb eb => .fin (a != b) (ma * mb) (ea + eb)

/-- The value times a power of two. -/
def Num.scale (k : Int) : Num → Num
  | .fin s m e => .fin s m (e + k)
  | x => x

/-- Whether x < y, for values that are not NaN; −0 equals +0. -/
def Num.lt (x y : Num) : Bool :=
  match x, y with
  | .nan, _ => false
  | _, .nan => false
  | .inf a, .inf b => a && !b
  | .inf a, _ => a
  | _, .inf b => !b
  | .fin sa ma ea, .fin sb mb eb =>
    let low := min ea eb
    let a : Int := (if sa then -1 else 1) * alignTo ma ea low
    let b : Int := (if sb then -1 else 1) * alignTo mb eb low
    decide (a < b)

/-- Whether x ≤ y, for values that are not NaN. -/
def Num.le (x y : Num) : Bool := !x.isNan && !y.isNan && !(y.lt x)

/-- The greater of two values; a NaN wins. -/
def Num.max (x y : Num) : Num := if x.isNan then x else if y.isNan then y else if x.lt y then y else x

/-- n / 2^k to the nearest integer, ties to even (R185). -/
def roundShift (n k : Nat) : Nat :=
  let q := n / 2 ^ k
  let r := n % 2 ^ k
  if 2 * r < 2 ^ k then q else if 2 ^ k < 2 * r then q + 1 else q + q % 2

/-- The magnitude code (exponent field and mantissa field together) of m × 2^e rounded to nearest even in a format with mb mantissa bits and a bias, without an upper limit. Subnormals are kept. -/
def magCode (mb bias : Nat) (m : Nat) (e : Int) : Nat :=
  if m = 0 then 0
  else
    let least : Int := 1 - (bias : Int) - mb
    let qe := max ((Nat.log2 m : Int) + e - mb) least
    let k := qe - e
    let sig := if k ≤ 0 then m * 2 ^ (-k).toNat else roundShift m k.toNat
    (qe - least).toNat * 2 ^ mb + sig

/-- The finite value of a magnitude code. -/
def codeMag (mb bias code : Nat) : Nat × Int :=
  let ef := code / 2 ^ mb
  let mf := code % 2 ^ mb
  if ef = 0 then (mf, 1 - (bias : Int) - mb) else (2 ^ mb + mf, (ef : Int) - bias - mb)

/-- The value of an FP32 word (Table NF-2). -/
def of32 (w : Nat) : Num :=
  let s := (w / 2 ^ 31) % 2 = 1
  let c := w % 2 ^ 31
  if c / 2 ^ 23 = 255 then (if c % 2 ^ 23 = 0 then .inf s else .nan)
  else
    let (m, e) := codeMag 23 127 c
    .fin s m e

/-- A value rounded to FP32; NaN is canonical (R177, R187). -/
def to32 : Num → Nat
  | .nan => 0x7FC00000
  | .inf s => bit s * 2 ^ 31 + 0x7F800000
  | .fin s m e => bit s * 2 ^ 31 + min (magCode 23 127 m e) 0x7F800000

/-- A value rounded to FP32, as a value. -/
def rnd32 (x : Num) : Num := of32 (to32 x)

/-- FP32 addition with one rounding (R187). -/
def fadd32 (a b : Nat) : Nat := to32 ((of32 a).add (of32 b))

/-- FP32 multiplication with one rounding (R187). -/
def fmul32 (a b : Nat) : Nat := to32 ((of32 a).mul (of32 b))

/-- The element formats of Table NF-1. -/
inductive Fmt where
  | fp32 | bf16 | e4m3 | e5m2 | e4m3s | e5m2s | e2m3s | e3m2s | e2m1s | int8s | int4s
deriving DecidableEq, Repr

/-- The format of a code, none where it is reserved (R170). -/
def fmtOf (code : Nat) : Option Fmt :=
  [Fmt.fp32, .bf16, .e4m3, .e5m2, .e4m3s, .e5m2s, .e2m3s, .e3m2s, .e2m1s, .int8s, .int4s][code]?

/-- The code of a format (Table NF-1). -/
def fmtCode : Fmt → Nat
  | .fp32 => 0
  | .bf16 => 1
  | .e4m3 => 2
  | .e5m2 => 3
  | .e4m3s => 4
  | .e5m2s => 5
  | .e2m3s => 6
  | .e3m2s => 7
  | .e2m1s => 8
  | .int8s => 9
  | .int4s => 10

/-- Element bits (Table NF-1). -/
def fmtBits : Fmt → Nat
  | .fp32 => 32
  | .bf16 => 16
  | .e2m3s => 6
  | .e3m2s => 6
  | .e2m1s => 4
  | .int4s => 4
  | _ => 8

/-- Whether a format has a block scale. -/
def fmtScaled : Fmt → Bool
  | .fp32 => false
  | .bf16 => false
  | .e4m3 => false
  | .e5m2 => false
  | _ => true

/-- Whether a format holds integers. -/
def fmtInt : Fmt → Bool
  | .int8s => true
  | .int4s => true
  | _ => false

/-- Mantissa bits, bias, and the magnitude code of the largest finite value (Table NF-2). -/
def fmtShape : Fmt → Nat × Nat × Nat
  | .fp32 => (23, 127, 0x7F7FFFFF)
  | .bf16 => (7, 127, 0x7F7F)
  | .e4m3 => (3, 7, 0x7E)
  | .e4m3s => (3, 7, 0x7E)
  | .e5m2 => (2, 15, 0x7B)
  | .e5m2s => (2, 15, 0x7B)
  | .e2m3s => (3, 1, 0x1F)
  | .e3m2s => (2, 3, 0x1F)
  | .e2m1s => (1, 1, 0x7)
  | .int8s => (0, 0, 127)
  | .int4s => (0, 0, 7)

/-- emax of R175. -/
def fmtEmax : Fmt → Int
  | .e3m2s => 4
  | .e4m3s => 8
  | .e5m2s => 15
  | .int8s => 6
  | _ => 2

/-- The value of an element code, without its block scale (R171). -/
def ofElem (f : Fmt) (code : Nat) : Num :=
  let w := fmtBits f
  if fmtInt f then .ofInt (signedOf w code)
  else
    let s := (code / 2 ^ (w - 1)) % 2 = 1
    let c := code % 2 ^ (w - 1)
    let (mb, bias, _) := fmtShape f
    match f with
    | .fp32 => of32 code
    | .bf16 => of32 (code * 65536)
    | .e4m3 => if c = 0x7F then .nan else let (m, e) := codeMag mb bias c; .fin s m e
    | .e4m3s => if c = 0x7F then .nan else let (m, e) := codeMag mb bias c; .fin s m e
    | .e5m2 => if c / 4 = 31 then (if c % 4 = 0 then .inf s else .nan) else let (m, e) := codeMag mb bias c; .fin s m e
    | .e5m2s => if c / 4 = 31 then (if c % 4 = 0 then .inf s else .nan) else let (m, e) := codeMag mb bias c; .fin s m e
    | _ => let (m, e) := codeMag mb bias c; .fin s m e

/-- The integer nearest to m × 2^e, ties to even. -/
def roundInt (m : Nat) (e : Int) : Nat := if 0 ≤ e then m * 2 ^ e.toNat else roundShift m (-e).toNat

/-- The magnitude code next to a finite magnitude under stochastic rounding with the 16-bit number r (R188): the upper neighbour when the fraction of the way to it, in 2^-16 units, exceeds r. -/
def stochCode (mb bias : Nat) (m : Nat) (e : Int) (r : Nat) : Nat :=
  if m = 0 then 0
  else
    let least : Int := 1 - (bias : Int) - mb
    let qe := max ((Nat.log2 m : Int) + e - mb) least
    let k := qe - e
    if k ≤ 0 then (qe - least).toNat * 2 ^ mb + m * 2 ^ (-k).toNat
    else
      let sig := m / 2 ^ k.toNat
      let frac := (m % 2 ^ k.toNat) * 65536 / 2 ^ k.toNat
      (qe - least).toNat * 2 ^ mb + (if r < frac then sig + 1 else sig)

/-- A magnitude code in a format: rounded to nearest even, or stochastically where a number is given and the format takes it, and held at the largest finite value (R175, R188). -/
def finCode (f : Fmt) (m : Nat) (e : Int) (r : Option Nat) : Nat :=
  let (mb, bias, top) := fmtShape f
  if fmtInt f then min (roundInt m e) top
  else
    match r with
    | none => min (magCode mb bias m e) top
    | some r => if top ≤ stochCode mb bias m e 65536 then top else min (stochCode mb bias m e r) top

/-- A value converted to an element code of a format without regard to its block scale (Table NF-4, R175, R177, R188). -/
def toElem (f : Fmt) (r : Option Nat) (x : Num) : Nat :=
  let w := fmtBits f
  let sgn (s : Bool) (c : Nat) := bit s * 2 ^ (w - 1) + c
  match f, x with
  | .fp32, x => to32 x
  | .bf16, .nan => 0x7FC0
  | .bf16, .inf s => sgn s 0x7F80
  | .bf16, .fin s m e => sgn s (min (magCode 7 127 m e) 0x7F80)
  | .e5m2, .nan => 0x7E
  | .e5m2, .inf s => sgn s 0x7C
  | .e4m3, .nan => 0x7F
  | .e4m3, .inf s => sgn s 0x7E
  | f, .fin s m e =>
    let c := finCode f m e r
    if fmtInt f then (if s then (2 ^ w - c) % 2 ^ w else c) else sgn s c
  | _, _ => 0

/-- Element i of a packed run of w-bit elements (R173). -/
def unpackAt (w : Nat) (bs : List Byte) (i : Nat) : Nat :=
  bitsAt (leAt bs (i * w / 8) (w / 8 + 2)) (i * w % 8) w

/-- w-bit elements packed without gaps (R173). -/
def packRun (w : Nat) (es : List Nat) : List Byte :=
  leBytes ((es.length * w + 7) / 8) (es.foldr (fun e n => e % 2 ^ w + 2 ^ w * n) 0)

/-- The value of an E8M0 scale (R172); none for NaN. -/
def scaleExp (e : Nat) : Option Int := if e = 0xFF then none else some ((e : Int) - 127)

/-- An element under a scale byte (R172). -/
def scaled (sb : Nat) (x : Num) : Num :=
  match scaleExp sb with
  | none => .nan
  | some k => x.scale k

/-- The stored bytes of a row of k elements: packed elements, then one scale per 32 and zeros to a multiple of 32 bytes where the format is block-scaled (R174). -/
def rowBytes (f : Fmt) (k : Nat) : Nat :=
  if fmtScaled f then (k * fmtBits f / 8 + k / 32 + 31) / 32 * 32 else k * fmtBits f / 8

/-- The exact values of a stored row of k elements (R172 to R174, R176). -/
def ofRow (f : Fmt) (k : Nat) (bs : List Byte) : List Num :=
  (List.range k).map fun i =>
    let x := ofElem f (unpackAt (fmtBits f) bs i)
    if fmtScaled f then scaled (bs.getD (k * fmtBits f / 8 + i / 32) 0).toNat x else x

/-- The scale byte that R175 chooses for a block. -/
def blockScale (f : Fmt) (xs : List Num) : Nat :=
  if xs.any fun x => !x.isFin then 0xFF
  else if xs.all Num.isZero then 0x7F
  else
    let lg := xs.foldl (fun (a : Int) x => match x with
      | .fin _ m e => if m = 0 then a else max a ((Nat.log2 m : Int) + e)
      | _ => a) (-100000)
    (min (max (lg - fmtEmax f + 127) 0) 254).toNat

/-- A block of 32 values converted: scale byte and element codes (R175). The random numbers are those of stochastic rounding, one per element (R188). -/
def toBlock (f : Fmt) (rs : List Nat) (stoch : Bool) (xs : List Num) : Nat × List Nat :=
  let sb := blockScale f xs
  if sb = 0xFF then (sb, xs.map fun _ => 0)
  else if xs.all Num.isZero then (sb, xs.map fun _ => 0)
  else
    let ok := stoch && (f == .e2m1s || f == .e4m3s || f == .e5m2s)
    (sb, xs.zipIdx.map fun p => toElem f (if ok then some (rs.getD p.2 0 % 65536) else none) (p.1.scale (127 - (sb : Int))))

/-- A row of values stored in a format (R173 to R176, R188). -/
def toRow (f : Fmt) (rs : List Nat) (stoch : Bool) (xs : List Num) : List Byte :=
  if fmtScaled f then
    let blocks := (List.range ((xs.length + 31) / 32)).map fun b =>
      toBlock f (rs.drop (32 * b)) stoch ((xs.drop (32 * b)).take 32)
    padTo (rowBytes f xs.length)
      (packRun (fmtBits f) (blocks.flatMap (·.2)) ++ blocks.map fun b => BitVec.ofNat 8 b.1)
  else
    let ok := stoch && (f == .e4m3 || f == .e5m2)
    packRun (fmtBits f) (xs.zipIdx.map fun p => toElem f (if ok then some (rs.getD p.2 0 % 65536) else none) p.1)

/-- The density classes of R179: values stored per Bead, 64 for a dense plane. -/
def beadCount (cls : Nat) : Nat :=
  match cls with
  | 1 => 16
  | 2 => 32
  | 3 => 48
  | _ => 64

/-- Bytes of a group of 32 Beads (Table NF-6). -/
def groupBytes (cls : Nat) (f : Fmt) : Nat :=
  let v := 32 * beadCount cls * fmtBits f / 8
  if cls = 0 then (if f = .bf16 then v else v + 32) else v + 288

/-- The set bits of a mask. -/
def popCount (m : Nat) : Nat := ((List.range 64).filter fun p => m.testBit p).length

/-- One Bead or 64 dense positions of a group: scale byte, the element at each position (none where the mask is 0), and whether the mask holds the right count (R178 to R183). -/
structure BeadVals where
  scale : Nat
  elems : List (Option Num)
  good : Bool
deriving DecidableEq, Repr

/-- A Bead, or 64 dense positions or fewer, from its packed values, its mask and its scale byte; a mask whose count is wrong makes every position NaN (R178, R183). -/
def beadParts (cls : Nat) (f : Fmt) (positions : Nat) (run : List Byte) (mask scale : Nat) : BeadVals :=
  let w := fmtBits f
  if cls = 0 then
    ⟨if f = .bf16 then 127 else scale, (List.range positions).map fun p => some (ofElem f (unpackAt w run p)), true⟩
  else
    let good := popCount mask == beadCount cls
    ⟨if good then scale else 0xFF,
      (List.range 64).map fun p =>
        if good then
          (if mask.testBit p then some (ofElem f (unpackAt w run (popCount (mask % 2 ^ p)))) else none)
        else some .nan, good⟩

/-- Bead j of a group (Table NF-5, R183). -/
def beadOf (cls : Nat) (f : Fmt) (bs : List Byte) (j : Nat) : BeadVals :=
  let n := beadCount cls
  let w := fmtBits f
  let v := 32 * n * w / 8
  let run := slice bs (j * n * w / 8) (n * w / 8)
  if cls = 0 then beadParts cls f 64 run 0 (bs.getD (v + j) 0).toNat
  else beadParts cls f 64 run (leAt bs (v + 8 * j) 8) (bs.getD (v + 256 + j) 0).toNat

/-- The exact sum of a list of values. -/
def sumNum (xs : List Num) : Num := xs.foldl Num.add .zero

/-- Whether an activation block is skipped under skip code t (R184). -/
def skipBlock (t sb : Nat) (xs : List Num) : Bool :=
  if sb = 0xFF || xs.any (fun x => !x.isFin) then false
  else if t = 0 then xs.all Num.isZero
  else xs.all fun x => ((scaled sb x).abs).lt (.fin false 1 ((t : Int) - 127))

/-- One block of 32 positions added to an FP32 accumulator: the exact sum of element products, times both scales, added with one rounding (R186). -/
def blockMac (acc : Nat) (wScale : Nat) (ws : List (Option Num)) (aScale : Nat) (as : List Num) : Nat :=
  let prod := sumNum ((ws.zip as).map fun p =>
    match p.1 with
    | none => .zero
    | some w => w.mul p.2)
  let bad := wScale = 0xFF || aScale = 0xFF || (as.any fun a => !a.isFin) ||
    ws.any fun w => match w with
      | some x => !x.isFin
      | none => false
  if bad then 0x7FC00000
  else if ws.all Option.isNone then acc
  else to32 ((of32 acc).add (scaled aScale (scaled wScale prod)))

/-- The scale byte and elements of activation block b of a row. -/
def actBlock (f : Fmt) (k : Nat) (bs : List Byte) (b : Nat) : Nat × List Num :=
  (if fmtScaled f then (bs.getD (k * fmtBits f / 8 + b) 0).toNat else 127,
    (List.range 32).map fun i => ofElem f (unpackAt (fmtBits f) bs (32 * b + i)))

/-- Group g of a weight row. -/
def rowGroup (cls : Nat) (f : Fmt) (row : List Byte) (g : Nat) : List Byte := slice row (g * groupBytes cls f) (groupBytes cls f)

/-- The dot product of a weight row and an activation row of k positions, accumulated block by block in ascending order from an accumulator (R184, R186). The activation blocks are those named. -/
def dotBlocks (cls : Nat) (wf af : Fmt) (t k acc : Nat) (wrow arow : List Byte) (blocks : List Nat) : Nat :=
  blocks.foldl (fun acc b =>
    let bead := beadOf cls wf (rowGroup cls wf wrow (b / 64)) (b / 2 % 32)
    let ws := (bead.elems.drop (32 * (b % 2))).take 32
    let (sb, as) := actBlock af k arow b
    if af = .bf16 then
      (List.range 4).foldl (fun acc r => blockMac acc 127 ((ws.drop (8 * r)).take 8) 127 ((as.drop (8 * r)).take 8)) acc
    else if skipBlock t sb as then acc
    else blockMac acc bead.scale ws sb as) acc

/-- The Beads of a weight row of k positions whose mask count is wrong (R183). -/
def badBeads (cls : Nat) (wf : Fmt) (k : Nat) (wrow : List Byte) : List Nat :=
  (List.range (k / 64)).filter fun b => !(beadOf cls wf (rowGroup cls wf wrow (b / 32)) (b % 32)).good

/-- Whether MATMUL accepts a pairing of weight and activation formats (Table NF-7, R179, R190). -/
def pairingOk (cls : Nat) (wf af : Fmt) : Bool :=
  match wf, af with
  | .e2m1s, .e2m1s => true
  | .e2m1s, .e2m3s => true
  | .e2m1s, .e3m2s => true
  | .e2m1s, .e4m3s => true
  | .e2m1s, .e5m2s => true
  | .bf16, .bf16 => cls == 0
  | .int4s, .int4s => true
  | .int4s, .int8s => true
  | .int8s, .int8s => true
  | .int8s, .int4s => true
  | w, a =>
    (w == .e2m3s || w == .e3m2s || w == .e4m3s || w == .e5m2s) &&
    (a == .e2m1s || a == .e2m3s || a == .e3m2s || a == .e4m3s || a == .e5m2s)

end Sys2Proof.Machine
end

