-- ==== Sys2Proof/Config.lean ====
section
/-! DEFINITION. What an implementation fixes and what the spec leaves open: constants without a value, so that no proof can see what they are. -/

namespace Sys2Proof.Config

open Sys2Proof

/-- Fuse contents that the spec gives no value for (Table SE-3): the secret of the device, and what keys it stands for. -/
opaque deviceId : BitVec 128

/-- AES-256-XTS on one 64-byte data unit, under key1, key2 and the tweak (R446): a permutation for every key and tweak, and nothing more is assumed of it. -/
opaque xts (key1 key2 tweak : Nat) : Equiv.Perm (BitVec 512)

/-- SHA-384 of a byte string (R441, R454). -/
opaque sha384 (bytes : List Byte) : BitVec 384

/-- Whether both signatures of a firmware image verify under the keys in the fuses (R454). -/
opaque firmwareSigned (image : List Byte) : Bool

/-- The set of a line in a Setting line cache of a number of sets (R319 gives no index function). -/
opaque lcSet (setting sets line : Nat) : Nat

/-- The directory set of a line in the slice of a quadrant (R321: a hash that is not given). -/
opaque dirSet (quadrant line : Nat) : Nat

/-- The bitmap-cache set of a line: client, segment, generation and line index (R112: not specified). -/
opaque bmcSet (client segment generation line : Nat) : Nat

/-- The mover, Setting × 4 + mover, that takes the n-th descriptor issued (R148 does not say which). -/
opaque moverOf (n : Nat) : Fin 128

/-- By how many ulp, after reduction to the bound of Table NF-8, the vector unit's result of a function lies from the exactly rounded one (R191). -/
opaque ulp (fn : Nat) (args : List Nat) : Nat

/-- Which partial sums meet next when a list of n values is summed in no fixed order (R189, R202). -/
opaque sumPick (n : Nat) : Nat

/-- Whether a multiplication followed by an addition is one fused operation: the spec gives the formula and not the operations (R230, R232, R293). -/
opaque fuses (op : Nat) : Bool

/-- Whether a server's expert-table entry matches the sender's in the fields that a spill request does not carry (R269). -/
opaque spillMatches (node entry : Nat) : Bool

/-- The content of a dump section whose layout is not given: its type and instance, and the draw (R476). -/
opaque dumpSection (type instance_ draw : Nat) : List Byte

/-- The 97 bytes of the ephemeral ECDH P-384 public key of a draw of the random generator (R441). -/
opaque ecdhPub (draw : Nat) : List Byte

/-- The 96 bytes of the device's ECDSA P-384 signature over a digest (Table SE-4). -/
opaque ecdsaSig (digest : BitVec 384) : List Byte

/-- The 3,172 bytes of the device's HSS signature over a digest, under the top-tree leaf of a session, as the n-th quote of the session counted down (R439, R440, Table SE-4). -/
opaque hssSig (session left : Nat) (digest : BitVec 384) : List Byte

/-- Whether 97 bytes are a valid point of P-384 (Table SE-6). -/
opaque validPoint (key : List Byte) : Bool

/-- The bind record unwrapped with the key that the ephemeral key of a draw, the tenant's public key and the hash of the quote give; none where the integrity check of the unwrap fails (R443). -/
opaque unwrapRecord (draw hash : Nat) (tenantKey wrapped : List Byte) : Option (List Byte)

/-- The n-th free value: a value that the spec leaves open where it is produced. -/
opaque free (n : Nat) : Nat

end Sys2Proof.Config
end

