-- ==== Sys2Proof/Machine/RegTable.lean ====
section
/-! DEFINITION. The register map: every register of Tables RM-5 to RM-7 with its offset, and every field with its bits, access code and reset value, as the field maps of the chapters give them (R492, R494, R498). -/

namespace Sys2Proof.Machine

open Sys2Proof

/-- The access codes of Table SC-3. -/
inductive Access where
  | ro | rw | rws | rwl | wo | w1c
deriving DecidableEq, Repr

/-- The part of the register space a register stands in (Table RM-1). -/
inductive Window where
  | glob | quad | link
deriving DecidableEq, Repr

/-- A field of a register: its bits, access code, reset value, and the range that a write of it is held to. -/
structure RegField where
  name : String
  lo : Nat
  width : Nat
  acc : Access
  reset : Nat
  least : Nat
  most : Nat
deriving DecidableEq, Repr

/-- A row of the register map: one register and its instances, with the stride and count of each index. -/
structure RegRow where
  name : String
  win : Window
  base : Nat
  dims : List (Nat × Nat)
  q0 : Bool
  fields : List RegField
deriving DecidableEq, Repr

/-- The field of a row. -/
def RegField.fld (f : RegField) : Field := ⟨f.lo, f.width⟩

/-- The offset of quadrant q's window (Table RM-1). -/
def quadBase (q : Nat) : Nat := 0x01000000 + q * 0x00800000

/-- The offset of link n's window (Table RM-1). -/
def linkBase (n : Nat) : Nat := 0x03000000 + n * 0x00010000

/-- Offset of GLB_ID. -/
def Reg.GLB_ID : Nat := 0x0

/-- Offset of GLB_DEVICE_ID0. -/
def Reg.GLB_DEVICE_ID0 : Nat := 0x8

/-- Offset of GLB_DEVICE_ID1. -/
def Reg.GLB_DEVICE_ID1 : Nat := 0x10

/-- Offset of GLB_STATUS. -/
def Reg.GLB_STATUS : Nat := 0x18

/-- Offset of GLB_COMMIT. -/
def Reg.GLB_COMMIT : Nat := 0x20

/-- Offset of GLB_CFG_VIOL. -/
def Reg.GLB_CFG_VIOL : Nat := 0x28

/-- Offset of GLB_NT. -/
def Reg.GLB_NT : Nat := 0x30

/-- Offset of GLB_MGMT_LIVE. -/
def Reg.GLB_MGMT_LIVE : Nat := 0x38

/-- Offset of CFG_BOOT_STATUS. -/
def Reg.CFG_BOOT_STATUS : Nat := 0x10000

/-- Offset of CFG_IMAGE_STATUS. -/
def Reg.CFG_IMAGE_STATUS : Nat := 0x10008

/-- Offset of CFG_RESET. -/
def Reg.CFG_RESET : Nat := 0x10010

/-- Offset of CFG_COMMIT_AT. -/
def Reg.CFG_COMMIT_AT : Nat := 0x10018

/-- Offset of CFG_COMMIT_CTL. -/
def Reg.CFG_COMMIT_CTL : Nat := 0x10020

/-- Offset of CFG_COMMIT_RESULT. -/
def Reg.CFG_COMMIT_RESULT : Nat := 0x10028

/-- Offset of CFG_COMMIT_FAULT. -/
def Reg.CFG_COMMIT_FAULT : Nat := 0x10030

/-- Offset of CFG_COMMIT_APPLIED_NT. -/
def Reg.CFG_COMMIT_APPLIED_NT : Nat := 0x10038

/-- Offset of CFG_STAGE_STATUS. -/
def Reg.CFG_STAGE_STATUS : Nat := 0x10040

/-- Offset of CLK_STATUS. -/
def Reg.CLK_STATUS : Nat := 0x20000

/-- Offset of PWR_DROOP_CFG. -/
def Reg.PWR_DROOP_CFG (q : Nat) : Nat := 0x30000 + q * 8

/-- Offset of PWR_STRETCH_CNT. -/
def Reg.PWR_STRETCH_CNT (q : Nat) : Nat := 0x30020 + q * 8

/-- Offset of PWR_THERM_CFG. -/
def Reg.PWR_THERM_CFG : Nat := 0x30040

/-- Offset of PWR_SENSE. -/
def Reg.PWR_SENSE (q : Nat) : Nat := 0x30100 + q * 8

/-- Offset of PWR_SENSE_STATUS. -/
def Reg.PWR_SENSE_STATUS : Nat := 0x30140

/-- Offset of PWR_CAL_STATUS. -/
def Reg.PWR_CAL_STATUS : Nat := 0x30148

/-- Offset of SEC_CTL. -/
def Reg.SEC_CTL : Nat := 0x40000

/-- Offset of SEC_STATUS. -/
def Reg.SEC_STATUS : Nat := 0x40008

/-- Offset of SEC_KEY_ID. -/
def Reg.SEC_KEY_ID : Nat := 0x40010

/-- Offset of SEC_QUOTE_DST. -/
def Reg.SEC_QUOTE_DST : Nat := 0x40018

/-- Offset of SEC_CFG. -/
def Reg.SEC_CFG : Nat := 0x40020

/-- Offset of SEC_MBOX. -/
def Reg.SEC_MBOX (w : Nat) : Nat := 0x40100 + w * 8

/-- Offset of SEC_TENANT. -/
def Reg.SEC_TENANT (e : Nat) : Nat := 0x40300 + e * 8

/-- Offset of SEC_SEAL_MAP. -/
def Reg.SEC_SEAL_MAP (w : Nat) : Nat := 0x41000 + w * 8

/-- Offset of LPE_CTL. -/
def Reg.LPE_CTL : Nat := 0x50000

/-- Offset of LPE_TRC_CTL. -/
def Reg.LPE_TRC_CTL : Nat := 0x50008

/-- Offset of LPE_TRC_CFG. -/
def Reg.LPE_TRC_CFG : Nat := 0x50010

/-- Offset of LPE_TRC_POST. -/
def Reg.LPE_TRC_POST : Nat := 0x50018

/-- Offset of LPE_TRC_SEG. -/
def Reg.LPE_TRC_SEG : Nat := 0x50020

/-- Offset of LPE_TRC_LEN. -/
def Reg.LPE_TRC_LEN : Nat := 0x50028

/-- Offset of LPE_TRC_EN. -/
def Reg.LPE_TRC_EN : Nat := 0x50030

/-- Offset of LPE_TRC_STATUS. -/
def Reg.LPE_TRC_STATUS : Nat := 0x50038

/-- Offset of LPE_TRC_PTR. -/
def Reg.LPE_TRC_PTR : Nat := 0x50040

/-- Offset of LPE_TRC_TRIG. -/
def Reg.LPE_TRC_TRIG : Nat := 0x50048

/-- Offset of LPE_TRC_CNT. -/
def Reg.LPE_TRC_CNT : Nat := 0x50050

/-- Offset of LPE_TRC_CNT2. -/
def Reg.LPE_TRC_CNT2 : Nat := 0x50058

/-- Offset of LPE_MARK. -/
def Reg.LPE_MARK : Nat := 0x50060

/-- Offset of LPE_STOP. -/
def Reg.LPE_STOP : Nat := 0x50068

/-- Offset of LPE_STOP_NT. -/
def Reg.LPE_STOP_NT : Nat := 0x50070

/-- Offset of LPE_SNAP_CTL. -/
def Reg.LPE_SNAP_CTL : Nat := 0x50078

/-- Offset of LPE_SNAP_NT. -/
def Reg.LPE_SNAP_NT : Nat := 0x50080

/-- Offset of LPE_DUMP. -/
def Reg.LPE_DUMP : Nat := 0x50088

/-- Offset of LPE_DUMP_LEN. -/
def Reg.LPE_DUMP_LEN : Nat := 0x50090

/-- Offset of LPE_DUMP_CTL. -/
def Reg.LPE_DUMP_CTL : Nat := 0x50098

/-- Offset of LPE_WDOG. -/
def Reg.LPE_WDOG (q : Nat) : Nat := 0x500a0 + q * 8

/-- Offset of LPE_FIX. -/
def Reg.LPE_FIX (q : Nat) (w : Nat) : Nat := 0x50100 + q * 0x20 + w * 8

/-- Offset of LPE_FILT0. -/
def Reg.LPE_FILT0 (q : Nat) (f : Nat) : Nat := 0x50200 + q * 0x100 + f * 0x10

/-- Offset of LPE_FILT1. -/
def Reg.LPE_FILT1 (q : Nat) (f : Nat) : Nat := 0x50208 + q * 0x100 + f * 0x10

/-- Offset of LPE_CMP0. -/
def Reg.LPE_CMP0 (q : Nat) (k : Nat) : Nat := 0x50600 + q * 0x80 + k * 0x10

/-- Offset of LPE_CMP1. -/
def Reg.LPE_CMP1 (q : Nat) (k : Nat) : Nat := 0x50608 + q * 0x80 + k * 0x10

/-- Offset of LPE_SEL. -/
def Reg.LPE_SEL (q : Nat) (n : Nat) : Nat := 0x54000 + q * 0x1000 + n * 8

/-- Offset of LPE_CTR. -/
def Reg.LPE_CTR (q : Nat) (n : Nat) : Nat := 0x58000 + q * 0x1000 + n * 8

/-- Offset of LPE_SNAP. -/
def Reg.LPE_SNAP (q : Nat) (n : Nat) : Nat := 0x5c000 + q * 0x1000 + n * 8

/-- Offset of EVT_CTL. -/
def Reg.EVT_CTL : Nat := 0x60000

/-- Offset of EVT_RING_BASE. -/
def Reg.EVT_RING_BASE : Nat := 0x60008

/-- Offset of EVT_RING_PTR. -/
def Reg.EVT_RING_PTR : Nat := 0x60010

/-- Offset of EVT_PENDING. -/
def Reg.EVT_PENDING : Nat := 0x60018

/-- Offset of EVT_MASK. -/
def Reg.EVT_MASK : Nat := 0x60020

/-- Offset of EVT_CNT. -/
def Reg.EVT_CNT : Nat := 0x60028

/-- Offset of EVT_NOTIFY. -/
def Reg.EVT_NOTIFY : Nat := 0x60030

/-- Offset of EVT_FATAL. -/
def Reg.EVT_FATAL : Nat := 0x60038

/-- Offset of EVT_FATAL_NT. -/
def Reg.EVT_FATAL_NT : Nat := 0x60040

/-- Offset of PAI_CTL. -/
def Reg.PAI_CTL : Nat := 0x70000

/-- Offset of PAI_CFG. -/
def Reg.PAI_CFG : Nat := 0x70008

/-- Offset of PAI_JOURNAL. -/
def Reg.PAI_JOURNAL : Nat := 0x70010

/-- Offset of PAI_STATUS. -/
def Reg.PAI_STATUS : Nat := 0x70018

/-- Offset of PAI_SYNC. -/
def Reg.PAI_SYNC : Nat := 0x70020

/-- Offset of PAI_CNT. -/
def Reg.PAI_CNT : Nat := 0x70028

/-- Offset of PAI_DECLARE_NT. -/
def Reg.PAI_DECLARE_NT : Nat := 0x70030

/-- Offset of PAI_SERVICE_NT. -/
def Reg.PAI_SERVICE_NT : Nat := 0x70038

/-- Offset of PAI_CLIENT. -/
def Reg.PAI_CLIENT (w : Nat) : Nat := 0x70100 + w * 8

/-- Offset of PAI_MREGION. -/
def Reg.PAI_MREGION (r : Nat) : Nat := 0x70200 + r * 8

/-- Offset of RTE_ENTRY. -/
def Reg.RTE_ENTRY (v : Nat) (i : Nat) : Nat := 0x400000 + v * 0x40000 + i * 8

/-- Offset of RTE_CTL. -/
def Reg.RTE_CTL : Nat := 0x480000

/-- Offset of RTE_VER. -/
def Reg.RTE_VER : Nat := 0x480008

/-- Offset of RTE_TIMING. -/
def Reg.RTE_TIMING : Nat := 0x480010

/-- Offset of RTE_FLIP_NT. -/
def Reg.RTE_FLIP_NT : Nat := 0x480018

/-- Offset of RTE_ALIAS. -/
def Reg.RTE_ALIAS : Nat := 0x480020

/-- Offset of RTE_CNT0. -/
def Reg.RTE_CNT0 : Nat := 0x480028

/-- Offset of RTE_CNT1. -/
def Reg.RTE_CNT1 : Nat := 0x480030

/-- Offset of RTE_TAG_STATUS. -/
def Reg.RTE_TAG_STATUS (q : Nat) : Nat := 0x480040 + q * 8

/-- Offset of QUE_CTL. -/
def Reg.QUE_CTL (qd : Nat) : Nat := quadBase qd + 0x0

/-- Offset of QUE_DB_CNT. -/
def Reg.QUE_DB_CNT (qd : Nat) : Nat := quadBase qd + 0x8

/-- Offset of QUE_RETIRE. -/
def Reg.QUE_RETIRE (qd : Nat) : Nat := quadBase qd + 0x10

/-- Offset of QUE_CLIENT. -/
def Reg.QUE_CLIENT (qd : Nat) (i : Nat) : Nat := quadBase qd + 0x1000 + i * 8

/-- Offset of QUE_POL_RATE. -/
def Reg.QUE_POL_RATE (qd : Nat) (i : Nat) : Nat := quadBase qd + 0x2000 + i * 0x20

/-- Offset of QUE_POL_BURST. -/
def Reg.QUE_POL_BURST (qd : Nat) (i : Nat) : Nat := quadBase qd + 0x2008 + i * 0x20

/-- Offset of QUE_POL_CNT. -/
def Reg.QUE_POL_CNT (qd : Nat) (i : Nat) : Nat := quadBase qd + 0x2010 + i * 0x20

/-- Offset of QUE_QP_SQ_BASE. -/
def Reg.QUE_QP_SQ_BASE (qd : Nat) (j : Nat) : Nat := quadBase qd + 0x10000 + j * 0x40

/-- Offset of QUE_QP_CQ_BASE. -/
def Reg.QUE_QP_CQ_BASE (qd : Nat) (j : Nat) : Nat := quadBase qd + 0x10008 + j * 0x40

/-- Offset of QUE_QP_CFG. -/
def Reg.QUE_QP_CFG (qd : Nat) (j : Nat) : Nat := quadBase qd + 0x10010 + j * 0x40

/-- Offset of QUE_QP_EV. -/
def Reg.QUE_QP_EV (qd : Nat) (j : Nat) : Nat := quadBase qd + 0x10018 + j * 0x40

/-- Offset of QUE_QP_SQ_PTR. -/
def Reg.QUE_QP_SQ_PTR (qd : Nat) (j : Nat) : Nat := quadBase qd + 0x10020 + j * 0x40

/-- Offset of QUE_QP_CQ_PTR. -/
def Reg.QUE_QP_CQ_PTR (qd : Nat) (j : Nat) : Nat := quadBase qd + 0x10028 + j * 0x40

/-- Offset of QUE_QP_CTL. -/
def Reg.QUE_QP_CTL (qd : Nat) (j : Nat) : Nat := quadBase qd + 0x10030 + j * 0x40

/-- Offset of SEG_CTL. -/
def Reg.SEG_CTL (qd : Nat) : Nat := quadBase qd + 0x20000

/-- Offset of SEG_FAULT_CNT. -/
def Reg.SEG_FAULT_CNT (qd : Nat) : Nat := quadBase qd + 0x20008

/-- Offset of SEG_BMC_CNT. -/
def Reg.SEG_BMC_CNT (qd : Nat) : Nat := quadBase qd + 0x20010

/-- Offset of SEG_BMC_INV. -/
def Reg.SEG_BMC_INV (qd : Nat) : Nat := quadBase qd + 0x20018

/-- Offset of SEG_FAULT_RESOLVE. -/
def Reg.SEG_FAULT_RESOLVE (qd : Nat) : Nat := quadBase qd + 0x20020

/-- Offset of SEG_FAULT_OPEN. -/
def Reg.SEG_FAULT_OPEN (qd : Nat) : Nat := quadBase qd + 0x20028

/-- Offset of SEG_FAULT_REC0. -/
def Reg.SEG_FAULT_REC0 (qd : Nat) (r : Nat) : Nat := quadBase qd + 0x21000 + r * 0x20

/-- Offset of SEG_FAULT_REC1. -/
def Reg.SEG_FAULT_REC1 (qd : Nat) (r : Nat) : Nat := quadBase qd + 0x21008 + r * 0x20

/-- Offset of SEG_FAULT_REC2. -/
def Reg.SEG_FAULT_REC2 (qd : Nat) (r : Nat) : Nat := quadBase qd + 0x21010 + r * 0x20

/-- Offset of SEG_FAULT_REC3. -/
def Reg.SEG_FAULT_REC3 (qd : Nat) (r : Nat) : Nat := quadBase qd + 0x21018 + r * 0x20

/-- Offset of SEG_STALL. -/
def Reg.SEG_STALL (qd : Nat) (n : Nat) : Nat := quadBase qd + 0x22000 + n * 8

/-- Offset of SEG_ENTRY. -/
def Reg.SEG_ENTRY (qd : Nat) (i : Nat) (s : Nat) (b : Nat) : Nat := quadBase qd + 0x30000 + i * 0x200 + s * 0x40 + b * 8

/-- Offset of STK_CTL. -/
def Reg.STK_CTL (qd : Nat) : Nat := quadBase qd + 0x40000

/-- Offset of STK_SLAB_VIOL. -/
def Reg.STK_SLAB_VIOL (qd : Nat) : Nat := quadBase qd + 0x40008

/-- Offset of STK_PORT_STATUS. -/
def Reg.STK_PORT_STATUS (qd : Nat) (p : Nat) : Nat := quadBase qd + 0x40100 + p * 8

/-- Offset of STK_PORT_CTL. -/
def Reg.STK_PORT_CTL (qd : Nat) (p : Nat) : Nat := quadBase qd + 0x40140 + p * 8

/-- Offset of STK_ECC_CNT. -/
def Reg.STK_ECC_CNT (qd : Nat) (p : Nat) : Nat := quadBase qd + 0x40180 + p * 8

/-- Offset of STK_SLAB. -/
def Reg.STK_SLAB (qd : Nat) (i : Nat) : Nat := quadBase qd + 0x48000 + i * 8

/-- Offset of CLS_STATUS. -/
def Reg.CLS_STATUS (qd : Nat) : Nat := quadBase qd + 0x80000

/-- Offset of CLS_CTL. -/
def Reg.CLS_CTL (qd : Nat) : Nat := quadBase qd + 0x80008

/-- Offset of CLS_REBUILD. -/
def Reg.CLS_REBUILD (qd : Nat) : Nat := quadBase qd + 0x80010

/-- Offset of CLS_CFG. -/
def Reg.CLS_CFG (qd : Nat) : Nat := quadBase qd + 0x80018

/-- Offset of CLS_CNT. -/
def Reg.CLS_CNT (qd : Nat) : Nat := quadBase qd + 0x80020

/-- Offset of CLS_SCRUB. -/
def Reg.CLS_SCRUB (qd : Nat) : Nat := quadBase qd + 0x80028

/-- Offset of CLS_LOG_STATUS. -/
def Reg.CLS_LOG_STATUS (qd : Nat) : Nat := quadBase qd + 0x80030

/-- Offset of CLS_ROW_REPAIR. -/
def Reg.CLS_ROW_REPAIR (qd : Nat) : Nat := quadBase qd + 0x80038

/-- Offset of CLS_ROW_LOG. -/
def Reg.CLS_ROW_LOG (qd : Nat) (e : Nat) : Nat := quadBase qd + 0x81000 + e * 8

/-- Offset of BNK_CTL. -/
def Reg.BNK_CTL (qd : Nat) : Nat := quadBase qd + 0x90000

/-- Offset of BNK_CNT. -/
def Reg.BNK_CNT (qd : Nat) (s : Nat) : Nat := quadBase qd + 0x90100 + s * 8

/-- Offset of BNK_FAULT. -/
def Reg.BNK_FAULT (qd : Nat) (s : Nat) : Nat := quadBase qd + 0x90140 + s * 8

/-- Offset of BNK_BANK. -/
def Reg.BNK_BANK (qd : Nat) (s : Nat) (b : Nat) : Nat := quadBase qd + 0x91000 + s * 0x200 + b * 8

/-- Offset of FAC_CTL. -/
def Reg.FAC_CTL (qd : Nat) : Nat := quadBase qd + 0xa0000

/-- Offset of FAC_STATUS. -/
def Reg.FAC_STATUS (qd : Nat) (s : Nat) : Nat := quadBase qd + 0xa0008 + s * 8

/-- Offset of FAC_DEC_CNT. -/
def Reg.FAC_DEC_CNT (qd : Nat) (s : Nat) : Nat := quadBase qd + 0xa0100 + s * 8

/-- Offset of FAC_DEC_STALL. -/
def Reg.FAC_DEC_STALL (qd : Nat) (s : Nat) : Nat := quadBase qd + 0xa0140 + s * 8

/-- Offset of FAC_ARRAY_CNT. -/
def Reg.FAC_ARRAY_CNT (qd : Nat) (g : Nat) : Nat := quadBase qd + 0xa1000 + g * 8

/-- Offset of FAC_FILL_CNT. -/
def Reg.FAC_FILL_CNT (qd : Nat) (g : Nat) : Nat := quadBase qd + 0xa1200 + g * 8

/-- Offset of FAC_SKIP_CNT. -/
def Reg.FAC_SKIP_CNT (qd : Nat) (g : Nat) : Nat := quadBase qd + 0xa1400 + g * 8

/-- Offset of RCP_CTL. -/
def Reg.RCP_CTL (qd : Nat) : Nat := quadBase qd + 0xb0000

/-- Offset of RCP_STORE. -/
def Reg.RCP_STORE (qd : Nat) : Nat := quadBase qd + 0xb0008

/-- Offset of RCP_LOAD_SRC. -/
def Reg.RCP_LOAD_SRC (qd : Nat) : Nat := quadBase qd + 0xb0010

/-- Offset of RCP_LOAD_CTL. -/
def Reg.RCP_LOAD_CTL (qd : Nat) : Nat := quadBase qd + 0xb0018

/-- Offset of RCP_LOAD_STATUS. -/
def Reg.RCP_LOAD_STATUS (qd : Nat) : Nat := quadBase qd + 0xb0020

/-- Offset of RCP_VALID. -/
def Reg.RCP_VALID (qd : Nat) (w : Nat) : Nat := quadBase qd + 0xb0100 + w * 8

/-- Offset of RCP_RUN. -/
def Reg.RCP_RUN (qd : Nat) : Nat := quadBase qd + 0xb0200

/-- Offset of RCP_CNT. -/
def Reg.RCP_CNT (qd : Nat) : Nat := quadBase qd + 0xb0208

/-- Offset of EXD_CTL. -/
def Reg.EXD_CTL (qd : Nat) : Nat := quadBase qd + 0xc0000

/-- Offset of EXD_TABLE. -/
def Reg.EXD_TABLE (qd : Nat) : Nat := quadBase qd + 0xc0008

/-- Offset of EXD_WORK. -/
def Reg.EXD_WORK (qd : Nat) : Nat := quadBase qd + 0xc0010

/-- Offset of EXD_SPILL_CFG. -/
def Reg.EXD_SPILL_CFG (qd : Nat) : Nat := quadBase qd + 0xc0018

/-- Offset of EXD_STATUS. -/
def Reg.EXD_STATUS (qd : Nat) : Nat := quadBase qd + 0xc0020

/-- Offset of EXD_CNT. -/
def Reg.EXD_CNT (qd : Nat) : Nat := quadBase qd + 0xc0028

/-- Offset of EXD_CNT2. -/
def Reg.EXD_CNT2 (qd : Nat) : Nat := quadBase qd + 0xc0030

/-- Offset of EXD_SERVE_CNT. -/
def Reg.EXD_SERVE_CNT (qd : Nat) : Nat := quadBase qd + 0xc0038

/-- Offset of ATN_CTL. -/
def Reg.ATN_CTL (qd : Nat) : Nat := quadBase qd + 0xd0000

/-- Offset of ATN_STATUS. -/
def Reg.ATN_STATUS (qd : Nat) : Nat := quadBase qd + 0xd0008

/-- Offset of ATN_CNT. -/
def Reg.ATN_CNT (qd : Nat) : Nat := quadBase qd + 0xd0010

/-- Offset of ATN_CNT2. -/
def Reg.ATN_CNT2 (qd : Nat) : Nat := quadBase qd + 0xd0018

/-- Offset of ATN_FAULT. -/
def Reg.ATN_FAULT (qd : Nat) : Nat := quadBase qd + 0xd0020

/-- Offset of SHR_CTL. -/
def Reg.SHR_CTL (qd : Nat) : Nat := quadBase qd + 0xe0000

/-- Offset of SHR_RGN_BASE. -/
def Reg.SHR_RGN_BASE (qd : Nat) : Nat := quadBase qd + 0xe0008

/-- Offset of SHR_RGN_ID. -/
def Reg.SHR_RGN_ID (qd : Nat) : Nat := quadBase qd + 0xe0010

/-- Offset of SHR_RGN_CTL. -/
def Reg.SHR_RGN_CTL (qd : Nat) : Nat := quadBase qd + 0xe0018

/-- Offset of SHR_LEASE_CTL. -/
def Reg.SHR_LEASE_CTL (qd : Nat) : Nat := quadBase qd + 0xe0020

/-- Offset of SHR_CNT. -/
def Reg.SHR_CNT (qd : Nat) : Nat := quadBase qd + 0xe0028

/-- Offset of SHR_LEASE0. -/
def Reg.SHR_LEASE0 (qd : Nat) (e : Nat) : Nat := quadBase qd + 0xe1000 + e * 0x10

/-- Offset of SHR_LEASE1. -/
def Reg.SHR_LEASE1 (qd : Nat) (e : Nat) : Nat := quadBase qd + 0xe1008 + e * 0x10

/-- Offset of COH_CTL. -/
def Reg.COH_CTL (qd : Nat) : Nat := quadBase qd + 0xf0000

/-- Offset of COH_CNT. -/
def Reg.COH_CNT (qd : Nat) : Nat := quadBase qd + 0xf0008

/-- Offset of COH_DIR_STATUS. -/
def Reg.COH_DIR_STATUS (qd : Nat) : Nat := quadBase qd + 0xf0010

/-- Offset of COH_DIR_PROBE. -/
def Reg.COH_DIR_PROBE (qd : Nat) : Nat := quadBase qd + 0xf0018

/-- Offset of COH_DIR_RESULT. -/
def Reg.COH_DIR_RESULT (qd : Nat) : Nat := quadBase qd + 0xf0020

/-- Offset of COH_LC_STATUS. -/
def Reg.COH_LC_STATUS (qd : Nat) (s : Nat) : Nat := quadBase qd + 0xf0100 + s * 8

/-- Offset of COH_LLL_STATUS. -/
def Reg.COH_LLL_STATUS (qd : Nat) : Nat := quadBase qd + 0xf0200

/-- Offset of COH_LLL_CTL. -/
def Reg.COH_LLL_CTL (qd : Nat) : Nat := quadBase qd + 0xf0208

/-- Offset of COH_LLL0. -/
def Reg.COH_LLL0 (qd : Nat) (e : Nat) : Nat := quadBase qd + 0x100000 + e * 0x10

/-- Offset of COH_LLL1. -/
def Reg.COH_LLL1 (qd : Nat) (e : Nat) : Nat := quadBase qd + 0x100008 + e * 0x10

/-- Offset of ILC_CTL. -/
def Reg.ILC_CTL (qd : Nat) : Nat := quadBase qd + 0x110000

/-- Offset of ILC_STATUS. -/
def Reg.ILC_STATUS (qd : Nat) : Nat := quadBase qd + 0x110008

/-- Offset of ILC_AGENT. -/
def Reg.ILC_AGENT (qd : Nat) (a : Nat) : Nat := quadBase qd + 0x110100 + a * 8

/-- Offset of ILC_AGENT_CTL. -/
def Reg.ILC_AGENT_CTL (qd : Nat) : Nat := quadBase qd + 0x110200

/-- Offset of ILC_CNT. -/
def Reg.ILC_CNT (qd : Nat) : Nat := quadBase qd + 0x110208

/-- Offset of LNK_CTL. -/
def Reg.LNK_CTL (ln : Nat) : Nat := linkBase ln + 0x0

/-- Offset of LNK_CFG. -/
def Reg.LNK_CFG (ln : Nat) : Nat := linkBase ln + 0x8

/-- Offset of LNK_STATUS. -/
def Reg.LNK_STATUS (ln : Nat) : Nat := linkBase ln + 0x10

/-- Offset of LNK_CNT0. -/
def Reg.LNK_CNT0 (ln : Nat) : Nat := linkBase ln + 0x18

/-- Offset of LNK_CNT1. -/
def Reg.LNK_CNT1 (ln : Nat) : Nat := linkBase ln + 0x20

/-- Offset of LNK_CNT2. -/
def Reg.LNK_CNT2 (ln : Nat) : Nat := linkBase ln + 0x28

/-- Offset of LNK_CNT3. -/
def Reg.LNK_CNT3 (ln : Nat) : Nat := linkBase ln + 0x30

/-- Offset of LNK_VC. -/
def Reg.LNK_VC (ln : Nat) (v : Nat) : Nat := linkBase ln + 0x40 + v * 8

/-- Offset of LNK_LANE. -/
def Reg.LNK_LANE (ln : Nat) (m : Nat) : Nat := linkBase ln + 0x80 + m * 8

/-- Offset of LNK_TIME_CFG. -/
def Reg.LNK_TIME_CFG (ln : Nat) : Nat := linkBase ln + 0xa0

/-- Offset of LNK_TIME_DELAY. -/
def Reg.LNK_TIME_DELAY (ln : Nat) : Nat := linkBase ln + 0xa8

/-- Offset of LNK_TIME_OFS. -/
def Reg.LNK_TIME_OFS (ln : Nat) : Nat := linkBase ln + 0xb0

/-- Offset of TSC_CTL. -/
def Reg.TSC_CTL (ln : Nat) : Nat := linkBase ln + 0x800

/-- Offset of TSC_CYCLE. -/
def Reg.TSC_CYCLE (ln : Nat) : Nat := linkBase ln + 0x808

/-- Offset of TSC_BASE. -/
def Reg.TSC_BASE (ln : Nat) : Nat := linkBase ln + 0x810

/-- Offset of TSC_STATUS. -/
def Reg.TSC_STATUS (ln : Nat) : Nat := linkBase ln + 0x818

/-- Offset of TSC_CNT. -/
def Reg.TSC_CNT (ln : Nat) : Nat := linkBase ln + 0x820

/-- Offset of TSC_SHAPE. -/
def Reg.TSC_SHAPE (ln : Nat) (t : Nat) : Nat := linkBase ln + 0x840 + t * 8

/-- Offset of TSC_TX. -/
def Reg.TSC_TX (ln : Nat) (t : Nat) : Nat := linkBase ln + 0x880 + t * 8

/-- Offset of TSC_GATE. -/
def Reg.TSC_GATE (ln : Nat) (i : Nat) : Nat := linkBase ln + 0x900 + i * 8

def Fld.GLB_ID_part_id : Field := ⟨0, 32⟩
def Fld.GLB_ID_map_version : Field := ⟨32, 16⟩
def Fld.GLB_DEVICE_ID0_id_lo : Field := ⟨0, 64⟩
def Fld.GLB_DEVICE_ID1_id_hi : Field := ⟨0, 64⟩
def Fld.GLB_STATUS_cfg_defaulted : Field := ⟨0, 1⟩
def Fld.GLB_STATUS_ready : Field := ⟨1, 1⟩
def Fld.GLB_STATUS_boot_failed : Field := ⟨2, 1⟩
def Fld.GLB_STATUS_stopped : Field := ⟨3, 1⟩
def Fld.GLB_STATUS_fatal : Field := ⟨4, 1⟩
def Fld.GLB_STATUS_bezel : Field := ⟨5, 2⟩
def Fld.GLB_STATUS_pair_role : Field := ⟨7, 3⟩
def Fld.GLB_STATUS_commit_pending : Field := ⟨10, 1⟩
def Fld.GLB_STATUS_viol : Field := ⟨11, 1⟩
def Fld.GLB_COMMIT_token : Field := ⟨0, 32⟩
def Fld.GLB_COMMIT_when : Field := ⟨32, 2⟩
def Fld.GLB_CFG_VIOL_offset : Field := ⟨0, 26⟩
def Fld.GLB_CFG_VIOL_kind : Field := ⟨26, 4⟩
def Fld.GLB_CFG_VIOL_path : Field := ⟨30, 3⟩
def Fld.GLB_CFG_VIOL_count : Field := ⟨40, 16⟩
def Fld.GLB_CFG_VIOL_clear : Field := ⟨63, 1⟩
def Fld.GLB_NT_nt : Field := ⟨0, 64⟩
def Fld.GLB_MGMT_LIVE_beat0 : Field := ⟨0, 1⟩
def Fld.GLB_MGMT_LIVE_beat1 : Field := ⟨1, 1⟩
def Fld.GLB_MGMT_LIVE_alive0 : Field := ⟨2, 1⟩
def Fld.GLB_MGMT_LIVE_alive1 : Field := ⟨3, 1⟩
def Fld.CFG_BOOT_STATUS_done_step : Field := ⟨0, 4⟩
def Fld.CFG_BOOT_STATUS_failed : Field := ⟨4, 1⟩
def Fld.CFG_BOOT_STATUS_reset_cause : Field := ⟨5, 3⟩
def Fld.CFG_BOOT_STATUS_fail_code : Field := ⟨8, 8⟩
def Fld.CFG_BOOT_STATUS_fw_slot : Field := ⟨16, 1⟩
def Fld.CFG_BOOT_STATUS_pool_kept : Field := ⟨17, 1⟩
def Fld.CFG_BOOT_STATUS_stk_failed : Field := ⟨32, 32⟩
def Fld.CFG_IMAGE_STATUS_result : Field := ⟨0, 8⟩
def Fld.CFG_IMAGE_STATUS_record_index : Field := ⟨8, 16⟩
def Fld.CFG_IMAGE_STATUS_image_version : Field := ⟨32, 32⟩
def Fld.CFG_RESET_warm : Field := ⟨0, 1⟩
def Fld.CFG_RESET_cold : Field := ⟨1, 1⟩
def Fld.CFG_RESET_keep_pool : Field := ⟨2, 1⟩
def Fld.CFG_COMMIT_AT_instant : Field := ⟨0, 64⟩
def Fld.CFG_COMMIT_CTL_cancel : Field := ⟨0, 1⟩
def Fld.CFG_COMMIT_CTL_discard : Field := ⟨1, 1⟩
def Fld.CFG_COMMIT_RESULT_token : Field := ⟨0, 32⟩
def Fld.CFG_COMMIT_RESULT_state : Field := ⟨32, 3⟩
def Fld.CFG_COMMIT_RESULT_code : Field := ⟨40, 8⟩
def Fld.CFG_COMMIT_RESULT_busy_refused : Field := ⟨48, 1⟩
def Fld.CFG_COMMIT_FAULT_offset : Field := ⟨0, 26⟩
def Fld.CFG_COMMIT_APPLIED_NT_nt : Field := ⟨0, 64⟩
def Fld.CFG_STAGE_STATUS_staged : Field := ⟨0, 16⟩
def Fld.CFG_STAGE_STATUS_frozen : Field := ⟨16, 1⟩
def Fld.CLK_STATUS_ref_lost : Field := ⟨0, 1⟩
def Fld.CLK_STATUS_holdover : Field := ⟨1, 1⟩
def Fld.CLK_STATUS_core_lock : Field := ⟨2, 4⟩
def Fld.CLK_STATUS_ctl_lock : Field := ⟨6, 1⟩
def Fld.CLK_STATUS_mclk_lock : Field := ⟨7, 4⟩
def Fld.CLK_STATUS_time_lock : Field := ⟨11, 1⟩
def Fld.CLK_STATUS_core_half : Field := ⟨12, 4⟩
def Fld.PWR_DROOP_CFG_enable : Field := ⟨0, 1⟩
def Fld.PWR_DROOP_CFG_threshold_mv : Field := ⟨8, 6⟩
def Fld.PWR_DROOP_CFG_alert_per_ms : Field := ⟨16, 16⟩
def Fld.PWR_STRETCH_CNT_count : Field := ⟨0, 48⟩
def Fld.PWR_THERM_CFG_die_warn : Field := ⟨0, 8⟩
def Fld.PWR_THERM_CFG_die_throttle : Field := ⟨8, 8⟩
def Fld.PWR_THERM_CFG_die_crit : Field := ⟨16, 8⟩
def Fld.PWR_THERM_CFG_stk_warn : Field := ⟨24, 8⟩
def Fld.PWR_THERM_CFG_stk_crit : Field := ⟨32, 8⟩
def Fld.PWR_SENSE_vcore_mv : Field := ⟨0, 12⟩
def Fld.PWR_SENSE_vcore_min_mv : Field := ⟨12, 12⟩
def Fld.PWR_SENSE_die_temp : Field := ⟨24, 12⟩
def Fld.PWR_SENSE_stk_temp : Field := ⟨36, 12⟩
def Fld.PWR_SENSE_STATUS_rail_out : Field := ⟨0, 8⟩
def Fld.PWR_SENSE_STATUS_therm_locked : Field := ⟨8, 1⟩
def Fld.PWR_CAL_STATUS_at_limit : Field := ⟨0, 32⟩
def Fld.PWR_CAL_STATUS_phy_at_limit : Field := ⟨32, 4⟩
def Fld.PWR_CAL_STATUS_ilc_at_limit : Field := ⟨36, 1⟩
def Fld.PWR_CAL_STATUS_passes : Field := ⟨48, 16⟩
def Fld.SEC_CTL_enable : Field := ⟨0, 1⟩
def Fld.SEC_CTL_quote : Field := ⟨1, 1⟩
def Fld.SEC_CTL_bind : Field := ⟨2, 1⟩
def Fld.SEC_CTL_release : Field := ⟨3, 1⟩
def Fld.SEC_CTL_svn_commit : Field := ⟨4, 1⟩
def Fld.SEC_STATUS_state : Field := ⟨0, 2⟩
def Fld.SEC_STATUS_busy : Field := ⟨2, 1⟩
def Fld.SEC_STATUS_result : Field := ⟨8, 8⟩
def Fld.SEC_STATUS_sessions_left : Field := ⟨16, 11⟩
def Fld.SEC_STATUS_quotes_left : Field := ⟨27, 16⟩
def Fld.SEC_STATUS_fw_svn : Field := ⟨43, 7⟩
def Fld.SEC_STATUS_svn_min : Field := ⟨50, 7⟩
def Fld.SEC_KEY_ID_key_id : Field := ⟨0, 64⟩
def Fld.SEC_QUOTE_DST_dst : Field := ⟨0, 64⟩
def Fld.SEC_CFG_drain_ms : Field := ⟨0, 16⟩
def Fld.SEC_MBOX_data : Field := ⟨0, 64⟩
def Fld.SEC_TENANT_entry : Field := ⟨0, 16⟩
def Fld.SEC_TENANT_node : Field := ⟨16, 16⟩
def Fld.SEC_SEAL_MAP_tenant : Field := ⟨0, 64⟩
def Fld.LPE_CTL_enable : Field := ⟨0, 1⟩
def Fld.LPE_TRC_CTL_enable : Field := ⟨0, 1⟩
def Fld.LPE_TRC_CTL_trigger : Field := ⟨1, 1⟩
def Fld.LPE_TRC_CTL_rearm : Field := ⟨2, 1⟩
def Fld.LPE_TRC_CFG_dest : Field := ⟨0, 1⟩
def Fld.LPE_TRC_CFG_setting : Field := ⟨1, 5⟩
def Fld.LPE_TRC_CFG_mode : Field := ⟨6, 1⟩
def Fld.LPE_TRC_CFG_all_desc : Field := ⟨7, 1⟩
def Fld.LPE_TRC_CFG_all_ops : Field := ⟨8, 1⟩
def Fld.LPE_TRC_CFG_stop_on_trigger : Field := ⟨9, 1⟩
def Fld.LPE_TRC_CFG_trig_on_stop : Field := ⟨10, 1⟩
def Fld.LPE_TRC_CFG_trig_on_wdog : Field := ⟨11, 1⟩
def Fld.LPE_TRC_CFG_cap_pct : Field := ⟨16, 7⟩
def Fld.LPE_TRC_POST_post : Field := ⟨0, 32⟩
def Fld.LPE_TRC_SEG_base : Field := ⟨0, 44⟩
def Fld.LPE_TRC_LEN_length : Field := ⟨0, 37⟩
def Fld.LPE_TRC_EN_groups : Field := ⟨0, 64⟩
def Fld.LPE_TRC_STATUS_state : Field := ⟨0, 3⟩
def Fld.LPE_TRC_STATUS_bank_lost : Field := ⟨3, 1⟩
def Fld.LPE_TRC_STATUS_capacity : Field := ⟨32, 32⟩
def Fld.LPE_TRC_PTR_next : Field := ⟨0, 32⟩
def Fld.LPE_TRC_PTR_oldest : Field := ⟨32, 32⟩
def Fld.LPE_TRC_TRIG_slot : Field := ⟨0, 32⟩
def Fld.LPE_TRC_TRIG_post_eff : Field := ⟨32, 32⟩
def Fld.LPE_TRC_CNT_written : Field := ⟨0, 32⟩
def Fld.LPE_TRC_CNT_capped : Field := ⟨32, 16⟩
def Fld.LPE_TRC_CNT_not_written : Field := ⟨48, 16⟩
def Fld.LPE_TRC_CNT2_overflow : Field := ⟨0, 16⟩
def Fld.LPE_TRC_CNT2_extra_triggers : Field := ⟨16, 16⟩
def Fld.LPE_MARK_value : Field := ⟨0, 64⟩
def Fld.LPE_STOP_stop : Field := ⟨0, 1⟩
def Fld.LPE_STOP_resume : Field := ⟨1, 1⟩
def Fld.LPE_STOP_stopped : Field := ⟨2, 1⟩
def Fld.LPE_STOP_resumable : Field := ⟨3, 1⟩
def Fld.LPE_STOP_pin_en : Field := ⟨4, 1⟩
def Fld.LPE_STOP_cause : Field := ⟨5, 3⟩
def Fld.LPE_STOP_result : Field := ⟨8, 8⟩
def Fld.LPE_STOP_NT_nt : Field := ⟨0, 64⟩
def Fld.LPE_SNAP_CTL_go : Field := ⟨0, 1⟩
def Fld.LPE_SNAP_CTL_busy : Field := ⟨1, 1⟩
def Fld.LPE_SNAP_NT_nt : Field := ⟨0, 64⟩
def Fld.LPE_DUMP_base : Field := ⟨0, 44⟩
def Fld.LPE_DUMP_LEN_length : Field := ⟨0, 36⟩
def Fld.LPE_DUMP_CTL_go : Field := ⟨0, 1⟩
def Fld.LPE_DUMP_CTL_banks : Field := ⟨1, 1⟩
def Fld.LPE_DUMP_CTL_busy : Field := ⟨2, 1⟩
def Fld.LPE_DUMP_CTL_result : Field := ⟨8, 8⟩
def Fld.LPE_DUMP_CTL_seq : Field := ⟨16, 32⟩
def Fld.LPE_WDOG_timeout_ms : Field := ⟨0, 16⟩
def Fld.LPE_WDOG_rearm : Field := ⟨16, 1⟩
def Fld.LPE_WDOG_expired : Field := ⟨17, 1⟩
def Fld.LPE_WDOG_dumping : Field := ⟨18, 1⟩
def Fld.LPE_WDOG_dumps : Field := ⟨32, 32⟩
def Fld.LPE_FIX_count : Field := ⟨0, 64⟩
def Fld.LPE_FILT0_layer_lo : Field := ⟨0, 16⟩
def Fld.LPE_FILT0_layer_hi : Field := ⟨16, 16⟩
def Fld.LPE_FILT0_op_id : Field := ⟨32, 16⟩
def Fld.LPE_FILT0_op_mask : Field := ⟨48, 16⟩
def Fld.LPE_FILT1_client : Field := ⟨0, 9⟩
def Fld.LPE_FILT1_client_en : Field := ⟨9, 1⟩
def Fld.LPE_CMP0_value : Field := ⟨0, 64⟩
def Fld.LPE_CMP1_counter : Field := ⟨0, 9⟩
def Fld.LPE_CMP1_enable : Field := ⟨9, 1⟩
def Fld.LPE_CMP1_hit : Field := ⟨10, 1⟩
def Fld.LPE_SEL_event : Field := ⟨0, 12⟩
def Fld.LPE_SEL_src_class : Field := ⟨12, 4⟩
def Fld.LPE_SEL_src_index : Field := ⟨16, 12⟩
def Fld.LPE_SEL_class_any : Field := ⟨28, 1⟩
def Fld.LPE_SEL_index_any : Field := ⟨29, 1⟩
def Fld.LPE_SEL_filter : Field := ⟨30, 4⟩
def Fld.LPE_SEL_filt_en : Field := ⟨34, 1⟩
def Fld.LPE_SEL_trig : Field := ⟨35, 1⟩
def Fld.LPE_SEL_enable : Field := ⟨36, 1⟩
def Fld.LPE_CTR_count : Field := ⟨0, 64⟩
def Fld.LPE_SNAP_count : Field := ⟨0, 64⟩
def Fld.EVT_CTL_enable : Field := ⟨0, 1⟩
def Fld.EVT_CTL_ring_log2 : Field := ⟨8, 5⟩
def Fld.EVT_RING_BASE_base : Field := ⟨0, 64⟩
def Fld.EVT_RING_PTR_head : Field := ⟨0, 32⟩
def Fld.EVT_RING_PTR_tail : Field := ⟨32, 32⟩
def Fld.EVT_PENDING_pending : Field := ⟨1, 15⟩
def Fld.EVT_MASK_mask : Field := ⟨1, 15⟩
def Fld.EVT_CNT_dropped : Field := ⟨0, 32⟩
def Fld.EVT_CNT_queued : Field := ⟨32, 9⟩
def Fld.EVT_CNT_lost : Field := ⟨63, 1⟩
def Fld.EVT_NOTIFY_target : Field := ⟨0, 50⟩
def Fld.EVT_NOTIFY_holdoff_us : Field := ⟨50, 12⟩
def Fld.EVT_NOTIFY_enable : Field := ⟨63, 1⟩
def Fld.EVT_FATAL_cause : Field := ⟨0, 4⟩
def Fld.EVT_FATAL_quadrant : Field := ⟨4, 8⟩
def Fld.EVT_FATAL_NT_nt : Field := ⟨0, 64⟩
def Fld.PAI_CTL_enable : Field := ⟨0, 1⟩
def Fld.PAI_CTL_init_active : Field := ⟨1, 1⟩
def Fld.PAI_CTL_fence : Field := ⟨2, 1⟩
def Fld.PAI_CTL_grant : Field := ⟨3, 1⟩
def Fld.PAI_CTL_handover : Field := ⟨4, 1⟩
def Fld.PAI_CTL_partner : Field := ⟨16, 16⟩
def Fld.PAI_CTL_mirror_client : Field := ⟨32, 9⟩
def Fld.PAI_CFG_hb_tc : Field := ⟨0, 3⟩
def Fld.PAI_CFG_m1_lag_ms : Field := ⟨8, 8⟩
def Fld.PAI_CFG_claim_ms : Field := ⟨16, 16⟩
def Fld.PAI_JOURNAL_base : Field := ⟨0, 44⟩
def Fld.PAI_STATUS_role : Field := ⟨0, 3⟩
def Fld.PAI_STATUS_pin_ok : Field := ⟨3, 1⟩
def Fld.PAI_STATUS_fab_ok : Field := ⟨4, 1⟩
def Fld.PAI_STATUS_degraded : Field := ⟨5, 1⟩
def Fld.PAI_STATUS_m1_lag_us : Field := ⟨8, 24⟩
def Fld.PAI_STATUS_term : Field := ⟨32, 32⟩
def Fld.PAI_SYNC_watermark : Field := ⟨0, 14⟩
def Fld.PAI_CNT_takeovers : Field := ⟨0, 16⟩
def Fld.PAI_CNT_retries : Field := ⟨16, 16⟩
def Fld.PAI_CNT_hb_bad : Field := ⟨32, 16⟩
def Fld.PAI_CNT_reexec : Field := ⟨48, 16⟩
def Fld.PAI_DECLARE_NT_nt : Field := ⟨0, 64⟩
def Fld.PAI_SERVICE_NT_nt : Field := ⟨0, 64⟩
def Fld.PAI_CLIENT_paired : Field := ⟨0, 64⟩
def Fld.PAI_MREGION_first : Field := ⟨0, 14⟩
def Fld.PAI_MREGION_count : Field := ⟨14, 14⟩
def Fld.PAI_MREGION_class : Field := ⟨28, 2⟩
def Fld.PAI_MREGION_valid : Field := ⟨30, 1⟩
def Fld.RTE_ENTRY_even : Field := ⟨0, 32⟩
def Fld.RTE_ENTRY_odd : Field := ⟨32, 32⟩
def Fld.RTE_CTL_node : Field := ⟨0, 16⟩
def Fld.RTE_CTL_enable : Field := ⟨16, 1⟩
def Fld.RTE_CTL_inj_epoch : Field := ⟨17, 1⟩
def Fld.RTE_CTL_auto_retire : Field := ⟨18, 1⟩
def Fld.RTE_CTL_fm_any : Field := ⟨19, 1⟩
def Fld.RTE_CTL_hop_limit : Field := ⟨24, 8⟩
def Fld.RTE_CTL_fm_node : Field := ⟨32, 16⟩
def Fld.RTE_VER_valid0 : Field := ⟨0, 1⟩
def Fld.RTE_VER_valid1 : Field := ⟨1, 1⟩
def Fld.RTE_VER_draining : Field := ⟨2, 1⟩
def Fld.RTE_TIMING_drain_us : Field := ⟨0, 16⟩
def Fld.RTE_TIMING_lifetime_us : Field := ⟨16, 16⟩
def Fld.RTE_TIMING_tag_timeout_us : Field := ⟨32, 16⟩
def Fld.RTE_TIMING_give_up_ms : Field := ⟨48, 16⟩
def Fld.RTE_FLIP_NT_nt : Field := ⟨0, 64⟩
def Fld.RTE_ALIAS_alias : Field := ⟨0, 16⟩
def Fld.RTE_ALIAS_valid : Field := ⟨16, 1⟩
def Fld.RTE_CNT0_no_route : Field := ⟨0, 16⟩
def Fld.RTE_CNT0_ttl : Field := ⟨16, 16⟩
def Fld.RTE_CNT0_epoch_miss : Field := ⟨32, 16⟩
def Fld.RTE_CNT0_truncated : Field := ⟨48, 16⟩
def Fld.RTE_CNT1_malformed : Field := ⟨0, 12⟩
def Fld.RTE_CNT1_stale_gen : Field := ⟨12, 12⟩
def Fld.RTE_CNT1_stale_inc : Field := ⟨24, 12⟩
def Fld.RTE_CNT1_pcrc_err : Field := ⟨36, 16⟩
def Fld.RTE_CNT1_ctl_dropped : Field := ⟨52, 12⟩
def Fld.RTE_TAG_STATUS_outstanding : Field := ⟨0, 11⟩
def Fld.RTE_TAG_STATUS_quarantined : Field := ⟨16, 11⟩
def Fld.RTE_TAG_STATUS_timeouts : Field := ⟨32, 32⟩
def Fld.QUE_CTL_enable : Field := ⟨0, 1⟩
def Fld.QUE_DB_CNT_stale : Field := ⟨0, 20⟩
def Fld.QUE_DB_CNT_invalid : Field := ⟨20, 20⟩
def Fld.QUE_DB_CNT_rejected : Field := ⟨40, 20⟩
def Fld.QUE_RETIRE_client : Field := ⟨0, 9⟩
def Fld.QUE_RETIRE_go : Field := ⟨9, 1⟩
def Fld.QUE_RETIRE_busy : Field := ⟨10, 1⟩
def Fld.QUE_CLIENT_enable : Field := ⟨0, 1⟩
def Fld.QUE_CLIENT_priv : Field := ⟨1, 1⟩
def Fld.QUE_CLIENT_fabric_db : Field := ⟨2, 1⟩
def Fld.QUE_CLIENT_node : Field := ⟨16, 16⟩
def Fld.QUE_CLIENT_incarnation : Field := ⟨32, 7⟩
def Fld.QUE_POL_RATE_rate_mbs : Field := ⟨0, 16⟩
def Fld.QUE_POL_RATE_tc : Field := ⟨16, 3⟩
def Fld.QUE_POL_BURST_burst : Field := ⟨0, 24⟩
def Fld.QUE_POL_CNT_dropped : Field := ⟨0, 32⟩
def Fld.QUE_POL_CNT_notices : Field := ⟨32, 16⟩
def Fld.QUE_QP_SQ_BASE_base : Field := ⟨0, 64⟩
def Fld.QUE_QP_CQ_BASE_base : Field := ⟨0, 64⟩
def Fld.QUE_QP_CFG_enable : Field := ⟨0, 1⟩
def Fld.QUE_QP_CFG_ring_log2 : Field := ⟨8, 5⟩
def Fld.QUE_QP_CFG_max_inflight : Field := ⟨16, 7⟩
def Fld.QUE_QP_CFG_weight : Field := ⟨24, 4⟩
def Fld.QUE_QP_EV_target : Field := ⟨0, 50⟩
def Fld.QUE_QP_EV_enable : Field := ⟨63, 1⟩
def Fld.QUE_QP_SQ_PTR_tail : Field := ⟨0, 32⟩
def Fld.QUE_QP_SQ_PTR_fetched : Field := ⟨32, 32⟩
def Fld.QUE_QP_CQ_PTR_head : Field := ⟨0, 32⟩
def Fld.QUE_QP_CQ_PTR_inflight : Field := ⟨32, 16⟩
def Fld.QUE_QP_CTL_reset : Field := ⟨0, 1⟩
def Fld.QUE_QP_CTL_busy : Field := ⟨1, 1⟩
def Fld.QUE_QP_CTL_fetch_error : Field := ⟨2, 1⟩
def Fld.SEG_CTL_enable : Field := ⟨0, 1⟩
def Fld.SEG_CTL_timeout_ms : Field := ⟨16, 16⟩
def Fld.SEG_FAULT_CNT_opened : Field := ⟨0, 20⟩
def Fld.SEG_FAULT_CNT_joined : Field := ⟨20, 20⟩
def Fld.SEG_FAULT_CNT_ended : Field := ⟨40, 20⟩
def Fld.SEG_BMC_CNT_hits : Field := ⟨0, 32⟩
def Fld.SEG_BMC_CNT_misses : Field := ⟨32, 32⟩
def Fld.SEG_BMC_INV_client : Field := ⟨0, 9⟩
def Fld.SEG_BMC_INV_segment : Field := ⟨9, 3⟩
def Fld.SEG_BMC_INV_all_segments : Field := ⟨12, 1⟩
def Fld.SEG_BMC_INV_go : Field := ⟨13, 1⟩
def Fld.SEG_BMC_INV_busy : Field := ⟨14, 1⟩
def Fld.SEG_FAULT_RESOLVE_index : Field := ⟨0, 6⟩
def Fld.SEG_FAULT_RESOLVE_action : Field := ⟨8, 2⟩
def Fld.SEG_FAULT_OPEN_open : Field := ⟨0, 64⟩
def Fld.SEG_FAULT_REC0_va : Field := ⟨0, 48⟩
def Fld.SEG_FAULT_REC0_client : Field := ⟨48, 9⟩
def Fld.SEG_FAULT_REC0_segment : Field := ⟨57, 3⟩
def Fld.SEG_FAULT_REC0_write : Field := ⟨60, 1⟩
def Fld.SEG_FAULT_REC0_state : Field := ⟨61, 2⟩
def Fld.SEG_FAULT_REC1_waiters : Field := ⟨0, 64⟩
def Fld.SEG_FAULT_REC2_generation : Field := ⟨0, 32⟩
def Fld.SEG_FAULT_REC2_page : Field := ⟨32, 23⟩
def Fld.SEG_FAULT_REC3_open_nt : Field := ⟨0, 64⟩
def Fld.SEG_STALL_valid : Field := ⟨0, 1⟩
def Fld.SEG_STALL_record : Field := ⟨1, 6⟩
def Fld.SEG_STALL_qp : Field := ⟨7, 10⟩
def Fld.SEG_STALL_requester : Field := ⟨17, 9⟩
def Fld.SEG_STALL_seq : Field := ⟨26, 32⟩
def Fld.SEG_ENTRY_word : Field := ⟨0, 64⟩
def Fld.STK_CTL_enable : Field := ⟨0, 1⟩
def Fld.STK_CTL_pool_mode : Field := ⟨1, 1⟩
def Fld.STK_CTL_throttle_c : Field := ⟨8, 8⟩
def Fld.STK_CTL_scrub_hours : Field := ⟨16, 8⟩
def Fld.STK_SLAB_VIOL_count : Field := ⟨0, 20⟩
def Fld.STK_SLAB_VIOL_slab : Field := ⟨20, 14⟩
def Fld.STK_PORT_STATUS_state : Field := ⟨0, 3⟩
def Fld.STK_PORT_STATUS_cause : Field := ⟨3, 4⟩
def Fld.STK_PORT_STATUS_throttled : Field := ⟨7, 1⟩
def Fld.STK_PORT_STATUS_refresh_2x : Field := ⟨8, 1⟩
def Fld.STK_PORT_STATUS_temp : Field := ⟨9, 12⟩
def Fld.STK_PORT_STATUS_hard_rows : Field := ⟨32, 16⟩
def Fld.STK_PORT_CTL_power : Field := ⟨0, 2⟩
def Fld.STK_ECC_CNT_corrected : Field := ⟨0, 24⟩
def Fld.STK_ECC_CNT_uncorrectable : Field := ⟨24, 20⟩
def Fld.STK_ECC_CNT_ondie : Field := ⟨44, 20⟩
def Fld.STK_SLAB_enable : Field := ⟨0, 1⟩
def Fld.STK_SLAB_mode : Field := ⟨1, 2⟩
def Fld.STK_SLAB_home : Field := ⟨3, 5⟩
def Fld.STK_SLAB_frame : Field := ⟨8, 14⟩
def Fld.STK_SLAB_state : Field := ⟨22, 2⟩
def Fld.CLS_STATUS_state : Field := ⟨0, 3⟩
def Fld.CLS_STATUS_failed : Field := ⟨3, 8⟩
def Fld.CLS_CTL_stack : Field := ⟨0, 3⟩
def Fld.CLS_CTL_fail : Field := ⟨3, 1⟩
def Fld.CLS_CTL_reinstate : Field := ⟨4, 1⟩
def Fld.CLS_CTL_busy : Field := ⟨5, 1⟩
def Fld.CLS_REBUILD_watermark : Field := ⟨0, 31⟩
def Fld.CLS_REBUILD_share : Field := ⟨32, 7⟩
def Fld.CLS_CFG_hard_fault_limit : Field := ⟨0, 16⟩
def Fld.CLS_CNT_reconstructed : Field := ⟨0, 32⟩
def Fld.CLS_CNT_parity_fixed : Field := ⟨32, 16⟩
def Fld.CLS_CNT_double : Field := ⟨48, 16⟩
def Fld.CLS_SCRUB_row : Field := ⟨0, 31⟩
def Fld.CLS_SCRUB_passes : Field := ⟨32, 16⟩
def Fld.CLS_LOG_STATUS_entries : Field := ⟨0, 9⟩
def Fld.CLS_LOG_STATUS_overflow : Field := ⟨16, 16⟩
def Fld.CLS_ROW_REPAIR_entry : Field := ⟨0, 8⟩
def Fld.CLS_ROW_REPAIR_go : Field := ⟨8, 1⟩
def Fld.CLS_ROW_REPAIR_busy : Field := ⟨9, 1⟩
def Fld.CLS_ROW_REPAIR_result : Field := ⟨10, 1⟩
def Fld.CLS_ROW_LOG_valid : Field := ⟨0, 1⟩
def Fld.CLS_ROW_LOG_lost : Field := ⟨1, 8⟩
def Fld.CLS_ROW_LOG_stale : Field := ⟨9, 1⟩
def Fld.CLS_ROW_LOG_row : Field := ⟨10, 31⟩
def Fld.BNK_CTL_enable : Field := ⟨0, 1⟩
def Fld.BNK_CTL_test_enable : Field := ⟨1, 1⟩
def Fld.BNK_CTL_test_march : Field := ⟨2, 2⟩
def Fld.BNK_CTL_test_interval : Field := ⟨8, 16⟩
def Fld.BNK_CNT_collisions : Field := ⟨0, 24⟩
def Fld.BNK_CNT_corrected : Field := ⟨24, 20⟩
def Fld.BNK_CNT_uncorrectable : Field := ⟨44, 12⟩
def Fld.BNK_CNT_test_fails : Field := ⟨56, 8⟩
def Fld.BNK_FAULT_bank : Field := ⟨0, 6⟩
def Fld.BNK_FAULT_tag : Field := ⟨6, 4⟩
def Fld.BNK_FAULT_kind : Field := ⟨10, 3⟩
def Fld.BNK_FAULT_count : Field := ⟨16, 20⟩
def Fld.BNK_BANK_owner : Field := ⟨0, 4⟩
def Fld.BNK_BANK_power : Field := ⟨4, 2⟩
def Fld.BNK_BANK_clear : Field := ⟨6, 1⟩
def Fld.BNK_BANK_busy : Field := ⟨7, 1⟩
def Fld.BNK_BANK_test_result : Field := ⟨8, 2⟩
def Fld.BNK_BANK_repaired : Field := ⟨10, 1⟩
def Fld.BNK_BANK_failed : Field := ⟨11, 1⟩
def Fld.BNK_BANK_testing : Field := ⟨12, 1⟩
def Fld.BNK_BANK_written : Field := ⟨16, 13⟩
def Fld.FAC_CTL_enable : Field := ⟨0, 1⟩
def Fld.FAC_CTL_fill : Field := ⟨1, 1⟩
def Fld.FAC_CTL_portb_floor : Field := ⟨8, 8⟩
def Fld.FAC_CTL_vec_floor : Field := ⟨16, 4⟩
def Fld.FAC_STATUS_active : Field := ⟨0, 8⟩
def Fld.FAC_STATUS_filling : Field := ⟨8, 8⟩
def Fld.FAC_STATUS_decoder_busy : Field := ⟨16, 1⟩
def Fld.FAC_STATUS_mover_busy : Field := ⟨17, 4⟩
def Fld.FAC_DEC_CNT_bad_mask : Field := ⟨0, 20⟩
def Fld.FAC_DEC_CNT_granules : Field := ⟨20, 44⟩
def Fld.FAC_DEC_STALL_ring_full : Field := ⟨0, 32⟩
def Fld.FAC_DEC_STALL_portb_wait : Field := ⟨32, 32⟩
def Fld.FAC_ARRAY_CNT_busy : Field := ⟨0, 48⟩
def Fld.FAC_FILL_CNT_cycles : Field := ⟨0, 48⟩
def Fld.FAC_SKIP_CNT_blocks : Field := ⟨0, 48⟩
def Fld.RCP_CTL_enable : Field := ⟨0, 1⟩
def Fld.RCP_CTL_recv_timeout_ms : Field := ⟨16, 16⟩
def Fld.RCP_CTL_send_retry_ms : Field := ⟨32, 16⟩
def Fld.RCP_STORE_base : Field := ⟨0, 44⟩
def Fld.RCP_LOAD_SRC_src : Field := ⟨0, 64⟩
def Fld.RCP_LOAD_CTL_slot : Field := ⟨0, 10⟩
def Fld.RCP_LOAD_CTL_go : Field := ⟨10, 1⟩
def Fld.RCP_LOAD_CTL_unload : Field := ⟨11, 1⟩
def Fld.RCP_LOAD_CTL_busy : Field := ⟨12, 1⟩
def Fld.RCP_LOAD_STATUS_result : Field := ⟨0, 8⟩
def Fld.RCP_LOAD_STATUS_index : Field := ⟨8, 8⟩
def Fld.RCP_LOAD_STATUS_slot : Field := ⟨16, 10⟩
def Fld.RCP_VALID_valid : Field := ⟨0, 64⟩
def Fld.RCP_RUN_running : Field := ⟨0, 1⟩
def Fld.RCP_RUN_slot : Field := ⟨1, 10⟩
def Fld.RCP_RUN_op : Field := ⟨11, 8⟩
def Fld.RCP_RUN_layer_id : Field := ⟨19, 16⟩
def Fld.RCP_RUN_client : Field := ⟨35, 9⟩
def Fld.RCP_RUN_qp : Field := ⟨44, 3⟩
def Fld.RCP_CNT_runs : Field := ⟨0, 32⟩
def Fld.RCP_CNT_recv_refused : Field := ⟨32, 16⟩
def Fld.RCP_CNT_send_failed : Field := ⟨48, 16⟩
def Fld.EXD_CTL_enable : Field := ⟨0, 1⟩
def Fld.EXD_CTL_spill_serve : Field := ⟨1, 1⟩
def Fld.EXD_CTL_spill_tc : Field := ⟨2, 3⟩
def Fld.EXD_CTL_spill_timeout_us : Field := ⟨16, 16⟩
def Fld.EXD_CTL_answer_us : Field := ⟨32, 16⟩
def Fld.EXD_TABLE_base : Field := ⟨0, 44⟩
def Fld.EXD_WORK_base : Field := ⟨0, 44⟩
def Fld.EXD_SPILL_CFG_max_pairs : Field := ⟨0, 16⟩
def Fld.EXD_STATUS_phase : Field := ⟨0, 3⟩
def Fld.EXD_STATUS_entry : Field := ⟨3, 8⟩
def Fld.EXD_STATUS_groups : Field := ⟨11, 16⟩
def Fld.EXD_STATUS_spill_open : Field := ⟨27, 16⟩
def Fld.EXD_CNT_admitted : Field := ⟨0, 32⟩
def Fld.EXD_CNT_rerouted : Field := ⟨32, 16⟩
def Fld.EXD_CNT_dropped : Field := ⟨48, 16⟩
def Fld.EXD_CNT2_spilled : Field := ⟨0, 24⟩
def Fld.EXD_CNT2_spill_refused : Field := ⟨24, 16⟩
def Fld.EXD_CNT2_bad_choice : Field := ⟨40, 16⟩
def Fld.EXD_CNT2_spill_lost : Field := ⟨56, 8⟩
def Fld.EXD_SERVE_CNT_served : Field := ⟨0, 32⟩
def Fld.EXD_SERVE_CNT_refused : Field := ⟨32, 16⟩
def Fld.ATN_CTL_enable : Field := ⟨0, 1⟩
def Fld.ATN_CTL_exact_pages : Field := ⟨16, 16⟩
def Fld.ATN_STATUS_running : Field := ⟨0, 1⟩
def Fld.ATN_STATUS_remaining : Field := ⟨1, 13⟩
def Fld.ATN_CNT_pages_read : Field := ⟨0, 32⟩
def Fld.ATN_CNT_pages_scored : Field := ⟨32, 32⟩
def Fld.ATN_CNT2_missing : Field := ⟨0, 16⟩
def Fld.ATN_CNT2_empty : Field := ⟨16, 16⟩
def Fld.ATN_CNT2_append_noop : Field := ⟨32, 16⟩
def Fld.ATN_CNT2_recomputed : Field := ⟨48, 16⟩
def Fld.ATN_FAULT_kind : Field := ⟨0, 4⟩
def Fld.ATN_FAULT_sequence : Field := ⟨16, 12⟩
def Fld.SHR_CTL_enable : Field := ⟨0, 1⟩
def Fld.SHR_CTL_zero_fill : Field := ⟨1, 1⟩
def Fld.SHR_CTL_default_ms : Field := ⟨16, 20⟩
def Fld.SHR_RGN_BASE_base : Field := ⟨0, 44⟩
def Fld.SHR_RGN_ID_id : Field := ⟨0, 64⟩
def Fld.SHR_RGN_CTL_action : Field := ⟨0, 2⟩
def Fld.SHR_RGN_CTL_busy : Field := ⟨2, 1⟩
def Fld.SHR_RGN_CTL_result : Field := ⟨3, 3⟩
def Fld.SHR_RGN_CTL_version : Field := ⟨16, 32⟩
def Fld.SHR_LEASE_CTL_index : Field := ⟨0, 8⟩
def Fld.SHR_LEASE_CTL_release : Field := ⟨8, 1⟩
def Fld.SHR_LEASE_CTL_revoke : Field := ⟨9, 1⟩
def Fld.SHR_CNT_published : Field := ⟨0, 24⟩
def Fld.SHR_CNT_lost : Field := ⟨24, 16⟩
def Fld.SHR_CNT_expired : Field := ⟨40, 16⟩
def Fld.SHR_CNT_renew_refused : Field := ⟨56, 8⟩
def Fld.SHR_LEASE0_id : Field := ⟨0, 64⟩
def Fld.SHR_LEASE1_client : Field := ⟨0, 9⟩
def Fld.SHR_LEASE1_state : Field := ⟨9, 3⟩
def Fld.SHR_LEASE1_segs : Field := ⟨12, 8⟩
def Fld.SHR_LEASE1_expiry_ms : Field := ⟨20, 44⟩
def Fld.COH_CTL_enable : Field := ⟨0, 1⟩
def Fld.COH_CNT_lookups : Field := ⟨0, 32⟩
def Fld.COH_CNT_back_inv : Field := ⟨32, 16⟩
def Fld.COH_CNT_bcast : Field := ⟨48, 16⟩
def Fld.COH_DIR_STATUS_used : Field := ⟨0, 23⟩
def Fld.COH_DIR_PROBE_line : Field := ⟨0, 38⟩
def Fld.COH_DIR_PROBE_go : Field := ⟨38, 1⟩
def Fld.COH_DIR_PROBE_busy : Field := ⟨39, 1⟩
def Fld.COH_DIR_RESULT_entry : Field := ⟨0, 64⟩
def Fld.COH_LC_STATUS_lines : Field := ⟨0, 19⟩
def Fld.COH_LC_STATUS_dirty : Field := ⟨32, 19⟩
def Fld.COH_LLL_STATUS_count : Field := ⟨0, 13⟩
def Fld.COH_LLL_STATUS_head : Field := ⟨13, 12⟩
def Fld.COH_LLL_STATUS_overflow : Field := ⟨32, 16⟩
def Fld.COH_LLL_STATUS_events : Field := ⟨48, 16⟩
def Fld.COH_LLL_CTL_consume : Field := ⟨0, 13⟩
def Fld.COH_LLL_CTL_clear_overflow : Field := ⟨13, 1⟩
def Fld.COH_LLL0_line : Field := ⟨0, 38⟩
def Fld.COH_LLL0_agent : Field := ⟨38, 4⟩
def Fld.COH_LLL0_event : Field := ⟨48, 16⟩
def Fld.COH_LLL1_nt : Field := ⟨0, 64⟩
def Fld.ILC_CTL_enable : Field := ⟨0, 1⟩
def Fld.ILC_CTL_np8_compat : Field := ⟨1, 1⟩
def Fld.ILC_CTL_snoop_timeout_us : Field := ⟨16, 16⟩
def Fld.ILC_CTL_crc_limit : Field := ⟨32, 8⟩
def Fld.ILC_STATUS_state : Field := ⟨0, 3⟩
def Fld.ILC_STATUS_present : Field := ⟨8, 8⟩
def Fld.ILC_STATUS_lost : Field := ⟨16, 8⟩
def Fld.ILC_STATUS_retrains : Field := ⟨32, 16⟩
def Fld.ILC_AGENT_enable : Field := ⟨0, 1⟩
def Fld.ILC_AGENT_tracker : Field := ⟨8, 7⟩
def Fld.ILC_AGENT_snp_buf : Field := ⟨16, 7⟩
def Fld.ILC_AGENT_state : Field := ⟨24, 2⟩
def Fld.ILC_AGENT_CTL_agent : Field := ⟨0, 3⟩
def Fld.ILC_AGENT_CTL_remove : Field := ⟨3, 1⟩
def Fld.ILC_AGENT_CTL_lose : Field := ⟨4, 1⟩
def Fld.ILC_AGENT_CTL_busy : Field := ⟨5, 1⟩
def Fld.ILC_CNT_crc_errors : Field := ⟨0, 32⟩
def Fld.ILC_CNT_refused : Field := ⟨32, 16⟩
def Fld.ILC_CNT_discarded : Field := ⟨48, 16⟩
def Fld.LNK_CTL_enable : Field := ⟨0, 1⟩
def Fld.LNK_CTL_retrain : Field := ⟨1, 1⟩
def Fld.LNK_CTL_discard : Field := ⟨2, 1⟩
def Fld.LNK_CTL_cable : Field := ⟨3, 1⟩
def Fld.LNK_CTL_spare_en : Field := ⟨4, 1⟩
def Fld.LNK_CFG_err_limit : Field := ⟨0, 16⟩
def Fld.LNK_CFG_replay_timeout_us : Field := ⟨16, 8⟩
def Fld.LNK_CFG_retry_ms : Field := ⟨24, 16⟩
def Fld.LNK_CFG_sym_limit_log2 : Field := ⟨40, 5⟩
def Fld.LNK_STATUS_state : Field := ⟨0, 4⟩
def Fld.LNK_STATUS_slot0 : Field := ⟨4, 2⟩
def Fld.LNK_STATUS_slot1 : Field := ⟨6, 2⟩
def Fld.LNK_STATUS_spare : Field := ⟨8, 2⟩
def Fld.LNK_STATUS_resumed : Field := ⟨10, 1⟩
def Fld.LNK_STATUS_peer_node : Field := ⟨16, 16⟩
def Fld.LNK_STATUS_peer_link : Field := ⟨32, 5⟩
def Fld.LNK_CNT0_tx_frames : Field := ⟨0, 32⟩
def Fld.LNK_CNT0_rx_frames : Field := ⟨32, 32⟩
def Fld.LNK_CNT1_crc_err : Field := ⟨0, 20⟩
def Fld.LNK_CNT1_naks : Field := ⟨20, 16⟩
def Fld.LNK_CNT1_replays : Field := ⟨36, 16⟩
def Fld.LNK_CNT1_dups : Field := ⟨52, 12⟩
def Fld.LNK_CNT2_retrains : Field := ⟨0, 16⟩
def Fld.LNK_CNT2_downs : Field := ⟨16, 16⟩
def Fld.LNK_CNT2_spares : Field := ⟨32, 8⟩
def Fld.LNK_CNT2_lost_frames : Field := ⟨40, 16⟩
def Fld.LNK_CNT3_discarded : Field := ⟨0, 32⟩
def Fld.LNK_CNT3_window : Field := ⟨32, 16⟩
def Fld.LNK_VC_alloc : Field := ⟨0, 12⟩
def Fld.LNK_VC_credits : Field := ⟨16, 12⟩
def Fld.LNK_VC_held : Field := ⟨32, 32⟩
def Fld.LNK_LANE_role : Field := ⟨0, 2⟩
def Fld.LNK_LANE_lock : Field := ⟨2, 1⟩
def Fld.LNK_LANE_corrected : Field := ⟨8, 24⟩
def Fld.LNK_LANE_uncorrectable : Field := ⟨32, 16⟩
def Fld.LNK_LANE_eye : Field := ⟨48, 8⟩
def Fld.LNK_TIME_CFG_source : Field := ⟨0, 1⟩
def Fld.LNK_TIME_CFG_asym_ps : Field := ⟨16, 16⟩
def Fld.LNK_TIME_DELAY_delay_ps : Field := ⟨0, 32⟩
def Fld.LNK_TIME_OFS_delta : Field := ⟨0, 64⟩
def Fld.TSC_CTL_enable : Field := ⟨0, 1⟩
def Fld.TSC_CTL_n_entries : Field := ⟨8, 9⟩
def Fld.TSC_CTL_rest_mask : Field := ⟨24, 8⟩
def Fld.TSC_CTL_overhead : Field := ⟨32, 8⟩
def Fld.TSC_CYCLE_cycle_ns : Field := ⟨0, 24⟩
def Fld.TSC_BASE_base : Field := ⟨0, 64⟩
def Fld.TSC_STATUS_entry : Field := ⟨0, 9⟩
def Fld.TSC_STATUS_open : Field := ⟨16, 8⟩
def Fld.TSC_CNT_deferred : Field := ⟨0, 32⟩
def Fld.TSC_CNT_overrun : Field := ⟨32, 16⟩
def Fld.TSC_SHAPE_rate_mbs : Field := ⟨0, 16⟩
def Fld.TSC_SHAPE_burst : Field := ⟨16, 24⟩
def Fld.TSC_TX_bytes : Field := ⟨0, 48⟩
def Fld.TSC_GATE_mask : Field := ⟨0, 8⟩
def Fld.TSC_GATE_duration_ns : Field := ⟨8, 24⟩

/-- The global registers (Tables RM-5 to RM-7). -/
def rowsGLB : List RegRow := [
  ⟨"GLB_ID", .glob, 0, [], false, [
    ⟨"part_id", 0, 32, .ro, 0x10032546, 0, 0xffffffff⟩,
    ⟨"map_version", 32, 16, .ro, 1, 0, 0xffff⟩,
    ⟨"reserved", 48, 16, .ro, 0, 0, 0xffff⟩]⟩,
  ⟨"GLB_DEVICE_ID0", .glob, 8, [], false, [
    ⟨"id_lo", 0, 64, .ro, 0, 0, 0xffffffffffffffff⟩]⟩,
  ⟨"GLB_DEVICE_ID1", .glob, 0x10, [], false, [
    ⟨"id_hi", 0, 64, .ro, 0, 0, 0xffffffffffffffff⟩]⟩,
  ⟨"GLB_STATUS", .glob, 0x18, [], false, [
    ⟨"cfg_defaulted", 0, 1, .ro, 0, 0, 1⟩,
    ⟨"ready", 1, 1, .ro, 0, 0, 1⟩,
    ⟨"boot_failed", 2, 1, .ro, 0, 0, 1⟩,
    ⟨"stopped", 3, 1, .ro, 0, 0, 1⟩,
    ⟨"fatal", 4, 1, .ro, 0, 0, 1⟩,
    ⟨"bezel", 5, 2, .ro, 0, 0, 3⟩,
    ⟨"pair_role", 7, 3, .ro, 0, 0, 7⟩,
    ⟨"commit_pending", 10, 1, .ro, 0, 0, 1⟩,
    ⟨"viol", 11, 1, .ro, 0, 0, 1⟩,
    ⟨"reserved", 12, 52, .ro, 0, 0, 0xfffffffffffff⟩]⟩,
  ⟨"GLB_COMMIT", .glob, 0x20, [], false, [
    ⟨"token", 0, 32, .wo, 0, 0, 0xffffffff⟩,
    ⟨"when", 32, 2, .wo, 0, 0, 3⟩,
    ⟨"reserved", 34, 30, .ro, 0, 0, 0x3fffffff⟩]⟩,
  ⟨"GLB_CFG_VIOL", .glob, 0x28, [], false, [
    ⟨"offset", 0, 26, .ro, 0, 0, 0x3ffffff⟩,
    ⟨"kind", 26, 4, .ro, 0, 0, 0xf⟩,
    ⟨"path", 30, 3, .ro, 0, 0, 7⟩,
    ⟨"reserved", 33, 7, .ro, 0, 0, 0x7f⟩,
    ⟨"count", 40, 16, .ro, 0, 0, 0xffff⟩,
    ⟨"reserved", 56, 7, .ro, 0, 0, 0x7f⟩,
    ⟨"clear", 63, 1, .wo, 0, 0, 1⟩]⟩,
  ⟨"GLB_NT", .glob, 0x30, [], false, [
    ⟨"nt", 0, 64, .ro, 0, 0, 0xffffffffffffffff⟩]⟩,
  ⟨"GLB_MGMT_LIVE", .glob, 0x38, [], false, [
    ⟨"beat0", 0, 1, .wo, 0, 0, 1⟩,
    ⟨"beat1", 1, 1, .wo, 0, 0, 1⟩,
    ⟨"alive0", 2, 1, .ro, 0, 0, 1⟩,
    ⟨"alive1", 3, 1, .ro, 0, 0, 1⟩,
    ⟨"reserved", 4, 60, .ro, 0, 0, 0xfffffffffffffff⟩]⟩]

/-- The configuration registers (Tables RM-5 to RM-7). -/
def rowsCFG : List RegRow := [
  ⟨"CFG_BOOT_STATUS", .glob, 0x10000, [], false, [
    ⟨"done_step", 0, 4, .ro, 1, 0, 0xf⟩,
    ⟨"failed", 4, 1, .ro, 0, 0, 1⟩,
    ⟨"reset_cause", 5, 3, .ro, 0, 0, 7⟩,
    ⟨"fail_code", 8, 8, .ro, 0, 0, 0xff⟩,
    ⟨"fw_slot", 16, 1, .ro, 0, 0, 1⟩,
    ⟨"pool_kept", 17, 1, .ro, 0, 0, 1⟩,
    ⟨"reserved", 18, 14, .ro, 0, 0, 0x3fff⟩,
    ⟨"stk_failed", 32, 32, .ro, 0, 0, 0xffffffff⟩]⟩,
  ⟨"CFG_IMAGE_STATUS", .glob, 0x10008, [], false, [
    ⟨"result", 0, 8, .ro, 0, 0, 0xff⟩,
    ⟨"record_index", 8, 16, .ro, 0xffff, 0, 0xffff⟩,
    ⟨"reserved", 24, 8, .ro, 0, 0, 0xff⟩,
    ⟨"image_version", 32, 32, .ro, 0, 0, 0xffffffff⟩]⟩,
  ⟨"CFG_RESET", .glob, 0x10010, [], false, [
    ⟨"warm", 0, 1, .wo, 0, 0, 1⟩,
    ⟨"cold", 1, 1, .wo, 0, 0, 1⟩,
    ⟨"keep_pool", 2, 1, .rw, 0, 0, 1⟩,
    ⟨"reserved", 3, 61, .ro, 0, 0, 0x1fffffffffffffff⟩]⟩,
  ⟨"CFG_COMMIT_AT", .glob, 0x10018, [], false, [
    ⟨"instant", 0, 64, .rw, 0, 0, 0xffffffffffffffff⟩]⟩,
  ⟨"CFG_COMMIT_CTL", .glob, 0x10020, [], false, [
    ⟨"cancel", 0, 1, .wo, 0, 0, 1⟩,
    ⟨"discard", 1, 1, .wo, 0, 0, 1⟩,
    ⟨"reserved", 2, 62, .ro, 0, 0, 0x3fffffffffffffff⟩]⟩,
  ⟨"CFG_COMMIT_RESULT", .glob, 0x10028, [], false, [
    ⟨"token", 0, 32, .ro, 0, 0, 0xffffffff⟩,
    ⟨"state", 32, 3, .ro, 0, 0, 7⟩,
    ⟨"reserved", 35, 5, .ro, 0, 0, 0x1f⟩,
    ⟨"code", 40, 8, .ro, 0, 0, 0xff⟩,
    ⟨"busy_refused", 48, 1, .w1c, 0, 0, 1⟩,
    ⟨"reserved", 49, 15, .ro, 0, 0, 0x7fff⟩]⟩,
  ⟨"CFG_COMMIT_FAULT", .glob, 0x10030, [], false, [
    ⟨"offset", 0, 26, .ro, 0, 0, 0x3ffffff⟩,
    ⟨"reserved", 26, 38, .ro, 0, 0, 0x3fffffffff⟩]⟩,
  ⟨"CFG_COMMIT_APPLIED_NT", .glob, 0x10038, [], false, [
    ⟨"nt", 0, 64, .ro, 0, 0, 0xffffffffffffffff⟩]⟩,
  ⟨"CFG_STAGE_STATUS", .glob, 0x10040, [], false, [
    ⟨"staged", 0, 16, .ro, 0, 0, 0xffff⟩,
    ⟨"frozen", 16, 1, .ro, 0, 0, 1⟩,
    ⟨"reserved", 17, 47, .ro, 0, 0, 0x7fffffffffff⟩]⟩]

/-- The clock registers (Tables RM-5 to RM-7). -/
def rowsCLK : List RegRow := [
  ⟨"CLK_STATUS", .glob, 0x20000, [], false, [
    ⟨"ref_lost", 0, 1, .w1c, 0, 0, 1⟩,
    ⟨"holdover", 1, 1, .ro, 0, 0, 1⟩,
    ⟨"core_lock", 2, 4, .ro, 0, 0, 0xf⟩,
    ⟨"ctl_lock", 6, 1, .ro, 0, 0, 1⟩,
    ⟨"mclk_lock", 7, 4, .ro, 0, 0, 0xf⟩,
    ⟨"time_lock", 11, 1, .ro, 0, 0, 1⟩,
    ⟨"core_half", 12, 4, .ro, 0, 0, 0xf⟩,
    ⟨"reserved", 16, 48, .ro, 0, 0, 0xffffffffffff⟩]⟩]

/-- The power registers (Tables RM-5 to RM-7). -/
def rowsPWR : List RegRow := [
  ⟨"PWR_DROOP_CFG", .glob, 0x30000, [(8, 4)], false, [
    ⟨"enable", 0, 1, .rw, 1, 0, 1⟩,
    ⟨"reserved", 1, 7, .ro, 0, 0, 0x7f⟩,
    ⟨"threshold_mv", 8, 6, .rw, 0x1e, 10, 0x3c⟩,
    ⟨"reserved", 14, 2, .ro, 0, 0, 3⟩,
    ⟨"alert_per_ms", 16, 16, .rw, 0x3e8, 0, 0xffff⟩,
    ⟨"reserved", 32, 32, .ro, 0, 0, 0xffffffff⟩]⟩,
  ⟨"PWR_STRETCH_CNT", .glob, 0x30020, [(8, 4)], false, [
    ⟨"count", 0, 48, .ro, 0, 0, 0xffffffffffff⟩,
    ⟨"reserved", 48, 16, .ro, 0, 0, 0xffff⟩]⟩,
  ⟨"PWR_THERM_CFG", .glob, 0x30040, [], false, [
    ⟨"die_warn", 0, 8, .rw, 0x5f, 0, 0xff⟩,
    ⟨"die_throttle", 8, 8, .rw, 0x64, 0, 0xff⟩,
    ⟨"die_crit", 16, 8, .rwl, 0x6e, 0, 0x6e⟩,
    ⟨"stk_warn", 24, 8, .rw, 0x55, 0, 0xff⟩,
    ⟨"stk_crit", 32, 8, .rwl, 0x64, 0, 0x64⟩,
    ⟨"reserved", 40, 24, .ro, 0, 0, 0xffffff⟩]⟩,
  ⟨"PWR_SENSE", .glob, 0x30100, [(8, 4)], false, [
    ⟨"vcore_mv", 0, 12, .ro, 0, 0, 0xfff⟩,
    ⟨"vcore_min_mv", 12, 12, .ro, 0xfff, 0, 0xfff⟩,
    ⟨"die_temp", 24, 12, .ro, 0, 0, 0xfff⟩,
    ⟨"stk_temp", 36, 12, .ro, 0, 0, 0xfff⟩,
    ⟨"reserved", 48, 16, .ro, 0, 0, 0xffff⟩]⟩,
  ⟨"PWR_SENSE_STATUS", .glob, 0x30140, [], false, [
    ⟨"rail_out", 0, 8, .w1c, 0, 0, 0xff⟩,
    ⟨"therm_locked", 8, 1, .ro, 0, 0, 1⟩,
    ⟨"reserved", 9, 55, .ro, 0, 0, 0x7fffffffffffff⟩]⟩,
  ⟨"PWR_CAL_STATUS", .glob, 0x30148, [], false, [
    ⟨"at_limit", 0, 32, .w1c, 0, 0, 0xffffffff⟩,
    ⟨"phy_at_limit", 32, 4, .w1c, 0, 0, 0xf⟩,
    ⟨"ilc_at_limit", 36, 1, .w1c, 0, 0, 1⟩,
    ⟨"reserved", 37, 11, .ro, 0, 0, 0x7ff⟩,
    ⟨"passes", 48, 16, .ro, 0, 0, 0xffff⟩]⟩]

/-- The Hallmark registers (Tables RM-5 to RM-7). -/
def rowsSEC : List RegRow := [
  ⟨"SEC_CTL", .glob, 0x40000, [], false, [
    ⟨"enable", 0, 1, .rws, 1, 0, 1⟩,
    ⟨"quote", 1, 1, .wo, 0, 0, 1⟩,
    ⟨"bind", 2, 1, .wo, 0, 0, 1⟩,
    ⟨"release", 3, 1, .wo, 0, 0, 1⟩,
    ⟨"svn_commit", 4, 1, .wo, 0, 0, 1⟩,
    ⟨"reserved", 5, 59, .ro, 0, 0, 0x7ffffffffffffff⟩]⟩,
  ⟨"SEC_STATUS", .glob, 0x40008, [], false, [
    ⟨"state", 0, 2, .ro, 0, 0, 3⟩,
    ⟨"busy", 2, 1, .ro, 0, 0, 1⟩,
    ⟨"reserved", 3, 5, .ro, 0, 0, 0x1f⟩,
    ⟨"result", 8, 8, .ro, 0, 0, 0xff⟩,
    ⟨"sessions_left", 16, 11, .ro, 0, 0, 0x7ff⟩,
    ⟨"quotes_left", 27, 16, .ro, 0, 0, 0xffff⟩,
    ⟨"fw_svn", 43, 7, .ro, 0, 0, 0x7f⟩,
    ⟨"svn_min", 50, 7, .ro, 0, 0, 0x7f⟩,
    ⟨"reserved", 57, 7, .ro, 0, 0, 0x7f⟩]⟩,
  ⟨"SEC_KEY_ID", .glob, 0x40010, [], false, [
    ⟨"key_id", 0, 64, .ro, 0, 0, 0xffffffffffffffff⟩]⟩,
  ⟨"SEC_QUOTE_DST", .glob, 0x40018, [], false, [
    ⟨"dst", 0, 64, .rws, 0, 0, 0xffffffffffffffff⟩]⟩,
  ⟨"SEC_CFG", .glob, 0x40020, [], false, [
    ⟨"drain_ms", 0, 16, .rw, 0x64, 1, 0xffff⟩,
    ⟨"reserved", 16, 48, .ro, 0, 0, 0xffffffffffff⟩]⟩,
  ⟨"SEC_MBOX", .glob, 0x40100, [(8, 64)], false, [
    ⟨"data", 0, 64, .rw, 0, 0, 0xffffffffffffffff⟩]⟩,
  ⟨"SEC_TENANT", .glob, 0x40300, [(8, 16)], false, [
    ⟨"entry", 0, 16, .ro, 0, 0, 0xffff⟩,
    ⟨"node", 16, 16, .ro, 0, 0, 0xffff⟩,
    ⟨"reserved", 32, 32, .ro, 0, 0, 0xffffffff⟩]⟩,
  ⟨"SEC_SEAL_MAP", .glob, 0x41000, [(8, 224)], false, [
    ⟨"tenant", 0, 64, .ro, 0, 0, 0xffffffffffffffff⟩]⟩]

/-- The Loupe registers, part 0 (Tables RM-5 to RM-7). -/
def rowsLPE0 : List RegRow := [
  ⟨"LPE_CTL", .glob, 0x50000, [], false, [
    ⟨"enable", 0, 1, .rws, 1, 0, 1⟩,
    ⟨"reserved", 1, 63, .ro, 0, 0, 0x7fffffffffffffff⟩]⟩,
  ⟨"LPE_TRC_CTL", .glob, 0x50008, [], false, [
    ⟨"enable", 0, 1, .rws, 0, 0, 1⟩,
    ⟨"trigger", 1, 1, .wo, 0, 0, 1⟩,
    ⟨"rearm", 2, 1, .wo, 0, 0, 1⟩,
    ⟨"reserved", 3, 61, .ro, 0, 0, 0x1fffffffffffffff⟩]⟩,
  ⟨"LPE_TRC_CFG", .glob, 0x50010, [], false, [
    ⟨"dest", 0, 1, .rwl, 0, 0, 1⟩,
    ⟨"setting", 1, 5, .rwl, 0, 0, 0x1f⟩,
    ⟨"mode", 6, 1, .rwl, 0, 0, 1⟩,
    ⟨"all_desc", 7, 1, .rw, 0, 0, 1⟩,
    ⟨"all_ops", 8, 1, .rw, 0, 0, 1⟩,
    ⟨"stop_on_trigger", 9, 1, .rw, 0, 0, 1⟩,
    ⟨"trig_on_stop", 10, 1, .rw, 0, 0, 1⟩,
    ⟨"trig_on_wdog", 11, 1, .rw, 1, 0, 1⟩,
    ⟨"reserved", 12, 4, .ro, 0, 0, 0xf⟩,
    ⟨"cap_pct", 16, 7, .rw, 2, 1, 0x64⟩,
    ⟨"reserved", 23, 41, .ro, 0, 0, 0x1ffffffffff⟩]⟩,
  ⟨"LPE_TRC_POST", .glob, 0x50018, [], false, [
    ⟨"post", 0, 32, .rwl, 0x1000, 1, 0xffffffff⟩,
    ⟨"reserved", 32, 32, .ro, 0, 0, 0xffffffff⟩]⟩,
  ⟨"LPE_TRC_SEG", .glob, 0x50020, [], false, [
    ⟨"base", 0, 44, .rwl, 0, 0, 0xfffffffffff⟩,
    ⟨"reserved", 44, 20, .ro, 0, 0, 0xfffff⟩]⟩,
  ⟨"LPE_TRC_LEN", .glob, 0x50028, [], false, [
    ⟨"length", 0, 37, .rwl, 0, 0, 0x1fffffffff⟩,
    ⟨"reserved", 37, 27, .ro, 0, 0, 0x7ffffff⟩]⟩,
  ⟨"LPE_TRC_EN", .glob, 0x50030, [], false, [
    ⟨"groups", 0, 64, .rw, 0, 0, 0xffffffffffffffff⟩]⟩,
  ⟨"LPE_TRC_STATUS", .glob, 0x50038, [], false, [
    ⟨"state", 0, 3, .ro, 0, 0, 7⟩,
    ⟨"bank_lost", 3, 1, .ro, 0, 0, 1⟩,
    ⟨"reserved", 4, 28, .ro, 0, 0, 0xfffffff⟩,
    ⟨"capacity", 32, 32, .ro, 0, 0, 0xffffffff⟩]⟩,
  ⟨"LPE_TRC_PTR", .glob, 0x50040, [], false, [
    ⟨"next", 0, 32, .ro, 0, 0, 0xffffffff⟩,
    ⟨"oldest", 32, 32, .ro, 0, 0, 0xffffffff⟩]⟩,
  ⟨"LPE_TRC_TRIG", .glob, 0x50048, [], false, [
    ⟨"slot", 0, 32, .ro, 0, 0, 0xffffffff⟩,
    ⟨"post_eff", 32, 32, .ro, 0, 0, 0xffffffff⟩]⟩,
  ⟨"LPE_TRC_CNT", .glob, 0x50050, [], false, [
    ⟨"written", 0, 32, .ro, 0, 0, 0xffffffff⟩,
    ⟨"capped", 32, 16, .ro, 0, 0, 0xffff⟩,
    ⟨"not_written", 48, 16, .ro, 0, 0, 0xffff⟩]⟩,
  ⟨"LPE_TRC_CNT2", .glob, 0x50058, [], false, [
    ⟨"overflow", 0, 16, .ro, 0, 0, 0xffff⟩,
    ⟨"extra_triggers", 16, 16, .ro, 0, 0, 0xffff⟩,
    ⟨"reserved", 32, 32, .ro, 0, 0, 0xffffffff⟩]⟩,
  ⟨"LPE_MARK", .glob, 0x50060, [], false, [
    ⟨"value", 0, 64, .wo, 0, 0, 0xffffffffffffffff⟩]⟩,
  ⟨"LPE_STOP", .glob, 0x50068, [], false, [
    ⟨"stop", 0, 1, .wo, 0, 0, 1⟩,
    ⟨"resume", 1, 1, .wo, 0, 0, 1⟩,
    ⟨"stopped", 2, 1, .ro, 0, 0, 1⟩,
    ⟨"resumable", 3, 1, .ro, 1, 0, 1⟩,
    ⟨"pin_en", 4, 1, .rw, 1, 0, 1⟩,
    ⟨"cause", 5, 3, .ro, 0, 0, 7⟩,
    ⟨"result", 8, 8, .ro, 0, 0, 0xff⟩,
    ⟨"reserved", 16, 48, .ro, 0, 0, 0xffffffffffff⟩]⟩,
  ⟨"LPE_STOP_NT", .glob, 0x50070, [], false, [
    ⟨"nt", 0, 64, .ro, 0, 0, 0xffffffffffffffff⟩]⟩,
  ⟨"LPE_SNAP_CTL", .glob, 0x50078, [], false, [
    ⟨"go", 0, 1, .wo, 0, 0, 1⟩,
    ⟨"busy", 1, 1, .ro, 0, 0, 1⟩,
    ⟨"reserved", 2, 62, .ro, 0, 0, 0x3fffffffffffffff⟩]⟩]

/-- The Loupe registers, part 1 (Tables RM-5 to RM-7). -/
def rowsLPE1 : List RegRow := [
  ⟨"LPE_SNAP_NT", .glob, 0x50080, [], false, [
    ⟨"nt", 0, 64, .ro, 0, 0, 0xffffffffffffffff⟩]⟩,
  ⟨"LPE_DUMP", .glob, 0x50088, [], false, [
    ⟨"base", 0, 44, .rws, 0, 0, 0xfffffffffff⟩,
    ⟨"reserved", 44, 20, .ro, 0, 0, 0xfffff⟩]⟩,
  ⟨"LPE_DUMP_LEN", .glob, 0x50090, [], false, [
    ⟨"length", 0, 36, .rws, 0, 0, 0xfffffffff⟩,
    ⟨"reserved", 36, 28, .ro, 0, 0, 0xfffffff⟩]⟩,
  ⟨"LPE_DUMP_CTL", .glob, 0x50098, [], false, [
    ⟨"go", 0, 1, .wo, 0, 0, 1⟩,
    ⟨"banks", 1, 1, .rw, 0, 0, 1⟩,
    ⟨"busy", 2, 1, .ro, 0, 0, 1⟩,
    ⟨"reserved", 3, 5, .ro, 0, 0, 0x1f⟩,
    ⟨"result", 8, 8, .ro, 0, 0, 0xff⟩,
    ⟨"seq", 16, 32, .ro, 0, 0, 0xffffffff⟩,
    ⟨"reserved", 48, 16, .ro, 0, 0, 0xffff⟩]⟩,
  ⟨"LPE_WDOG", .glob, 0x500a0, [(8, 4)], false, [
    ⟨"timeout_ms", 0, 16, .rw, 0x1f4, 0, 0xffff⟩,
    ⟨"rearm", 16, 1, .wo, 0, 0, 1⟩,
    ⟨"expired", 17, 1, .ro, 0, 0, 1⟩,
    ⟨"dumping", 18, 1, .ro, 0, 0, 1⟩,
    ⟨"reserved", 19, 13, .ro, 0, 0, 0x1fff⟩,
    ⟨"dumps", 32, 32, .ro, 0, 0, 0xffffffff⟩]⟩,
  ⟨"LPE_FIX", .glob, 0x50100, [(0x20, 4), (8, 4)], false, [
    ⟨"w0 cycles; w1 half_cycles; w2 stop_ns; w3 snap_cycles", 0, 64, .ro, 0, 0, 0xffffffffffffffff⟩]⟩,
  ⟨"LPE_FILT0", .glob, 0x50200, [(0x100, 4), (0x10, 16)], false, [
    ⟨"layer_lo", 0, 16, .rw, 0, 0, 0xffff⟩,
    ⟨"layer_hi", 16, 16, .rw, 0xffff, 0, 0xffff⟩,
    ⟨"op_id", 32, 16, .rw, 0, 0, 0xffff⟩,
    ⟨"op_mask", 48, 16, .rw, 0, 0, 0xffff⟩]⟩,
  ⟨"LPE_FILT1", .glob, 0x50208, [(0x100, 4), (0x10, 16)], false, [
    ⟨"client", 0, 9, .rw, 0, 0, 0x1ff⟩,
    ⟨"client_en", 9, 1, .rw, 0, 0, 1⟩,
    ⟨"reserved", 10, 54, .ro, 0, 0, 0x3fffffffffffff⟩]⟩,
  ⟨"LPE_CMP0", .glob, 0x50600, [(0x80, 4), (0x10, 8)], false, [
    ⟨"value", 0, 64, .rw, 0, 0, 0xffffffffffffffff⟩]⟩,
  ⟨"LPE_CMP1", .glob, 0x50608, [(0x80, 4), (0x10, 8)], false, [
    ⟨"counter", 0, 9, .rw, 0, 0, 0x1ff⟩,
    ⟨"enable", 9, 1, .rw, 0, 0, 1⟩,
    ⟨"hit", 10, 1, .w1c, 0, 0, 1⟩,
    ⟨"reserved", 11, 53, .ro, 0, 0, 0x1fffffffffffff⟩]⟩,
  ⟨"LPE_SEL", .glob, 0x54000, [(0x1000, 4), (8, 512)], false, [
    ⟨"event", 0, 12, .rw, 0, 0, 0xfff⟩,
    ⟨"src_class", 12, 4, .rw, 0, 0, 0xf⟩,
    ⟨"src_index", 16, 12, .rw, 0, 0, 0xfff⟩,
    ⟨"class_any", 28, 1, .rw, 1, 0, 1⟩,
    ⟨"index_any", 29, 1, .rw, 1, 0, 1⟩,
    ⟨"filter", 30, 4, .rw, 0, 0, 0xf⟩,
    ⟨"filt_en", 34, 1, .rw, 0, 0, 1⟩,
    ⟨"trig", 35, 1, .rw, 0, 0, 1⟩,
    ⟨"enable", 36, 1, .rw, 0, 0, 1⟩,
    ⟨"reserved", 37, 27, .ro, 0, 0, 0x7ffffff⟩]⟩,
  ⟨"LPE_CTR", .glob, 0x58000, [(0x1000, 4), (8, 512)], false, [
    ⟨"count", 0, 64, .rw, 0, 0, 0xffffffffffffffff⟩]⟩,
  ⟨"LPE_SNAP", .glob, 0x5c000, [(0x1000, 4), (8, 512)], false, [
    ⟨"count", 0, 64, .ro, 0, 0, 0xffffffffffffffff⟩]⟩]

/-- The Loupe registers. -/
def rowsLPE : List RegRow := rowsLPE0 ++ rowsLPE1

/-- The event registers (Tables RM-5 to RM-7). -/
def rowsEVT : List RegRow := [
  ⟨"EVT_CTL", .glob, 0x60000, [], false, [
    ⟨"enable", 0, 1, .rws, 0, 0, 1⟩,
    ⟨"reserved", 1, 7, .ro, 0, 0, 0x7f⟩,
    ⟨"ring_log2", 8, 5, .rwl, 0xa, 0, 0x1f⟩,
    ⟨"reserved", 13, 51, .ro, 0, 0, 0x7ffffffffffff⟩]⟩,
  ⟨"EVT_RING_BASE", .glob, 0x60008, [], false, [
    ⟨"base", 0, 64, .rwl, 0, 0, 0xffffffffffffffff⟩]⟩,
  ⟨"EVT_RING_PTR", .glob, 0x60010, [], false, [
    ⟨"head", 0, 32, .rw, 0, 0, 0xffffffff⟩,
    ⟨"tail", 32, 32, .ro, 0, 0, 0xffffffff⟩]⟩,
  ⟨"EVT_PENDING", .glob, 0x60018, [], false, [
    ⟨"reserved", 0, 1, .ro, 0, 0, 1⟩,
    ⟨"pending", 1, 15, .w1c, 0, 0, 0x7fff⟩,
    ⟨"reserved", 16, 48, .ro, 0, 0, 0xffffffffffff⟩]⟩,
  ⟨"EVT_MASK", .glob, 0x60020, [], false, [
    ⟨"reserved", 0, 1, .ro, 0, 0, 1⟩,
    ⟨"mask", 1, 15, .rw, 0, 0, 0x7fff⟩,
    ⟨"reserved", 16, 48, .ro, 0, 0, 0xffffffffffff⟩]⟩,
  ⟨"EVT_CNT", .glob, 0x60028, [], false, [
    ⟨"dropped", 0, 32, .ro, 0, 0, 0xffffffff⟩,
    ⟨"queued", 32, 9, .ro, 0, 0, 0x1ff⟩,
    ⟨"reserved", 41, 22, .ro, 0, 0, 0x3fffff⟩,
    ⟨"lost", 63, 1, .w1c, 0, 0, 1⟩]⟩,
  ⟨"EVT_NOTIFY", .glob, 0x60030, [], false, [
    ⟨"target", 0, 50, .rw, 0, 0, 0x3ffffffffffff⟩,
    ⟨"holdoff_us", 50, 12, .rw, 0xa, 1, 0xfff⟩,
    ⟨"reserved", 62, 1, .ro, 0, 0, 1⟩,
    ⟨"enable", 63, 1, .rw, 0, 0, 1⟩]⟩,
  ⟨"EVT_FATAL", .glob, 0x60038, [], false, [
    ⟨"cause", 0, 4, .ro, 0, 0, 0xf⟩,
    ⟨"quadrant", 4, 8, .ro, 0, 0, 0xff⟩,
    ⟨"reserved", 12, 52, .ro, 0, 0, 0xfffffffffffff⟩]⟩,
  ⟨"EVT_FATAL_NT", .glob, 0x60040, [], false, [
    ⟨"nt", 0, 64, .ro, 0, 0, 0xffffffffffffffff⟩]⟩]

/-- The pairing registers (Tables RM-5 to RM-7). -/
def rowsPAI : List RegRow := [
  ⟨"PAI_CTL", .glob, 0x70000, [], false, [
    ⟨"enable", 0, 1, .rws, 0, 0, 1⟩,
    ⟨"init_active", 1, 1, .rwl, 0, 0, 1⟩,
    ⟨"fence", 2, 1, .wo, 0, 0, 1⟩,
    ⟨"grant", 3, 1, .wo, 0, 0, 1⟩,
    ⟨"handover", 4, 1, .wo, 0, 0, 1⟩,
    ⟨"reserved", 5, 11, .ro, 0, 0, 0x7ff⟩,
    ⟨"partner", 16, 16, .rwl, 0, 0, 0xffff⟩,
    ⟨"mirror_client", 32, 9, .rwl, 0, 0, 0x1ff⟩,
    ⟨"reserved", 41, 23, .ro, 0, 0, 0x7fffff⟩]⟩,
  ⟨"PAI_CFG", .glob, 0x70008, [], false, [
    ⟨"hb_tc", 0, 3, .rw, 6, 0, 7⟩,
    ⟨"reserved", 3, 5, .ro, 0, 0, 0x1f⟩,
    ⟨"m1_lag_ms", 8, 8, .rw, 0xa, 1, 0xa⟩,
    ⟨"claim_ms", 16, 16, .rw, 0xa, 1, 0xffff⟩,
    ⟨"reserved", 32, 32, .ro, 0, 0, 0xffffffff⟩]⟩,
  ⟨"PAI_JOURNAL", .glob, 0x70010, [], false, [
    ⟨"base", 0, 44, .rwl, 0, 0, 0xfffffffffff⟩,
    ⟨"reserved", 44, 20, .ro, 0, 0, 0xfffff⟩]⟩,
  ⟨"PAI_STATUS", .glob, 0x70018, [], false, [
    ⟨"role", 0, 3, .ro, 0, 0, 7⟩,
    ⟨"pin_ok", 3, 1, .ro, 0, 0, 1⟩,
    ⟨"fab_ok", 4, 1, .ro, 0, 0, 1⟩,
    ⟨"degraded", 5, 1, .w1c, 0, 0, 1⟩,
    ⟨"reserved", 6, 2, .ro, 0, 0, 3⟩,
    ⟨"m1_lag_us", 8, 24, .ro, 0, 0, 0xffffff⟩,
    ⟨"term", 32, 32, .ro, 0, 0, 0xffffffff⟩]⟩,
  ⟨"PAI_SYNC", .glob, 0x70020, [], false, [
    ⟨"watermark", 0, 14, .ro, 0, 0, 0x3fff⟩,
    ⟨"reserved", 14, 50, .ro, 0, 0, 0x3ffffffffffff⟩]⟩,
  ⟨"PAI_CNT", .glob, 0x70028, [], false, [
    ⟨"takeovers", 0, 16, .ro, 0, 0, 0xffff⟩,
    ⟨"retries", 16, 16, .ro, 0, 0, 0xffff⟩,
    ⟨"hb_bad", 32, 16, .ro, 0, 0, 0xffff⟩,
    ⟨"reexec", 48, 16, .ro, 0, 0, 0xffff⟩]⟩,
  ⟨"PAI_DECLARE_NT", .glob, 0x70030, [], false, [
    ⟨"nt", 0, 64, .ro, 0, 0, 0xffffffffffffffff⟩]⟩,
  ⟨"PAI_SERVICE_NT", .glob, 0x70038, [], false, [
    ⟨"nt", 0, 64, .ro, 0, 0, 0xffffffffffffffff⟩]⟩,
  ⟨"PAI_CLIENT", .glob, 0x70100, [(8, 8)], false, [
    ⟨"paired", 0, 64, .rwl, 0, 0, 0xffffffffffffffff⟩]⟩,
  ⟨"PAI_MREGION", .glob, 0x70200, [(8, 64)], false, [
    ⟨"first", 0, 14, .rwl, 0, 0, 0x3fff⟩,
    ⟨"count", 14, 14, .rwl, 0, 0, 0x3fff⟩,
    ⟨"class", 28, 2, .rwl, 0, 0, 3⟩,
    ⟨"valid", 30, 1, .rwl, 0, 0, 1⟩,
    ⟨"reserved", 31, 33, .ro, 0, 0, 0x1ffffffff⟩]⟩]

/-- The router registers (Tables RM-5 to RM-7). -/
def rowsRTE : List RegRow := [
  ⟨"RTE_ENTRY", .glob, 0x400000, [(0x40000, 2), (8, 32768)], false, [
    ⟨"even", 0, 32, .rwl, 0x3f, 0, 0xffffffff⟩,
    ⟨"odd", 32, 32, .rwl, 0x3f, 0, 0xffffffff⟩]⟩,
  ⟨"RTE_CTL", .glob, 0x480000, [], false, [
    ⟨"node", 0, 16, .rwl, 0, 0, 0xffff⟩,
    ⟨"enable", 16, 1, .rws, 0, 0, 1⟩,
    ⟨"inj_epoch", 17, 1, .rws, 0, 0, 1⟩,
    ⟨"auto_retire", 18, 1, .rw, 1, 0, 1⟩,
    ⟨"fm_any", 19, 1, .rw, 1, 0, 1⟩,
    ⟨"reserved", 20, 4, .ro, 0, 0, 0xf⟩,
    ⟨"hop_limit", 24, 8, .rw, 0x40, 1, 0xff⟩,
    ⟨"fm_node", 32, 16, .rw, 0, 0, 0xffff⟩,
    ⟨"reserved", 48, 16, .ro, 0, 0, 0xffff⟩]⟩,
  ⟨"RTE_VER", .glob, 0x480008, [], false, [
    ⟨"valid0", 0, 1, .rws, 0, 0, 1⟩,
    ⟨"valid1", 1, 1, .rws, 0, 0, 1⟩,
    ⟨"draining", 2, 1, .ro, 0, 0, 1⟩,
    ⟨"reserved", 3, 61, .ro, 0, 0, 0x1fffffffffffffff⟩]⟩,
  ⟨"RTE_TIMING", .glob, 0x480010, [], false, [
    ⟨"drain_us", 0, 16, .rws, 0x64, 0, 0xffff⟩,
    ⟨"lifetime_us", 16, 16, .rws, 0x32, 0, 0xffff⟩,
    ⟨"tag_timeout_us", 32, 16, .rws, 0x3e8, 0, 0xffff⟩,
    ⟨"give_up_ms", 48, 16, .rw, 0x64, 1, 0xffff⟩]⟩,
  ⟨"RTE_FLIP_NT", .glob, 0x480018, [], false, [
    ⟨"nt", 0, 64, .ro, 0, 0, 0xffffffffffffffff⟩]⟩,
  ⟨"RTE_ALIAS", .glob, 0x480020, [], false, [
    ⟨"alias", 0, 16, .rwl, 0, 0, 0xffff⟩,
    ⟨"valid", 16, 1, .rw, 0, 0, 1⟩,
    ⟨"reserved", 17, 47, .ro, 0, 0, 0x7fffffffffff⟩]⟩,
  ⟨"RTE_CNT0", .glob, 0x480028, [], false, [
    ⟨"no_route", 0, 16, .ro, 0, 0, 0xffff⟩,
    ⟨"ttl", 16, 16, .ro, 0, 0, 0xffff⟩,
    ⟨"epoch_miss", 32, 16, .ro, 0, 0, 0xffff⟩,
    ⟨"truncated", 48, 16, .ro, 0, 0, 0xffff⟩]⟩,
  ⟨"RTE_CNT1", .glob, 0x480030, [], false, [
    ⟨"malformed", 0, 12, .ro, 0, 0, 0xfff⟩,
    ⟨"stale_gen", 12, 12, .ro, 0, 0, 0xfff⟩,
    ⟨"stale_inc", 24, 12, .ro, 0, 0, 0xfff⟩,
    ⟨"pcrc_err", 36, 16, .ro, 0, 0, 0xffff⟩,
    ⟨"ctl_dropped", 52, 12, .ro, 0, 0, 0xfff⟩]⟩,
  ⟨"RTE_TAG_STATUS", .glob, 0x480040, [(8, 4)], false, [
    ⟨"outstanding", 0, 11, .ro, 0, 0, 0x7ff⟩,
    ⟨"reserved", 11, 5, .ro, 0, 0, 0x1f⟩,
    ⟨"quarantined", 16, 11, .ro, 0, 0, 0x7ff⟩,
    ⟨"reserved", 27, 5, .ro, 0, 0, 0x1f⟩,
    ⟨"timeouts", 32, 32, .ro, 0, 0, 0xffffffff⟩]⟩]

/-- The queue registers (Tables RM-5 to RM-7). -/
def rowsQUE : List RegRow := [
  ⟨"QUE_CTL", .quad, 0, [], false, [
    ⟨"enable", 0, 1, .rws, 0, 0, 1⟩,
    ⟨"reserved", 1, 63, .ro, 0, 0, 0x7fffffffffffffff⟩]⟩,
  ⟨"QUE_DB_CNT", .quad, 8, [], false, [
    ⟨"stale", 0, 20, .ro, 0, 0, 0xfffff⟩,
    ⟨"invalid", 20, 20, .ro, 0, 0, 0xfffff⟩,
    ⟨"rejected", 40, 20, .ro, 0, 0, 0xfffff⟩,
    ⟨"reserved", 60, 4, .ro, 0, 0, 0xf⟩]⟩,
  ⟨"QUE_RETIRE", .quad, 0x10, [], false, [
    ⟨"client", 0, 9, .rw, 0, 0, 0x1ff⟩,
    ⟨"go", 9, 1, .wo, 0, 0, 1⟩,
    ⟨"busy", 10, 1, .ro, 0, 0, 1⟩,
    ⟨"reserved", 11, 53, .ro, 0, 0, 0x1fffffffffffff⟩]⟩,
  ⟨"QUE_CLIENT", .quad, 0x1000, [(8, 128)], false, [
    ⟨"enable", 0, 1, .rws, 0, 0, 1⟩,
    ⟨"priv", 1, 1, .rwl, 0, 0, 1⟩,
    ⟨"fabric_db", 2, 1, .rwl, 0, 0, 1⟩,
    ⟨"reserved", 3, 13, .ro, 0, 0, 0x1fff⟩,
    ⟨"node", 16, 16, .rwl, 0, 0, 0xffff⟩,
    ⟨"incarnation", 32, 7, .ro, 0, 0, 0x7f⟩,
    ⟨"reserved", 39, 25, .ro, 0, 0, 0x1ffffff⟩]⟩,
  ⟨"QUE_POL_RATE", .quad, 0x2000, [(0x20, 128)], false, [
    ⟨"rate_mbs", 0, 16, .rws, 0, 0, 0xffff⟩,
    ⟨"tc", 16, 3, .rws, 0, 0, 7⟩,
    ⟨"reserved", 19, 45, .ro, 0, 0, 0x1fffffffffff⟩]⟩,
  ⟨"QUE_POL_BURST", .quad, 0x2008, [(0x20, 128)], false, [
    ⟨"burst", 0, 24, .rws, 0x10000, 0, 0xffffff⟩,
    ⟨"reserved", 24, 40, .ro, 0, 0, 0xffffffffff⟩]⟩,
  ⟨"QUE_POL_CNT", .quad, 0x2010, [(0x20, 128)], false, [
    ⟨"dropped", 0, 32, .ro, 0, 0, 0xffffffff⟩,
    ⟨"notices", 32, 16, .ro, 0, 0, 0xffff⟩,
    ⟨"reserved", 48, 16, .ro, 0, 0, 0xffff⟩]⟩,
  ⟨"QUE_QP_SQ_BASE", .quad, 0x10000, [(0x40, 1024)], false, [
    ⟨"base", 0, 64, .rwl, 0, 0, 0xffffffffffffffff⟩]⟩,
  ⟨"QUE_QP_CQ_BASE", .quad, 0x10008, [(0x40, 1024)], false, [
    ⟨"base", 0, 64, .rwl, 0, 0, 0xffffffffffffffff⟩]⟩,
  ⟨"QUE_QP_CFG", .quad, 0x10010, [(0x40, 1024)], false, [
    ⟨"enable", 0, 1, .rws, 0, 0, 1⟩,
    ⟨"reserved", 1, 7, .ro, 0, 0, 0x7f⟩,
    ⟨"ring_log2", 8, 5, .rwl, 6, 0, 0x1f⟩,
    ⟨"reserved", 13, 3, .ro, 0, 0, 7⟩,
    ⟨"max_inflight", 16, 7, .rwl, 0x10, 0, 0x7f⟩,
    ⟨"reserved", 23, 1, .ro, 0, 0, 1⟩,
    ⟨"weight", 24, 4, .rw, 1, 1, 0xf⟩,
    ⟨"reserved", 28, 36, .ro, 0, 0, 0xfffffffff⟩]⟩,
  ⟨"QUE_QP_EV", .quad, 0x10018, [(0x40, 1024)], false, [
    ⟨"target", 0, 50, .rwl, 0, 0, 0x3ffffffffffff⟩,
    ⟨"reserved", 50, 13, .ro, 0, 0, 0x1fff⟩,
    ⟨"enable", 63, 1, .rwl, 0, 0, 1⟩]⟩,
  ⟨"QUE_QP_SQ_PTR", .quad, 0x10020, [(0x40, 1024)], false, [
    ⟨"tail", 0, 32, .ro, 0, 0, 0xffffffff⟩,
    ⟨"fetched", 32, 32, .ro, 0, 0, 0xffffffff⟩]⟩,
  ⟨"QUE_QP_CQ_PTR", .quad, 0x10028, [(0x40, 1024)], false, [
    ⟨"head", 0, 32, .ro, 0, 0, 0xffffffff⟩,
    ⟨"inflight", 32, 16, .ro, 0, 0, 0xffff⟩,
    ⟨"reserved", 48, 16, .ro, 0, 0, 0xffff⟩]⟩,
  ⟨"QUE_QP_CTL", .quad, 0x10030, [(0x40, 1024)], false, [
    ⟨"reset", 0, 1, .wo, 0, 0, 1⟩,
    ⟨"busy", 1, 1, .ro, 0, 0, 1⟩,
    ⟨"fetch_error", 2, 1, .ro, 0, 0, 1⟩,
    ⟨"reserved", 3, 61, .ro, 0, 0, 0x1fffffffffffffff⟩]⟩]

/-- The segment registers (Tables RM-5 to RM-7). -/
def rowsSEG : List RegRow := [
  ⟨"SEG_CTL", .quad, 0x20000, [], false, [
    ⟨"enable", 0, 1, .rws, 0, 0, 1⟩,
    ⟨"reserved", 1, 15, .ro, 0, 0, 0x7fff⟩,
    ⟨"timeout_ms", 16, 16, .rw, 0x3e8, 0, 0xffff⟩,
    ⟨"reserved", 32, 32, .ro, 0, 0, 0xffffffff⟩]⟩,
  ⟨"SEG_FAULT_CNT", .quad, 0x20008, [], false, [
    ⟨"opened", 0, 20, .ro, 0, 0, 0xfffff⟩,
    ⟨"joined", 20, 20, .ro, 0, 0, 0xfffff⟩,
    ⟨"ended", 40, 20, .ro, 0, 0, 0xfffff⟩,
    ⟨"reserved", 60, 4, .ro, 0, 0, 0xf⟩]⟩,
  ⟨"SEG_BMC_CNT", .quad, 0x20010, [], false, [
    ⟨"hits", 0, 32, .ro, 0, 0, 0xffffffff⟩,
    ⟨"misses", 32, 32, .ro, 0, 0, 0xffffffff⟩]⟩,
  ⟨"SEG_BMC_INV", .quad, 0x20018, [], false, [
    ⟨"client", 0, 9, .rw, 0, 0, 0x1ff⟩,
    ⟨"segment", 9, 3, .rw, 0, 0, 7⟩,
    ⟨"all_segments", 12, 1, .rw, 0, 0, 1⟩,
    ⟨"go", 13, 1, .wo, 0, 0, 1⟩,
    ⟨"busy", 14, 1, .ro, 0, 0, 1⟩,
    ⟨"reserved", 15, 49, .ro, 0, 0, 0x1ffffffffffff⟩]⟩,
  ⟨"SEG_FAULT_RESOLVE", .quad, 0x20020, [], false, [
    ⟨"index", 0, 6, .wo, 0, 0, 0x3f⟩,
    ⟨"reserved", 6, 2, .ro, 0, 0, 3⟩,
    ⟨"action", 8, 2, .wo, 0, 0, 3⟩,
    ⟨"reserved", 10, 54, .ro, 0, 0, 0x3fffffffffffff⟩]⟩,
  ⟨"SEG_FAULT_OPEN", .quad, 0x20028, [], false, [
    ⟨"open", 0, 64, .ro, 0, 0, 0xffffffffffffffff⟩]⟩,
  ⟨"SEG_FAULT_REC0", .quad, 0x21000, [(0x20, 64)], false, [
    ⟨"va", 0, 48, .ro, 0, 0, 0xffffffffffff⟩,
    ⟨"client", 48, 9, .ro, 0, 0, 0x1ff⟩,
    ⟨"segment", 57, 3, .ro, 0, 0, 7⟩,
    ⟨"write", 60, 1, .ro, 0, 0, 1⟩,
    ⟨"state", 61, 2, .ro, 0, 0, 3⟩,
    ⟨"reserved", 63, 1, .ro, 0, 0, 1⟩]⟩,
  ⟨"SEG_FAULT_REC1", .quad, 0x21008, [(0x20, 64)], false, [
    ⟨"waiters", 0, 64, .ro, 0, 0, 0xffffffffffffffff⟩]⟩,
  ⟨"SEG_FAULT_REC2", .quad, 0x21010, [(0x20, 64)], false, [
    ⟨"generation", 0, 32, .ro, 0, 0, 0xffffffff⟩,
    ⟨"page", 32, 23, .ro, 0, 0, 0x7fffff⟩,
    ⟨"reserved", 55, 9, .ro, 0, 0, 0x1ff⟩]⟩,
  ⟨"SEG_FAULT_REC3", .quad, 0x21018, [(0x20, 64)], false, [
    ⟨"open_nt", 0, 64, .ro, 0, 0, 0xffffffffffffffff⟩]⟩,
  ⟨"SEG_STALL", .quad, 0x22000, [(8, 64)], false, [
    ⟨"valid", 0, 1, .ro, 0, 0, 1⟩,
    ⟨"record", 1, 6, .ro, 0, 0, 0x3f⟩,
    ⟨"qp", 7, 10, .ro, 0, 0, 0x3ff⟩,
    ⟨"requester", 17, 9, .ro, 0, 0, 0x1ff⟩,
    ⟨"seq", 26, 32, .ro, 0, 0, 0xffffffff⟩,
    ⟨"reserved", 58, 6, .ro, 0, 0, 0x3f⟩]⟩,
  ⟨"SEG_ENTRY", .quad, 0x30000, [(0x200, 128), (0x40, 8), (8, 8)], false, [
    ⟨"word", 0, 64, .ro, 0, 0, 0xffffffffffffffff⟩]⟩]

/-- The stack registers (Tables RM-5 to RM-7). -/
def rowsSTK : List RegRow := [
  ⟨"STK_CTL", .quad, 0x40000, [], false, [
    ⟨"enable", 0, 1, .rws, 0, 0, 1⟩,
    ⟨"pool_mode", 1, 1, .rwl, 0, 0, 1⟩,
    ⟨"reserved", 2, 6, .ro, 0, 0, 0x3f⟩,
    ⟨"throttle_c", 8, 8, .rw, 0x5f, 0, 0xff⟩,
    ⟨"scrub_hours", 16, 8, .rw, 0x18, 1, 0xa8⟩,
    ⟨"reserved", 24, 40, .ro, 0, 0, 0xffffffffff⟩]⟩,
  ⟨"STK_SLAB_VIOL", .quad, 0x40008, [], false, [
    ⟨"count", 0, 20, .ro, 0, 0, 0xfffff⟩,
    ⟨"slab", 20, 14, .ro, 0, 0, 0x3fff⟩,
    ⟨"reserved", 34, 30, .ro, 0, 0, 0x3fffffff⟩]⟩,
  ⟨"STK_PORT_STATUS", .quad, 0x40100, [(8, 8)], false, [
    ⟨"state", 0, 3, .ro, 0, 0, 7⟩,
    ⟨"cause", 3, 4, .ro, 0, 0, 0xf⟩,
    ⟨"throttled", 7, 1, .ro, 0, 0, 1⟩,
    ⟨"refresh_2x", 8, 1, .ro, 0, 0, 1⟩,
    ⟨"temp", 9, 12, .ro, 0, 0, 0xfff⟩,
    ⟨"reserved", 21, 11, .ro, 0, 0, 0x7ff⟩,
    ⟨"hard_rows", 32, 16, .ro, 0, 0, 0xffff⟩,
    ⟨"reserved", 48, 16, .ro, 0, 0, 0xffff⟩]⟩,
  ⟨"STK_PORT_CTL", .quad, 0x40140, [(8, 8)], false, [
    ⟨"power", 0, 2, .rw, 0, 0, 3⟩,
    ⟨"reserved", 2, 62, .ro, 0, 0, 0x3fffffffffffffff⟩]⟩,
  ⟨"STK_ECC_CNT", .quad, 0x40180, [(8, 8)], false, [
    ⟨"corrected", 0, 24, .ro, 0, 0, 0xffffff⟩,
    ⟨"uncorrectable", 24, 20, .ro, 0, 0, 0xfffff⟩,
    ⟨"ondie", 44, 20, .ro, 0, 0, 0xfffff⟩]⟩,
  ⟨"STK_SLAB", .quad, 0x48000, [(8, 3584)], false, [
    ⟨"enable", 0, 1, .rws, 0, 0, 1⟩,
    ⟨"mode", 1, 2, .rwl, 0, 0, 3⟩,
    ⟨"home", 3, 5, .rwl, 0, 0, 0x1f⟩,
    ⟨"frame", 8, 14, .rwl, 0, 0, 0x3fff⟩,
    ⟨"state", 22, 2, .ro, 0, 0, 3⟩,
    ⟨"reserved", 24, 40, .ro, 0, 0, 0xffffffffff⟩]⟩]

/-- The Clasp registers (Tables RM-5 to RM-7). -/
def rowsCLS : List RegRow := [
  ⟨"CLS_STATUS", .quad, 0x80000, [], false, [
    ⟨"state", 0, 3, .ro, 0, 0, 7⟩,
    ⟨"failed", 3, 8, .ro, 0, 0, 0xff⟩,
    ⟨"reserved", 11, 53, .ro, 0, 0, 0x1fffffffffffff⟩]⟩,
  ⟨"CLS_CTL", .quad, 0x80008, [], false, [
    ⟨"stack", 0, 3, .rw, 0, 0, 7⟩,
    ⟨"fail", 3, 1, .wo, 0, 0, 1⟩,
    ⟨"reinstate", 4, 1, .wo, 0, 0, 1⟩,
    ⟨"busy", 5, 1, .ro, 0, 0, 1⟩,
    ⟨"reserved", 6, 58, .ro, 0, 0, 0x3ffffffffffffff⟩]⟩,
  ⟨"CLS_REBUILD", .quad, 0x80010, [], false, [
    ⟨"watermark", 0, 31, .ro, 0, 0, 0x7fffffff⟩,
    ⟨"reserved", 31, 1, .ro, 0, 0, 1⟩,
    ⟨"share", 32, 7, .rw, 0xa, 1, 0x64⟩,
    ⟨"reserved", 39, 25, .ro, 0, 0, 0x1ffffff⟩]⟩,
  ⟨"CLS_CFG", .quad, 0x80018, [], false, [
    ⟨"hard_fault_limit", 0, 16, .rw, 0x400, 0, 0xffff⟩,
    ⟨"reserved", 16, 48, .ro, 0, 0, 0xffffffffffff⟩]⟩,
  ⟨"CLS_CNT", .quad, 0x80020, [], false, [
    ⟨"reconstructed", 0, 32, .ro, 0, 0, 0xffffffff⟩,
    ⟨"parity_fixed", 32, 16, .ro, 0, 0, 0xffff⟩,
    ⟨"double", 48, 16, .ro, 0, 0, 0xffff⟩]⟩,
  ⟨"CLS_SCRUB", .quad, 0x80028, [], false, [
    ⟨"row", 0, 31, .ro, 0, 0, 0x7fffffff⟩,
    ⟨"reserved", 31, 1, .ro, 0, 0, 1⟩,
    ⟨"passes", 32, 16, .ro, 0, 0, 0xffff⟩,
    ⟨"reserved", 48, 16, .ro, 0, 0, 0xffff⟩]⟩,
  ⟨"CLS_LOG_STATUS", .quad, 0x80030, [], false, [
    ⟨"entries", 0, 9, .ro, 0, 0, 0x1ff⟩,
    ⟨"reserved", 9, 7, .ro, 0, 0, 0x7f⟩,
    ⟨"overflow", 16, 16, .ro, 0, 0, 0xffff⟩,
    ⟨"reserved", 32, 32, .ro, 0, 0, 0xffffffff⟩]⟩,
  ⟨"CLS_ROW_REPAIR", .quad, 0x80038, [], false, [
    ⟨"entry", 0, 8, .rw, 0, 0, 0xff⟩,
    ⟨"go", 8, 1, .wo, 0, 0, 1⟩,
    ⟨"busy", 9, 1, .ro, 0, 0, 1⟩,
    ⟨"result", 10, 1, .ro, 0, 0, 1⟩,
    ⟨"reserved", 11, 53, .ro, 0, 0, 0x1fffffffffffff⟩]⟩,
  ⟨"CLS_ROW_LOG", .quad, 0x81000, [(8, 256)], false, [
    ⟨"valid", 0, 1, .ro, 0, 0, 1⟩,
    ⟨"lost", 1, 8, .ro, 0, 0, 0xff⟩,
    ⟨"stale", 9, 1, .ro, 0, 0, 1⟩,
    ⟨"row", 10, 31, .ro, 0, 0, 0x7fffffff⟩,
    ⟨"reserved", 41, 23, .ro, 0, 0, 0x7fffff⟩]⟩]

/-- The bank registers (Tables RM-5 to RM-7). -/
def rowsBNK : List RegRow := [
  ⟨"BNK_CTL", .quad, 0x90000, [], false, [
    ⟨"enable", 0, 1, .rws, 1, 0, 1⟩,
    ⟨"test_enable", 1, 1, .rw, 1, 0, 1⟩,
    ⟨"test_march", 2, 2, .rwl, 0, 0, 3⟩,
    ⟨"reserved", 4, 4, .ro, 0, 0, 0xf⟩,
    ⟨"test_interval", 8, 16, .rw, 1, 1, 0xffff⟩,
    ⟨"reserved", 24, 40, .ro, 0, 0, 0xffffffffff⟩]⟩,
  ⟨"BNK_CNT", .quad, 0x90100, [(8, 8)], false, [
    ⟨"collisions", 0, 24, .ro, 0, 0, 0xffffff⟩,
    ⟨"corrected", 24, 20, .ro, 0, 0, 0xfffff⟩,
    ⟨"uncorrectable", 44, 12, .ro, 0, 0, 0xfff⟩,
    ⟨"test_fails", 56, 8, .ro, 0, 0, 0xff⟩]⟩,
  ⟨"BNK_FAULT", .quad, 0x90140, [(8, 8)], false, [
    ⟨"bank", 0, 6, .ro, 0, 0, 0x3f⟩,
    ⟨"tag", 6, 4, .ro, 0, 0, 0xf⟩,
    ⟨"kind", 10, 3, .ro, 0, 0, 7⟩,
    ⟨"reserved", 13, 3, .ro, 0, 0, 7⟩,
    ⟨"count", 16, 20, .ro, 0, 0, 0xfffff⟩,
    ⟨"reserved", 36, 28, .ro, 0, 0, 0xfffffff⟩]⟩,
  ⟨"BNK_BANK", .quad, 0x91000, [(0x200, 8), (8, 64)], false, [
    ⟨"owner", 0, 4, .rw, 0, 0, 0xf⟩,
    ⟨"power", 4, 2, .rw, 0, 0, 3⟩,
    ⟨"clear", 6, 1, .wo, 0, 0, 1⟩,
    ⟨"busy", 7, 1, .ro, 0, 0, 1⟩,
    ⟨"test_result", 8, 2, .ro, 0, 0, 3⟩,
    ⟨"repaired", 10, 1, .ro, 0, 0, 1⟩,
    ⟨"failed", 11, 1, .ro, 0, 0, 1⟩,
    ⟨"testing", 12, 1, .ro, 0, 0, 1⟩,
    ⟨"reserved", 13, 3, .ro, 0, 0, 7⟩,
    ⟨"written", 16, 13, .ro, 0, 0, 0x1fff⟩,
    ⟨"reserved", 29, 35, .ro, 0, 0, 0x7ffffffff⟩]⟩]

/-- The Facet registers (Tables RM-5 to RM-7). -/
def rowsFAC : List RegRow := [
  ⟨"FAC_CTL", .quad, 0xa0000, [], false, [
    ⟨"enable", 0, 1, .rws, 0, 0, 1⟩,
    ⟨"fill", 1, 1, .rwl, 1, 0, 1⟩,
    ⟨"reserved", 2, 6, .ro, 0, 0, 0x3f⟩,
    ⟨"portb_floor", 8, 8, .rw, 8, 1, 0xff⟩,
    ⟨"vec_floor", 16, 4, .rw, 4, 1, 0xf⟩,
    ⟨"reserved", 20, 44, .ro, 0, 0, 0xfffffffffff⟩]⟩,
  ⟨"FAC_STATUS", .quad, 0xa0008, [(8, 8)], false, [
    ⟨"active", 0, 8, .ro, 0, 0, 0xff⟩,
    ⟨"filling", 8, 8, .ro, 0, 0, 0xff⟩,
    ⟨"decoder_busy", 16, 1, .ro, 0, 0, 1⟩,
    ⟨"mover_busy", 17, 4, .ro, 0, 0, 0xf⟩,
    ⟨"reserved", 21, 43, .ro, 0, 0, 0x7ffffffffff⟩]⟩,
  ⟨"FAC_DEC_CNT", .quad, 0xa0100, [(8, 8)], false, [
    ⟨"bad_mask", 0, 20, .ro, 0, 0, 0xfffff⟩,
    ⟨"granules", 20, 44, .ro, 0, 0, 0xfffffffffff⟩]⟩,
  ⟨"FAC_DEC_STALL", .quad, 0xa0140, [(8, 8)], false, [
    ⟨"ring_full", 0, 32, .ro, 0, 0, 0xffffffff⟩,
    ⟨"portb_wait", 32, 32, .ro, 0, 0, 0xffffffff⟩]⟩,
  ⟨"FAC_ARRAY_CNT", .quad, 0xa1000, [(8, 64)], false, [
    ⟨"busy", 0, 48, .ro, 0, 0, 0xffffffffffff⟩,
    ⟨"reserved", 48, 16, .ro, 0, 0, 0xffff⟩]⟩,
  ⟨"FAC_FILL_CNT", .quad, 0xa1200, [(8, 64)], false, [
    ⟨"cycles", 0, 48, .ro, 0, 0, 0xffffffffffff⟩,
    ⟨"reserved", 48, 16, .ro, 0, 0, 0xffff⟩]⟩,
  ⟨"FAC_SKIP_CNT", .quad, 0xa1400, [(8, 64)], false, [
    ⟨"blocks", 0, 48, .ro, 0, 0, 0xffffffffffff⟩,
    ⟨"reserved", 48, 16, .ro, 0, 0, 0xffff⟩]⟩]

/-- The recipe registers (Tables RM-5 to RM-7). -/
def rowsRCP : List RegRow := [
  ⟨"RCP_CTL", .quad, 0xb0000, [], false, [
    ⟨"enable", 0, 1, .rws, 0, 0, 1⟩,
    ⟨"reserved", 1, 15, .ro, 0, 0, 0x7fff⟩,
    ⟨"recv_timeout_ms", 16, 16, .rw, 0x64, 1, 0xffff⟩,
    ⟨"send_retry_ms", 32, 16, .rw, 0xa, 1, 0xffff⟩,
    ⟨"reserved", 48, 16, .ro, 0, 0, 0xffff⟩]⟩,
  ⟨"RCP_STORE", .quad, 0xb0008, [], true, [
    ⟨"base", 0, 44, .rwl, 0, 0, 0xfffffffffff⟩,
    ⟨"reserved", 44, 20, .ro, 0, 0, 0xfffff⟩]⟩,
  ⟨"RCP_LOAD_SRC", .quad, 0xb0010, [], true, [
    ⟨"src", 0, 64, .rw, 0, 0, 0xffffffffffffffff⟩]⟩,
  ⟨"RCP_LOAD_CTL", .quad, 0xb0018, [], true, [
    ⟨"slot", 0, 10, .rw, 0, 0, 0x3ff⟩,
    ⟨"go", 10, 1, .wo, 0, 0, 1⟩,
    ⟨"unload", 11, 1, .wo, 0, 0, 1⟩,
    ⟨"busy", 12, 1, .ro, 0, 0, 1⟩,
    ⟨"reserved", 13, 51, .ro, 0, 0, 0x7ffffffffffff⟩]⟩,
  ⟨"RCP_LOAD_STATUS", .quad, 0xb0020, [], true, [
    ⟨"result", 0, 8, .ro, 0, 0, 0xff⟩,
    ⟨"index", 8, 8, .ro, 0, 0, 0xff⟩,
    ⟨"slot", 16, 10, .ro, 0, 0, 0x3ff⟩,
    ⟨"reserved", 26, 38, .ro, 0, 0, 0x3fffffffff⟩]⟩,
  ⟨"RCP_VALID", .quad, 0xb0100, [(8, 16)], true, [
    ⟨"valid", 0, 64, .ro, 0, 0, 0xffffffffffffffff⟩]⟩,
  ⟨"RCP_RUN", .quad, 0xb0200, [], false, [
    ⟨"running", 0, 1, .ro, 0, 0, 1⟩,
    ⟨"slot", 1, 10, .ro, 0, 0, 0x3ff⟩,
    ⟨"op", 11, 8, .ro, 0, 0, 0xff⟩,
    ⟨"layer_id", 19, 16, .ro, 0, 0, 0xffff⟩,
    ⟨"client", 35, 9, .ro, 0, 0, 0x1ff⟩,
    ⟨"qp", 44, 3, .ro, 0, 0, 7⟩,
    ⟨"reserved", 47, 17, .ro, 0, 0, 0x1ffff⟩]⟩,
  ⟨"RCP_CNT", .quad, 0xb0208, [], false, [
    ⟨"runs", 0, 32, .ro, 0, 0, 0xffffffff⟩,
    ⟨"recv_refused", 32, 16, .ro, 0, 0, 0xffff⟩,
    ⟨"send_failed", 48, 16, .ro, 0, 0, 0xffff⟩]⟩]

/-- The expert dispatch registers (Tables RM-5 to RM-7). -/
def rowsEXD : List RegRow := [
  ⟨"EXD_CTL", .quad, 0xc0000, [], false, [
    ⟨"enable", 0, 1, .rws, 0, 0, 1⟩,
    ⟨"spill_serve", 1, 1, .rw, 0, 0, 1⟩,
    ⟨"spill_tc", 2, 3, .rw, 5, 0, 7⟩,
    ⟨"reserved", 5, 11, .ro, 0, 0, 0x7ff⟩,
    ⟨"spill_timeout_us", 16, 16, .rw, 0x3e8, 1, 0xffff⟩,
    ⟨"answer_us", 32, 16, .rw, 0x14, 1, 0xffff⟩,
    ⟨"reserved", 48, 16, .ro, 0, 0, 0xffff⟩]⟩,
  ⟨"EXD_TABLE", .quad, 0xc0008, [], true, [
    ⟨"base", 0, 44, .rwl, 0, 0, 0xfffffffffff⟩,
    ⟨"reserved", 44, 20, .ro, 0, 0, 0xfffff⟩]⟩,
  ⟨"EXD_WORK", .quad, 0xc0010, [], true, [
    ⟨"base", 0, 44, .rwl, 0, 0, 0xfffffffffff⟩,
    ⟨"reserved", 44, 20, .ro, 0, 0, 0xfffff⟩]⟩,
  ⟨"EXD_SPILL_CFG", .quad, 0xc0018, [], true, [
    ⟨"max_pairs", 0, 16, .rw, 0x100, 0, 0xffff⟩,
    ⟨"reserved", 16, 48, .ro, 0, 0, 0xffffffffffff⟩]⟩,
  ⟨"EXD_STATUS", .quad, 0xc0020, [], false, [
    ⟨"phase", 0, 3, .ro, 0, 0, 7⟩,
    ⟨"entry", 3, 8, .ro, 0, 0, 0xff⟩,
    ⟨"groups", 11, 16, .ro, 0, 0, 0xffff⟩,
    ⟨"spill_open", 27, 16, .ro, 0, 0, 0xffff⟩,
    ⟨"reserved", 43, 21, .ro, 0, 0, 0x1fffff⟩]⟩,
  ⟨"EXD_CNT", .quad, 0xc0028, [], false, [
    ⟨"admitted", 0, 32, .ro, 0, 0, 0xffffffff⟩,
    ⟨"rerouted", 32, 16, .ro, 0, 0, 0xffff⟩,
    ⟨"dropped", 48, 16, .ro, 0, 0, 0xffff⟩]⟩,
  ⟨"EXD_CNT2", .quad, 0xc0030, [], false, [
    ⟨"spilled", 0, 24, .ro, 0, 0, 0xffffff⟩,
    ⟨"spill_refused", 24, 16, .ro, 0, 0, 0xffff⟩,
    ⟨"bad_choice", 40, 16, .ro, 0, 0, 0xffff⟩,
    ⟨"spill_lost", 56, 8, .ro, 0, 0, 0xff⟩]⟩,
  ⟨"EXD_SERVE_CNT", .quad, 0xc0038, [], true, [
    ⟨"served", 0, 32, .ro, 0, 0, 0xffffffff⟩,
    ⟨"refused", 32, 16, .ro, 0, 0, 0xffff⟩,
    ⟨"reserved", 48, 16, .ro, 0, 0, 0xffff⟩]⟩]

/-- The attention registers (Tables RM-5 to RM-7). -/
def rowsATN : List RegRow := [
  ⟨"ATN_CTL", .quad, 0xd0000, [], false, [
    ⟨"enable", 0, 1, .rws, 0, 0, 1⟩,
    ⟨"reserved", 1, 15, .ro, 0, 0, 0x7fff⟩,
    ⟨"exact_pages", 16, 16, .rw, 0, 0, 0xffff⟩,
    ⟨"reserved", 32, 32, .ro, 0, 0, 0xffffffff⟩]⟩,
  ⟨"ATN_STATUS", .quad, 0xd0008, [], false, [
    ⟨"running", 0, 1, .ro, 0, 0, 1⟩,
    ⟨"remaining", 1, 13, .ro, 0, 0, 0x1fff⟩,
    ⟨"reserved", 14, 50, .ro, 0, 0, 0x3ffffffffffff⟩]⟩,
  ⟨"ATN_CNT", .quad, 0xd0010, [], false, [
    ⟨"pages_read", 0, 32, .ro, 0, 0, 0xffffffff⟩,
    ⟨"pages_scored", 32, 32, .ro, 0, 0, 0xffffffff⟩]⟩,
  ⟨"ATN_CNT2", .quad, 0xd0018, [], false, [
    ⟨"missing", 0, 16, .ro, 0, 0, 0xffff⟩,
    ⟨"empty", 16, 16, .ro, 0, 0, 0xffff⟩,
    ⟨"append_noop", 32, 16, .ro, 0, 0, 0xffff⟩,
    ⟨"recomputed", 48, 16, .ro, 0, 0, 0xffff⟩]⟩,
  ⟨"ATN_FAULT", .quad, 0xd0020, [], false, [
    ⟨"kind", 0, 4, .ro, 0, 0, 0xf⟩,
    ⟨"reserved", 4, 12, .ro, 0, 0, 0xfff⟩,
    ⟨"sequence", 16, 12, .ro, 0, 0, 0xfff⟩,
    ⟨"reserved", 28, 36, .ro, 0, 0, 0xfffffffff⟩]⟩]

/-- The shared region registers (Tables RM-5 to RM-7). -/
def rowsSHR : List RegRow := [
  ⟨"SHR_CTL", .quad, 0xe0000, [], false, [
    ⟨"enable", 0, 1, .rws, 0, 0, 1⟩,
    ⟨"zero_fill", 1, 1, .rw, 1, 0, 1⟩,
    ⟨"reserved", 2, 14, .ro, 0, 0, 0x3fff⟩,
    ⟨"default_ms", 16, 20, .rw, 0x7d0, 1, 0x927c0⟩,
    ⟨"reserved", 36, 28, .ro, 0, 0, 0xfffffff⟩]⟩,
  ⟨"SHR_RGN_BASE", .quad, 0xe0008, [], false, [
    ⟨"base", 0, 44, .rwl, 0, 0, 0xfffffffffff⟩,
    ⟨"reserved", 44, 20, .ro, 0, 0, 0xfffff⟩]⟩,
  ⟨"SHR_RGN_ID", .quad, 0xe0010, [], false, [
    ⟨"id", 0, 64, .rw, 0, 0, 0xffffffffffffffff⟩]⟩,
  ⟨"SHR_RGN_CTL", .quad, 0xe0018, [], false, [
    ⟨"action", 0, 2, .wo, 0, 0, 3⟩,
    ⟨"busy", 2, 1, .ro, 0, 0, 1⟩,
    ⟨"result", 3, 3, .ro, 0, 0, 7⟩,
    ⟨"reserved", 6, 10, .ro, 0, 0, 0x3ff⟩,
    ⟨"version", 16, 32, .ro, 0, 0, 0xffffffff⟩,
    ⟨"reserved", 48, 16, .ro, 0, 0, 0xffff⟩]⟩,
  ⟨"SHR_LEASE_CTL", .quad, 0xe0020, [], false, [
    ⟨"index", 0, 8, .rw, 0, 0, 0xff⟩,
    ⟨"release", 8, 1, .wo, 0, 0, 1⟩,
    ⟨"revoke", 9, 1, .wo, 0, 0, 1⟩,
    ⟨"reserved", 10, 54, .ro, 0, 0, 0x3fffffffffffff⟩]⟩,
  ⟨"SHR_CNT", .quad, 0xe0028, [], false, [
    ⟨"published", 0, 24, .ro, 0, 0, 0xffffff⟩,
    ⟨"lost", 24, 16, .ro, 0, 0, 0xffff⟩,
    ⟨"expired", 40, 16, .ro, 0, 0, 0xffff⟩,
    ⟨"renew_refused", 56, 8, .ro, 0, 0, 0xff⟩]⟩,
  ⟨"SHR_LEASE0", .quad, 0xe1000, [(0x10, 256)], false, [
    ⟨"id", 0, 64, .ro, 0, 0, 0xffffffffffffffff⟩]⟩,
  ⟨"SHR_LEASE1", .quad, 0xe1008, [(0x10, 256)], false, [
    ⟨"client", 0, 9, .ro, 0, 0, 0x1ff⟩,
    ⟨"state", 9, 3, .ro, 0, 0, 7⟩,
    ⟨"segs", 12, 8, .ro, 0, 0, 0xff⟩,
    ⟨"expiry_ms", 20, 44, .ro, 0, 0, 0xfffffffffff⟩]⟩]

/-- The coherence registers (Tables RM-5 to RM-7). -/
def rowsCOH : List RegRow := [
  ⟨"COH_CTL", .quad, 0xf0000, [], false, [
    ⟨"enable", 0, 1, .rws, 0, 0, 1⟩,
    ⟨"reserved", 1, 63, .ro, 0, 0, 0x7fffffffffffffff⟩]⟩,
  ⟨"COH_CNT", .quad, 0xf0008, [], false, [
    ⟨"lookups", 0, 32, .ro, 0, 0, 0xffffffff⟩,
    ⟨"back_inv", 32, 16, .ro, 0, 0, 0xffff⟩,
    ⟨"bcast", 48, 16, .ro, 0, 0, 0xffff⟩]⟩,
  ⟨"COH_DIR_STATUS", .quad, 0xf0010, [], false, [
    ⟨"used", 0, 23, .ro, 0, 0, 0x7fffff⟩,
    ⟨"reserved", 23, 41, .ro, 0, 0, 0x1ffffffffff⟩]⟩,
  ⟨"COH_DIR_PROBE", .quad, 0xf0018, [], false, [
    ⟨"line", 0, 38, .rw, 0, 0, 0x3fffffffff⟩,
    ⟨"go", 38, 1, .wo, 0, 0, 1⟩,
    ⟨"busy", 39, 1, .ro, 0, 0, 1⟩,
    ⟨"reserved", 40, 24, .ro, 0, 0, 0xffffff⟩]⟩,
  ⟨"COH_DIR_RESULT", .quad, 0xf0020, [], false, [
    ⟨"entry", 0, 64, .ro, 0, 0, 0xffffffffffffffff⟩]⟩,
  ⟨"COH_LC_STATUS", .quad, 0xf0100, [(8, 8)], false, [
    ⟨"lines", 0, 19, .ro, 0, 0, 0x7ffff⟩,
    ⟨"reserved", 19, 13, .ro, 0, 0, 0x1fff⟩,
    ⟨"dirty", 32, 19, .ro, 0, 0, 0x7ffff⟩,
    ⟨"reserved", 51, 13, .ro, 0, 0, 0x1fff⟩]⟩,
  ⟨"COH_LLL_STATUS", .quad, 0xf0200, [], true, [
    ⟨"count", 0, 13, .ro, 0, 0, 0x1fff⟩,
    ⟨"head", 13, 12, .ro, 0, 0, 0xfff⟩,
    ⟨"reserved", 25, 7, .ro, 0, 0, 0x7f⟩,
    ⟨"overflow", 32, 16, .ro, 0, 0, 0xffff⟩,
    ⟨"events", 48, 16, .ro, 0, 0, 0xffff⟩]⟩,
  ⟨"COH_LLL_CTL", .quad, 0xf0208, [], true, [
    ⟨"consume", 0, 13, .wo, 0, 0, 0x1fff⟩,
    ⟨"clear_overflow", 13, 1, .wo, 0, 0, 1⟩,
    ⟨"reserved", 14, 50, .ro, 0, 0, 0x3ffffffffffff⟩]⟩,
  ⟨"COH_LLL0", .quad, 0x100000, [(0x10, 4096)], true, [
    ⟨"line", 0, 38, .ro, 0, 0, 0x3fffffffff⟩,
    ⟨"agent", 38, 4, .ro, 0, 0, 0xf⟩,
    ⟨"reserved", 42, 6, .ro, 0, 0, 0x3f⟩,
    ⟨"event", 48, 16, .ro, 0, 0, 0xffff⟩]⟩,
  ⟨"COH_LLL1", .quad, 0x100008, [(0x10, 4096)], true, [
    ⟨"nt", 0, 64, .ro, 0, 0, 0xffffffffffffffff⟩]⟩]

/-- The Ilcen registers (Tables RM-5 to RM-7). -/
def rowsILC : List RegRow := [
  ⟨"ILC_CTL", .quad, 0x110000, [], true, [
    ⟨"enable", 0, 1, .rws, 0, 0, 1⟩,
    ⟨"np8_compat", 1, 1, .rwl, 0, 0, 1⟩,
    ⟨"reserved", 2, 14, .ro, 0, 0, 0x3fff⟩,
    ⟨"snoop_timeout_us", 16, 16, .rw, 0x64, 1, 0xffff⟩,
    ⟨"crc_limit", 32, 8, .rw, 0x10, 1, 0xff⟩,
    ⟨"reserved", 40, 24, .ro, 0, 0, 0xffffff⟩]⟩,
  ⟨"ILC_STATUS", .quad, 0x110008, [], true, [
    ⟨"state", 0, 3, .ro, 0, 0, 7⟩,
    ⟨"reserved", 3, 5, .ro, 0, 0, 0x1f⟩,
    ⟨"present", 8, 8, .ro, 0, 0, 0xff⟩,
    ⟨"lost", 16, 8, .w1c, 0, 0, 0xff⟩,
    ⟨"reserved", 24, 8, .ro, 0, 0, 0xff⟩,
    ⟨"retrains", 32, 16, .ro, 0, 0, 0xffff⟩,
    ⟨"reserved", 48, 16, .ro, 0, 0, 0xffff⟩]⟩,
  ⟨"ILC_AGENT", .quad, 0x110100, [(8, 8)], true, [
    ⟨"enable", 0, 1, .rws, 0, 0, 1⟩,
    ⟨"reserved", 1, 7, .ro, 0, 0, 0x7f⟩,
    ⟨"tracker", 8, 7, .ro, 0, 0, 0x7f⟩,
    ⟨"reserved", 15, 1, .ro, 0, 0, 1⟩,
    ⟨"snp_buf", 16, 7, .ro, 0, 0, 0x7f⟩,
    ⟨"reserved", 23, 1, .ro, 0, 0, 1⟩,
    ⟨"state", 24, 2, .ro, 0, 0, 3⟩,
    ⟨"reserved", 26, 38, .ro, 0, 0, 0x3fffffffff⟩]⟩,
  ⟨"ILC_AGENT_CTL", .quad, 0x110200, [], true, [
    ⟨"agent", 0, 3, .rw, 0, 0, 7⟩,
    ⟨"remove", 3, 1, .wo, 0, 0, 1⟩,
    ⟨"lose", 4, 1, .wo, 0, 0, 1⟩,
    ⟨"busy", 5, 1, .ro, 0, 0, 1⟩,
    ⟨"reserved", 6, 58, .ro, 0, 0, 0x3ffffffffffffff⟩]⟩,
  ⟨"ILC_CNT", .quad, 0x110208, [], true, [
    ⟨"crc_errors", 0, 32, .ro, 0, 0, 0xffffffff⟩,
    ⟨"refused", 32, 16, .ro, 0, 0, 0xffff⟩,
    ⟨"discarded", 48, 16, .ro, 0, 0, 0xffff⟩]⟩]

/-- The link registers (Tables RM-5 to RM-7). -/
def rowsLNK : List RegRow := [
  ⟨"LNK_CTL", .link, 0, [], false, [
    ⟨"enable", 0, 1, .rws, 0, 0, 1⟩,
    ⟨"retrain", 1, 1, .wo, 0, 0, 1⟩,
    ⟨"discard", 2, 1, .wo, 0, 0, 1⟩,
    ⟨"cable", 3, 1, .rwl, 0, 0, 1⟩,
    ⟨"spare_en", 4, 1, .rwl, 1, 0, 1⟩,
    ⟨"reserved", 5, 59, .ro, 0, 0, 0x7ffffffffffffff⟩]⟩,
  ⟨"LNK_CFG", .link, 8, [], false, [
    ⟨"err_limit", 0, 16, .rw, 0x40, 1, 0xffff⟩,
    ⟨"replay_timeout_us", 16, 8, .rw, 0x14, 2, 0xff⟩,
    ⟨"retry_ms", 24, 16, .rw, 0x64, 1, 0xffff⟩,
    ⟨"sym_limit_log2", 40, 5, .rw, 0x10, 0, 0x18⟩,
    ⟨"reserved", 45, 19, .ro, 0, 0, 0x7ffff⟩]⟩,
  ⟨"LNK_STATUS", .link, 0x10, [], false, [
    ⟨"state", 0, 4, .ro, 0, 0, 0xf⟩,
    ⟨"slot0", 4, 2, .ro, 0, 0, 3⟩,
    ⟨"slot1", 6, 2, .ro, 1, 0, 3⟩,
    ⟨"spare", 8, 2, .ro, 2, 0, 3⟩,
    ⟨"resumed", 10, 1, .ro, 0, 0, 1⟩,
    ⟨"reserved", 11, 5, .ro, 0, 0, 0x1f⟩,
    ⟨"peer_node", 16, 16, .ro, 0, 0, 0xffff⟩,
    ⟨"peer_link", 32, 5, .ro, 0, 0, 0x1f⟩,
    ⟨"reserved", 37, 27, .ro, 0, 0, 0x7ffffff⟩]⟩,
  ⟨"LNK_CNT0", .link, 0x18, [], false, [
    ⟨"tx_frames", 0, 32, .ro, 0, 0, 0xffffffff⟩,
    ⟨"rx_frames", 32, 32, .ro, 0, 0, 0xffffffff⟩]⟩,
  ⟨"LNK_CNT1", .link, 0x20, [], false, [
    ⟨"crc_err", 0, 20, .ro, 0, 0, 0xfffff⟩,
    ⟨"naks", 20, 16, .ro, 0, 0, 0xffff⟩,
    ⟨"replays", 36, 16, .ro, 0, 0, 0xffff⟩,
    ⟨"dups", 52, 12, .ro, 0, 0, 0xfff⟩]⟩,
  ⟨"LNK_CNT2", .link, 0x28, [], false, [
    ⟨"retrains", 0, 16, .ro, 0, 0, 0xffff⟩,
    ⟨"downs", 16, 16, .ro, 0, 0, 0xffff⟩,
    ⟨"spares", 32, 8, .ro, 0, 0, 0xff⟩,
    ⟨"lost_frames", 40, 16, .ro, 0, 0, 0xffff⟩,
    ⟨"reserved", 56, 8, .ro, 0, 0, 0xff⟩]⟩,
  ⟨"LNK_CNT3", .link, 0x30, [], false, [
    ⟨"discarded", 0, 32, .ro, 0, 0, 0xffffffff⟩,
    ⟨"window", 32, 16, .ro, 0, 0, 0xffff⟩,
    ⟨"reserved", 48, 16, .ro, 0, 0, 0xffff⟩]⟩,
  ⟨"LNK_VC", .link, 0x40, [(8, 8)], false, [
    ⟨"alloc", 0, 12, .rwl, 0xc0, 0, 0xfff⟩,
    ⟨"reserved", 12, 4, .ro, 0, 0, 0xf⟩,
    ⟨"credits", 16, 12, .ro, 0, 0, 0xfff⟩,
    ⟨"reserved", 28, 4, .ro, 0, 0, 0xf⟩,
    ⟨"held", 32, 32, .ro, 0, 0, 0xffffffff⟩]⟩,
  ⟨"LNK_LANE", .link, 0x80, [(8, 3)], false, [
    ⟨"role", 0, 2, .ro, 0, 0, 3⟩,
    ⟨"lock", 2, 1, .ro, 0, 0, 1⟩,
    ⟨"reserved", 3, 5, .ro, 0, 0, 0x1f⟩,
    ⟨"corrected", 8, 24, .ro, 0, 0, 0xffffff⟩,
    ⟨"uncorrectable", 32, 16, .ro, 0, 0, 0xffff⟩,
    ⟨"eye", 48, 8, .ro, 0, 0, 0xff⟩,
    ⟨"reserved", 56, 8, .ro, 0, 0, 0xff⟩]⟩,
  ⟨"LNK_TIME_CFG", .link, 0xa0, [], false, [
    ⟨"source", 0, 1, .rwl, 0, 0, 1⟩,
    ⟨"reserved", 1, 15, .ro, 0, 0, 0x7fff⟩,
    ⟨"asym_ps", 16, 16, .rw, 0, 0, 0xffff⟩,
    ⟨"reserved", 32, 32, .ro, 0, 0, 0xffffffff⟩]⟩,
  ⟨"LNK_TIME_DELAY", .link, 0xa8, [], false, [
    ⟨"delay_ps", 0, 32, .ro, 0, 0, 0xffffffff⟩,
    ⟨"reserved", 32, 32, .ro, 0, 0, 0xffffffff⟩]⟩,
  ⟨"LNK_TIME_OFS", .link, 0xb0, [], false, [
    ⟨"delta", 0, 64, .ro, 0, 0, 0xffffffffffffffff⟩]⟩]

/-- The time gate registers (Tables RM-5 to RM-7). -/
def rowsTSC : List RegRow := [
  ⟨"TSC_CTL", .link, 0x800, [], false, [
    ⟨"enable", 0, 1, .rws, 0, 0, 1⟩,
    ⟨"reserved", 1, 7, .ro, 0, 0, 0x7f⟩,
    ⟨"n_entries", 8, 9, .rws, 1, 0, 0x1ff⟩,
    ⟨"reserved", 17, 7, .ro, 0, 0, 0x7f⟩,
    ⟨"rest_mask", 24, 8, .rws, 0xff, 0, 0xff⟩,
    ⟨"overhead", 32, 8, .rw, 0x18, 0, 0xff⟩,
    ⟨"reserved", 40, 24, .ro, 0, 0, 0xffffff⟩]⟩,
  ⟨"TSC_CYCLE", .link, 0x808, [], false, [
    ⟨"cycle_ns", 0, 24, .rws, 0xf4240, 0, 0xffffff⟩,
    ⟨"reserved", 24, 40, .ro, 0, 0, 0xffffffffff⟩]⟩,
  ⟨"TSC_BASE", .link, 0x810, [], false, [
    ⟨"base", 0, 64, .rws, 0, 0, 0xffffffffffffffff⟩]⟩,
  ⟨"TSC_STATUS", .link, 0x818, [], false, [
    ⟨"entry", 0, 9, .ro, 0, 0, 0x1ff⟩,
    ⟨"reserved", 9, 7, .ro, 0, 0, 0x7f⟩,
    ⟨"open", 16, 8, .ro, 0xff, 0, 0xff⟩,
    ⟨"reserved", 24, 40, .ro, 0, 0, 0xffffffffff⟩]⟩,
  ⟨"TSC_CNT", .link, 0x820, [], false, [
    ⟨"deferred", 0, 32, .ro, 0, 0, 0xffffffff⟩,
    ⟨"overrun", 32, 16, .ro, 0, 0, 0xffff⟩,
    ⟨"reserved", 48, 16, .ro, 0, 0, 0xffff⟩]⟩,
  ⟨"TSC_SHAPE", .link, 0x840, [(8, 8)], false, [
    ⟨"rate_mbs", 0, 16, .rw, 0, 0, 0xffff⟩,
    ⟨"burst", 16, 24, .rw, 0x10000, 1, 0xffffff⟩,
    ⟨"reserved", 40, 24, .ro, 0, 0, 0xffffff⟩]⟩,
  ⟨"TSC_TX", .link, 0x880, [(8, 8)], false, [
    ⟨"bytes", 0, 48, .ro, 0, 0, 0xffffffffffff⟩,
    ⟨"reserved", 48, 16, .ro, 0, 0, 0xffff⟩]⟩,
  ⟨"TSC_GATE", .link, 0x900, [(8, 256)], false, [
    ⟨"mask", 0, 8, .rws, 0xff, 0, 0xff⟩,
    ⟨"duration_ns", 8, 24, .rws, 0, 0, 0xffffff⟩,
    ⟨"reserved", 32, 32, .ro, 0, 0, 0xffffffff⟩]⟩]

/-- Every register of the map (R498). -/
def regRows : List RegRow :=
  rowsGLB ++
  rowsCFG ++
  rowsCLK ++
  rowsPWR ++
  rowsSEC ++
  rowsLPE ++
  rowsEVT ++
  rowsPAI ++
  rowsRTE ++
  rowsQUE ++
  rowsSEG ++
  rowsSTK ++
  rowsCLS ++
  rowsBNK ++
  rowsFAC ++
  rowsRCP ++
  rowsEXD ++
  rowsATN ++
  rowsSHR ++
  rowsCOH ++
  rowsILC ++
  rowsLNK ++
  rowsTSC

/-- Whether a distance from the base is an index of these dimensions times their strides. -/
def inDims : List (Nat × Nat) → Nat → Bool
  | [], d => d == 0
  | (stride, count) :: t, d => decide (d / stride < count) && inDims t (d % stride)

/-- The window of an offset, its instance and the offset within it; none outside Table RM-1. -/
def windowOf (off : Nat) : Option (Window × Nat × Nat) :=
  if off < 0x01000000 then some (.glob, 0, off)
  else if off < 0x03000000 then some (.quad, (off - 0x01000000) / 0x00800000, (off - 0x01000000) % 0x00800000)
  else if off < 0x03200000 then some (.link, (off - 0x03000000) / 0x00010000, (off - 0x03000000) % 0x00010000)
  else none

/-- Whether a row holds an offset within its window. -/
def RegRow.holds (r : RegRow) (w : Window) (rel : Nat) : Bool :=
  decide (r.win = w) && decide (r.base ≤ rel) && inDims r.dims (rel - r.base)

/-- The registers of the block in which an offset of a window stands (Tables RM-5 to RM-7). -/
def rowsNear (w : Window) (rel : Nat) : List RegRow :=
  match w with
  | .glob =>
    match rel / 0x10000 with
    | 0 => rowsGLB
    | 1 => rowsCFG
    | 2 => rowsCLK
    | 3 => rowsPWR
    | 4 => rowsSEC
    | 5 => rowsLPE
    | 6 => rowsEVT
    | 7 => rowsPAI
    | _ => rowsRTE
  | .quad =>
    match rel / 0x10000 with
    | 0 | 1 => rowsQUE
    | 2 | 3 => rowsSEG
    | 4 => rowsSTK
    | 8 => rowsCLS
    | 9 => rowsBNK
    | 10 => rowsFAC
    | 11 => rowsRCP
    | 12 => rowsEXD
    | 13 => rowsATN
    | 14 => rowsSHR
    | 15 | 16 => rowsCOH
    | _ => rowsILC
  | .link => if rel < 0x800 then rowsLNK else rowsTSC

/-- The row of an offset, none where the offset is unassigned (R493). -/
def regRow (off : Nat) : Option RegRow :=
  match windowOf off with
  | none => none
  | some (w, _, rel) => (rowsNear w rel).find? fun r => r.holds w rel

/-- The value of a register's fields at reset, without the fields whose reset value is a rule of its own. -/
def RegRow.resetNat (r : RegRow) : Nat := r.fields.foldl (fun n f => n + f.reset * 2 ^ f.lo) 0

/-- The owner code of bank b at reset (R155): banks 0 to 15 belong to the line cache, and each Facet f has the six banks from 16 + 6 f on. -/
def bankOwnerReset (b : Nat) : Nat := if b < 16 then 9 else (b - 16) / 6

/-- What a register holds at reset: the reset values of its fields, with BNK_BANK.owner as R155 gives it. -/
def resetWord (off : Nat) : Word :=
  match windowOf off with
  | none => 0
  | some (w, inst, rel) =>
    match (rowsNear w rel).find? (fun r => r.holds w rel) with
    | none => 0
    | some r =>
      if r.q0 && decide (inst ≠ 0) then 0
      else if r.name = "BNK_BANK" then
        BitVec.ofNat 64 (r.resetNat + bankOwnerReset ((rel - r.base) / 8 % 64))
      else BitVec.ofNat 64 r.resetNat

end Sys2Proof.Machine
end

