-- ==== Sys2Proof/Machine/State.lean ====
section
/-! DEFINITION. The state of the NP32: every register, buffer, queue, mode and pin the spec gives the block, and the queue of waiting commands. Registers stand in one sparse map from offset to word; the other parts hold, chapter by chapter, what the spec gives the machine beside its registers. -/

namespace Sys2Proof.Machine

open Sys2Proof

/-- The pins that the NP32 samples or drives with state of their own (Table PK-2). ALERT_N and STOP_OUT_N follow from other state (R487, R472). -/
structure Pins where
  pwrok : Bool
  perstN : Bool
  stopInN : Bool
  /-- SMB_ADDR_A and SMB_ADDR_B as sampled when PERST_N last rose (R21) -/
  strapA : Bool
  strapB : Bool
  /-- THERM_N: true while released -/
  thermN : Bool
deriving DecidableEq, Repr

/-- Network time and the clocks it is kept with (R33, R35, R368). -/
structure TimeState where
  /-- NT in ns -/
  nt : Nat
  /-- the TIME count in ns, kept across every reset but power-on (Table SU-1) -/
  count : Nat
  /-- ns of a correction not yet absorbed by slewing (R368) -/
  slew : Int
  /-- ns since NT was last slewed by one ns -/
  slewPhase : Nat
deriving DecidableEq, Repr

/-- The CORE clock and the thermal levels of one quadrant (R27, R36, R37). -/
structure QuadClock where
  stretching : Bool
  throttled : Bool
  warn : Bool
  crit : Bool
  /-- the NT millisecond in which stretches are counted, and their count (R38) -/
  stretchMs : Nat
  stretches : Nat
deriving DecidableEq, Repr

/-- Thermal levels of a stack (Table PK-5). -/
structure StackTherm where
  warn : Bool
  crit : Bool
deriving DecidableEq, Repr

/-- Start-up (Table SU-2) beside CFG_BOOT_STATUS. -/
structure Boot where
  /-- a warm reset is being recovered from: steps 5 and 6 are shortened (Table SU-2) -/
  warm : Bool
  /-- a warm reset that keeps the stack contents (R44) -/
  keep : Bool
  /-- links and Ilcen lanes are held electrically idle (R24, R47) -/
  idle : Bool
  /-- SMBus answers (R497) -/
  smbus : Bool
  /-- an image was refused or its commit failed (R58): GLB_STATUS.cfg_defaulted -/
  defaulted : Bool
  /-- route tables are in service (R51) -/
  routerOn : Bool
  /-- background recalibration runs (R48) -/
  recal : Bool
  /-- next unit of the recalibration rotation (R39) -/
  recalNext : Nat
  /-- step 11 has completed, and the commit of the staged queue enables is due at this NT (R52) -/
  autoAt : Option Nat
  /-- link lanes that failed analogue calibration, as link and lane: they are spared (Table SU-2) -/
  laneFailed : List (Nat × Nat)
  /-- the digest of the firmware image and of the configuration image, measured by Hallmark -/
  fwDigest : Nat
  cfgDigest : Nat
  fwSvn : Nat
deriving DecidableEq, Repr

/-- A commit that is pending, beside CFG_COMMIT_RESULT (R61 to R63). -/
structure Commit where
  /-- when = 0b01: the instant is CFG_COMMIT_AT as it stood at the write -/
  atInstant : Bool
  /-- NT at the write -/
  writtenNt : Nat
  /-- RWS registers whose shadow differed from live at the write -/
  n : Nat
  /-- the check has passed, and the commit waits for its instant -/
  checked : Bool
  /-- the instant, once it is known -/
  instant : Nat
  /-- the check left the staged queue enables out, since step 11 had not completed (R52) -/
  early : Bool
deriving DecidableEq, Repr

/-- An event record accepted into the queue (Table ER-3). -/
structure EventRec where
  code : Nat
  srcClass : Nat
  srcIndex : Nat
  seq : Nat
  nt : Nat
  payload : List Byte
  count : Nat
deriving DecidableEq, Repr

/-- The rate limit of one event code and source: NT of its last record, and the occurrences suppressed since (R484). -/
structure EventLimit where
  code : Nat
  srcClass : Nat
  srcIndex : Nat
  lastNt : Nat
  suppressed : Nat
deriving DecidableEq, Repr

/-- The event controller (R483 to R485, R488). -/
structure Events where
  queue : List EventRec
  nextSeq : Nat
  limits : List EventLimit
  /-- NT of the last notify write -/
  notifyNt : Option Nat
  /-- the tail has moved since the last notify write -/
  notifyDue : Bool
  /-- a node-fatal error has stopped the node (R488) -/
  fatal : Bool
  /-- quadrants lost to the node-fatal error, whose links go idle -/
  lostQuads : List Nat
deriving DecidableEq, Repr

/-- The heartbeat generator's liveness inputs: NT at which each management core last wrote its beat bit (R502). -/
structure Mgmt where
  beat0 : Option Nat
  beat1 : Option Nat
  /-- the generator has stopped (R488) -/
  stopped : Bool
deriving DecidableEq, Repr

/-- What an event carries for the filters of Loupe (R461). -/
structure Work where
  layer : Nat
  op : Nat
  client : Option Nat
  trace : Bool
deriving DecidableEq, Repr

/-- A trace record on its way to the writer (Table LP-2). -/
structure TraceRec where
  nt : Nat
  cls : Nat
  idx : Nat
  code : Nat
  trig : Bool
  half : Bool
  gap : Bool
  work : Work
  cycle : Nat
  payload : List Byte
deriving DecidableEq, Repr

/-- Loupe beside its registers (R458 to R477). -/
structure Loupe where
  /-- records waiting in the queues of their sources, oldest first -/
  sources : List TraceRec
  /-- records waiting in the writer's queue -/
  writer : List TraceRec
  /-- sources (class × 4,096 + index) whose next record carries the gap flag -/
  gaps : List Nat
  /-- tokens of the writer's bucket, in units of 10^-11 records, and the NT they were last counted at -/
  tokens : Nat
  tokensNt : Nat
  /-- post-trigger records still to be written -/
  remaining : Nat
  /-- instant of a pending snapshot -/
  snapshot : Option Nat
  /-- instant of an accepted resume -/
  resume : Option Nat
  /-- links that were ACTIVE at the stop request (R474) -/
  stopLinks : List Nat
  /-- links of stopLinks that have since left ACTIVE or started a fresh session -/
  lostLinks : List Nat
  /-- ns counted by each quadrant's watchdog, and whether it may expire -/
  wdog : List Nat
  wdogArmed : List Bool
  /-- quadrants whose fetch, issue and instance starts the watchdog has stopped until the hang dump is written (R477) -/
  hung : List Nat
  /-- NT at the start of the dump in progress: of quadrants 0 to 3, and of the package -/
  dumpNt : List Nat
  /-- NT bits [63:48] at the last time record -/
  ntHigh : Nat
  /-- banks of the trace buffer, taken when the capture started -/
  buffer : List Nat
  /-- refused bank writes whose bank event is due: bank index and kind (R156) -/
  refused : List (Nat × Nat)
deriving DecidableEq, Repr

/-- A background task of a Clasp group (Table PM-6, R143). -/
inductive Task where
  | none | rebuild | reinstate | copyBack
deriving DecidableEq, Repr

/-- A Clasp group beside CLS_STATUS, CLS_CTL and CLS_REBUILD. -/
structure ClaspGroup where
  /-- position whose granules live in spare slots, in the rows from `spareFrom` up to `spareTo` (R134, R143) -/
  spareOf : Option Nat
  spareFrom : Nat
  spareTo : Nat
  task : Task
  /-- position under reinstatement, and the rows from 0 whose granules it holds again (R141) -/
  target : Option Nat
  ownRows : Nat
  /-- the state and the failed stacks when a reinstate was accepted (R141) -/
  atReinstate : Option (Nat × Nat)
  /-- the state a reinstatement started from -/
  origin : Nat
  /-- double-fault rows found while the log was full, with their lost masks (R144) -/
  waiting : List (Nat × Nat)
  /-- the row that the scrub engine skipped, to return to (R147) -/
  busyRows : List Nat
  /-- the entry of the row repair in progress (R146) -/
  repairing : Nat
deriving DecidableEq, Repr

/-- Pool memory beside its registers: the contents of the stacks, the Clasp groups, and the stacks' power and refresh (chapter 06). -/
structure Pool where
  /-- raw bytes of the stacks that differ from what an unlisted byte holds; key: stack × 2^39 + slot × 256 + byte -/
  cells : SMap Byte
  groups : List ClaspGroup
  /-- bank to be refreshed next, for each stack -/
  refreshNext : List Nat
  /-- stacks in automatic power-down -/
  powerDown : List Nat
  /-- a power transition in progress: stack and the state it leads to -/
  moving : List (Nat × Nat)
  /-- ring accesses held for a slab that is not enabled, each counted once (R132) -/
  refused : List (List Nat)
deriving DecidableEq, Repr

/-- A bank handover or clear in progress (R157, R164): bank index (Setting × 64 + bank), owner codes, and whether the whole-bank test runs. -/
structure Handover where
  bank : Nat
  old : Nat
  new : Nat
  clear : Bool
deriving DecidableEq, Repr

/-- The Setting banks beside their registers (chapter 07). A bank's index is Setting × 64 + bank. -/
structure Banks where
  /-- bytes of the banks that are not zero; key: bank index × 262,144 + byte -/
  cells : SMap Byte
  /-- written lines; key: bank index × 4,096 + line -/
  written : SMap Bool
  handovers : List Handover
  /-- power transitions in progress: bank index, state left, state entered -/
  powering : List (Nat × Nat × Nat)
  /-- power states reached; 0 where unlisted -/
  power : SMap Nat
  /-- region under test, for each Setting: bank and region -/
  testing : List (Option (Nat × Nat))
  /-- region to be tested next, for each Setting: bank × 256 + region -/
  testNext : List Nat
  /-- regions that run from their save line: bank index and region -/
  repaired : List (Nat × Nat)
  /-- banks under a whole-bank test -/
  whole : List Nat
  /-- NT at which the last region test began, for each Setting (R166) -/
  testNt : List Nat
  /-- requests that wait for a handover, a transition or a clear: Setting, port and request (R157, R162, R164) -/
  held : List (Nat × Port × BankReq)
  /-- data that the last access delivered at port A and at port B -/
  gotA : List Byte
  gotB : List Byte
deriving DecidableEq, Repr

--PARTS--

/-- The tenant key, key1 and key2 (R446). -/
structure SealKey where
  key1 : Nat
  key2 : Nat
deriving DecidableEq, Repr

/-- What Hallmark is at work on (SEC_STATUS.busy): a quote of a nonce, a bind fill with the record unwrapped, a release that drains or that zero-writes the stacks, or an svn commit (R441, R445, R451, R455). -/
inductive SecJob where
  | quote (nonce : List Byte) (dst : Nat)
  | bindFill (record : List Byte)
  | drain
  | scrub
  | svn
deriving DecidableEq, Repr

/-- The Bezel and Hallmark beside their registers (chapter 19). -/
structure Sec where
  /-- the key installed at the stack ports and stream decoders -/
  key : Option SealKey
  job : Option SecJob
  /-- NT of the release -/
  releaseNt : Nat
  /-- the ephemeral key of the latest quote, by the number of its draw, with the hash of that quote's bytes 0 to 383 (R441, R443) -/
  ephemeral : Option (Nat × Nat)
  /-- the quoting session in use: the index of its top-tree leaf (R440) -/
  session : Option Nat
  /-- blown bits of the fuse fields lms_sessions and svn_min (Table SE-3) -/
  sessionsUsed : Nat
  svnMin : Nat
  /-- SEC_MBOX reads 0 (Table SE-7) -/
  mboxHidden : Bool
deriving DecidableEq, Repr

/-- The SMBus and JTAG ports beside the registers (R478, R497). -/
structure Ports where
  /-- the ADDR offset of each SMBus host -/
  smbAddr : SMap Nat
  /-- the JTAG instruction in force, by its code (Table LP-6) -/
  instr : Nat
  /-- data, offset and status that the next Capture-DR of REG returns -/
  regData : Word
  regOffset : Nat
  regStatus : Nat
  /-- what was last shifted into the boundary-scan register -/
  boundary : Nat
deriving DecidableEq, Repr
/-- A range captured for the mirror and not yet acknowledged (R419 to R421). -/
structure MirrorRange where
  id : Nat
  pa : Nat
  len : Nat
  /-- held for: an M2 write -/
  m2 : Bool
  /-- a slab copied to a joining partner (R430) -/
  copy : Bool
  nt : Nat
  /-- bytes sent so far, and whether that is all of them -/
  off : Nat
  sent : Bool
  /-- pieces sent and not acknowledged, and pieces to be sent again: offset and length -/
  open' : List (Nat × Nat)
  again : List (Nat × Nat)
  timeouts : Nat
deriving DecidableEq, Repr

/-- A doorbell of a paired client that waits for the partner's acknowledgement of its queue record (R423). -/
structure HeldDoorbell where
  id : Nat
  q : Nat
  j : Nat
  tail : Bool
  value : Nat
deriving DecidableEq, Repr

/-- Active/standby pairing beside the PAI registers (chapter 18). -/
structure Pair where
  log : List MirrorRange
  nextId : Nat
  /-- the mirror link taken last -/
  lastLink : Nat
  /-- NT from which the silence of the pin path and of the fabric path is counted -/
  pinNt : Nat
  fabNt : Nat
  /-- highest term seen (R417) -/
  highTerm : Nat
  /-- messages sent since reset -/
  beats : Nat
  /-- NT at which CLAIMING was entered -/
  claimNt : Nat
  partnerRole : Nat
  partnerSealed : Bool
  /-- a planned handover has begun (R431) -/
  leaving : Bool
  /-- instant at which the takeover quarantine ends (R426) -/
  takeover : Option Nat
  /-- a copy to a joining partner runs (R430) -/
  copying : Bool
  doorbells : List HeldDoorbell
  /-- WRITE_ACK and other answers held for mirror acknowledgements: range ids, where the packet goes in, as InPkt.port, and the packet -/
  answers : List (List Nat × Nat × Packet)
  /-- NT from which the next BEAT and the next CLAIM are due (R415, R425) -/
  nextBeat : Nat
  nextClaim : Nat
deriving DecidableEq, Repr
/-- A packet on its way through the router: its header, the bytes that have arrived, the output chosen for its head, and how far it has left (R378, R398). -/
structure InPkt where
  hdr : Packet
  /-- bytes of the packet that have arrived, the header first -/
  got : List Byte
  /-- output chosen: 0 to 31 a link, 32 the local port, 63 where the packet is dropped; none while the head waits -/
  out : Option Nat
  /-- dateline level on the chosen output -/
  dl : Nat
  /-- bytes that have left -/
  sent : Nat
  started : Bool
  /-- counted in TSC_CNT.deferred -/
  deferred : Bool
  /-- the window end at its start, for TSC_CNT.overrun: NT in hundredths of a ns -/
  closeNt : Option Nat
  /-- fills of the frames whose flits it still holds in the link's buffer, oldest first, and the bytes of them already taken -/
  fills : List Nat
  taken : Nat
  /-- 0 to 31: the link it arrived on, or for an answer injected here the link its request arrived on; 32 + q: injected by quadrant q; 36: a mirror WRITE -/
  port : Nat
deriving DecidableEq, Repr

/-- What an outstanding request was sent for (R391). -/
inductive Purpose where
  | fetch (q j seq n : Nat)
  | completion (q j seq : Nat)
  | event (q j seq : Nat)
  | operand (q j seq piece : Nat)
  | send (run inst row : Nat)
  | spill (group row : Nat)
  | mirror (id off len : Nat)
deriving DecidableEq, Repr

/-- A tag in use: its request, when it was sent and when its request was first sent (R390, R391), and RTE_TIMING as it stood then, since work in progress keeps the old values at a commit (R65). -/
structure Tag where
  tag : Nat
  gen : Nat
  purpose : Purpose
  pkt : Packet
  sentNt : Nat
  firstNt : Nat
  timing : Word
deriving DecidableEq, Repr

/-- The router, the tags and the endpoint (chapter 16). -/
structure Router where
  /-- packets in the input virtual channels, oldest first; key: port × 8 + VC, port 32 being the local port -/
  inputs : SMap (List InPkt)
  /-- packets ejected at the local port, with their arrival port -/
  eject : List (Nat × Packet)
  /-- packets that wait for an endpoint resource: their pool accesses are held -/
  held : List (Nat × Packet)
  tags : List Tag
  /-- freed tags in quarantine, with the NT at which it ends -/
  quarantine : List (Nat × Nat)
  /-- generation last given to each tag -/
  gens : SMap Nat
  /-- requests that wait for a free tag of their quadrant -/
  waiting : List (Nat × Packet × Purpose × Nat)
  /-- NT at which the drain timer ends -/
  drainEnd : Option Nat
deriving DecidableEq, Repr

/-- A token count in thousandths of a byte, and the NT at which it was last brought up to date (R406, R407). -/
structure Bucket where
  tokens : Int
  nt : Nat
deriving DecidableEq, Repr

/-- The drops of a client that a notice is still to report (R408). -/
structure Holdoff where
  client : Nat
  until' : Nat
  drops : Nat
  opcode : Nat
  tc : Nat
  firstNt : Nat
deriving DecidableEq, Repr

/-- Shapers, policers and drop notices (chapter 17). A bucket that is not listed is full. -/
structure Traffic where
  /-- key: link × 8 + TC -/
  shapers : List (Nat × Bucket)
  /-- key: client -/
  policers : List (Nat × Bucket)
  holdoffs : List Holdoff
  /-- input port served last, for each link and class (key link × 8 + TC), and VC served last, for each link and port (key link × 64 + port) -/
  lastPort : SMap Nat
  lastVc : SMap Nat
deriving DecidableEq, Repr

/-- A lane swap in progress (Table LK-6). -/
structure Swap where
  lane : Nat
  spare : Nat
  moved : Bool
  deskewed : Bool
deriving DecidableEq, Repr

/-- A link beside its registers (chapter 15). -/
structure Link where
  /-- next sequence number to be sent, and the oldest unacknowledged one (R351) -/
  next : Nat
  ackBase : Nat
  /-- frames sent and not acknowledged, oldest first -/
  replay : List Frame
  /-- sequence number of the next frame to be resent, while a replay runs (R353) -/
  replayAt : Option Nat
  /-- NT at which an ack last advanced ack_base, or the first outstanding frame was sent -/
  ackNt : Nat
  /-- the receiver's expected number e (R352) -/
  expect : Nat
  /-- a NAK for e is outstanding; one is to be sent with the next frame; NT at which it was sent -/
  nak : Bool
  nakDue : Bool
  nakNt : Nat
  /-- credit counter last seen from the peer, and flits freed here, for each VC (R355) -/
  seen : List Nat
  freed : List Nat
  /-- the peer's advertised buffer of each VC (R364) -/
  peerBuf : List Nat
  /-- VC of the next credit field -/
  cvc : Nat
  /-- input key of the packet that is being sent -/
  tx : Option Nat
  /-- frame fills and bytes of the packet that is being received, until its header is whole -/
  rx : Option (List Nat × List Byte)
  /-- session and node last recorded from the peer's HELLO -/
  peer : Option (Nat × Nat)
  /-- the peer takes time from this link -/
  peerSource : Bool
  /-- NT at which the present state was entered -/
  since : Nat
  /-- NT of each failed retrain of the last second -/
  fails : List Nat
  resumeSent : Bool
  /-- next number that the peer's RESUME carried -/
  resumeGot : Option Nat
  swap : Option Swap
  /-- lanes that failed and wait for the swap to end -/
  laneFaults : List Nat
  /-- retried lanes that hold lock, with the NT since which they do -/
  laneSince : List (Nat × Nat)
  /-- frame errors of the 16 sub-windows, the present one first, and its slots (R357) -/
  window : List Nat
  slots : Nat
  /-- time exchanges done: t1, t2, t3, t4 in 2^-16 ns (R367) -/
  exchanges : List (Nat × Nat × Nat × Nat)
  /-- the TIME_REQ on its way: index and t1 -/
  asked : Option (Nat × Nat)
deriving DecidableEq, Repr

/-- The requests that a home agent serves (Table CO-6), with the recall of an ATOMIC, the write-back of a FLUSH, the back-invalidation of an eviction of the directory, and that of a removal (R323, R326, R335). -/
inductive HomeOp where
  | rdShared | rdOwn | upgrade | rdCur | wrInv | recall | flush | backInv | removal | evictDirty | evictClean
deriving DecidableEq, Repr

/-- A line of a Setting line cache. -/
structure LcLine where
  line : Nat
  state : LineState
  data : List Byte
  /-- the bank that holds it (Setting × 64 + bank), and its row and way there (R319) -/
  bank : Nat
  row : Nat
  way : Nat
deriving DecidableEq, Repr

/-- A directory entry that is not I (Table CO-2). Pointer codes are the Setting, or 32 and the agent. -/
structure DirEntry where
  line : Nat
  state : Nat
  ptrs : List (Option Nat)
  bcastL : Bool
  bcastU : Bool
  fwd : Option Nat
  /-- allocation order -/
  born : Nat
deriving DecidableEq, Repr

/-- A request at a home: from whom, its transaction number, what it asks, and the bytes it writes. -/
structure CohReq where
  who : Who
  txn : Nat
  op : HomeOp
  line : Nat
  mask : Nat
  data : List Byte
deriving DecidableEq, Repr

/-- An open transaction at a home (R327): the snoops not yet answered, those that the NP8 hold keeps back, and what the answers brought. -/
structure Txn where
  req : CohReq
  kind : SnoopKind
  /-- holders whose answer is awaited, with the NT at which their snoop was sent -/
  waiting : List (Nat × Nat)
  heldBack : List Nat
  got : Option (List Byte)
  forwarded : Bool
  /-- holders that answered RspI with wb_pending and whose EvictDirty has not arrived, and holders whose eviction has arrived (Table CO-7) -/
  wbWait : List Nat
  evicted : List Nat
  /-- the requester was lost meanwhile: no grant follows (R336) -/
  dropped : Bool
deriving DecidableEq, Repr

/-- An answer to a snoop (Table CO-4). -/
inductive Answer where
  | rspI (wbPending : Bool)
  | rspS
  | rspE
  | rspFwd
  | data (kept : LineState) (bytes : List Byte)
deriving DecidableEq, Repr

/-- Messages between home agents and line caches over the mesh (R328). -/
inductive MeshMsg where
  | req (r : CohReq)
  | snoop (st line : Nat) (kind : SnoopKind)
  | answer (st line : Nat) (a : Answer)
  | evict (st line : Nat) (dirty : Option (List Byte))
  | reply (st line : Nat) (state : LineState) (status : Nat) (data : Option (List Byte))
  | evictDone (st line : Nat)
deriving DecidableEq, Repr

/-- An access at a line cache that waits for its home. -/
structure Miss where
  st : Nat
  line : Nat
  op : LineOp
deriving DecidableEq, Repr

/-- A loss event or a removal in progress (R335 to R338). -/
structure Loss where
  agents : List Nat
  event : Nat
  nt : Nat
  /-- its lost lines, and the agent that held each -/
  lines : List Nat
  owners : List Nat
  walked : Bool
  /-- lines entered in the Lost Line Log, and lines that found it full -/
  logged : Nat
  spill : Nat
deriving DecidableEq, Repr

/-- A region action that its home cannot carry out yet (R303): quadrant, action and region ID, and what the parties beyond the pins answered. -/
structure HeldAction where
  q : Nat
  action : Nat
  id : Nat
  env : Env
deriving DecidableEq, Repr

/-- Coherence beside its registers (chapter 14). -/
structure Coh where
  /-- line cache of each Setting, most recently used first -/
  caches : List (List LcLine)
  /-- directory slice of each quadrant -/
  dir : List (List DirEntry)
  born : Nat
  txns : List Txn
  waiting : List CohReq
  msgs : List MeshMsg
  misses : List Miss
  /-- data that the last line-cache access delivered -/
  delivered : List Byte
  /-- NP8 holds: line, holder, and NT of the grant (R331) -/
  holds : List (Nat × Nat × Nat)
  /-- answers to Ilcen writes held for mirror acknowledgements: range ids and the answer (Table PF-3) -/
  heldGrants : List (List Nat × OutMsg)
  losses : List Loss
  /-- accesses that wait for a loss event: line and the key of the access -/
  lossWaits : List (Nat × List Nat)
  /-- region actions waiting at their homes, one for each quadrant at most (R303) -/
  actions : List HeldAction := []
deriving DecidableEq, Repr

/-- The Ilcen link beside its registers (R332, R333). -/
structure Ilc where
  since : Nat
  expect : Nat
  acked : Nat
  fails : List Nat
  /-- the present ms of NT, and the CRC failures in it -/
  errMs : Nat
  errs : Nat
  /-- the PHY is trained in RETRAIN -/
  trained : Bool
  /-- the enable is clear and the link stays ACTIVE until the removals end (Table CO-8) -/
  closing : Bool
  peer : Option IlcHello
  reqCredits : List Nat
  snpCredits : List Nat
  /-- the number of the next flit sent, the flits sent and not acknowledged with their messages, and messages held until the link is ACTIVE and the replay buffer has room (R332, R333) -/
  next : Nat := 0
  sent : List (Nat × OutMsg) := []
  held : List OutMsg := []
deriving DecidableEq, Repr

/-- A segment entry as a snapshot holds it (Table SG-1): segment number and fields. -/
structure SegEnt where
  seg : Nat
  va : Nat
  len : Nat
  pa : Nat
  bitmap : Nat
  lease : Nat
  flags : Nat
  gen : Nat
deriving DecidableEq, Repr

/-- A tile, or a range that an operand names: rows of bytes at a stride (R106, R109). -/
structure Tile where
  va : Nat
  rowLen : Nat
  rows : Nat
  stride : Nat
  write : Bool
deriving DecidableEq, Repr

/-- How far a descriptor has come: fetched, issued, started, or ended and waiting for its completion (R83). -/
inductive Phase where
  | fetched | issued | started | ended
deriving DecidableEq, Repr

/-- A descriptor that a queue engine holds. -/
structure Desc where
  key : DescKey
  bytes : List Byte
  phase : Phase
  issueNt : Nat
  /-- issue order over the whole package -/
  order : Nat
  snap : List SegEnt
  /-- pages found present: requester, segment and page; up to 16 for each requester (R110) -/
  pages : List (Nat × Nat × Nat)
  /-- how far its own operation has come; its meaning is the operation's -/
  progress : Nat
  /-- bytes written -/
  written : Nat
  delivered : Bool
  /-- the reads of a source in space 2 have been sent -/
  asked : Bool
  /-- mirror ranges its writes wait for -/
  waits : List Nat
  /-- a granule was reconstructed; a stall was resumed -/
  rebuilt : Bool
  resumed : Bool
  status : Nat
  result : Nat
  detail : Nat
  /-- data that READ_DATA packets have brought: piece and bytes -/
  pieces : List (Nat × List Byte)
  /-- 1: its completion has been journalled (R423); 2: read from the journal at a takeover, to be issued with the instant it had (R426) -/
  journal : Nat
  /-- segments whose lease was checked at issue (R309) -/
  leased : List Nat := []
  /-- the mover that runs it (R206) -/
  mover : Option Nat := none
deriving DecidableEq, Repr

/-- A ring fetch under way: queue pair, first seq, descriptors, and the data once a READ_DATA has brought it. -/
structure Fetch where
  q : Nat
  j : Nat
  seq : Nat
  n : Nat
  data : Option (List Byte)
deriving DecidableEq, Repr

/-- A completion that has been written and whose event message is still to be sent (R89). -/
structure Announce where
  key : DescKey
  tag : Nat
  status : Nat
deriving DecidableEq, Repr

/-- A line of a bitmap cache (R112). -/
structure BmcLine where
  client : Nat
  seg : Nat
  gen : Nat
  idx : Nat
  data : List Byte
  /-- descriptors whose check waited on the fetch of this line and has not gone on yet -/
  woken : List DescKey
deriving DecidableEq, Repr

/-- A bitmap line fetch under way, with the descriptors whose checks wait on it (R112). -/
structure BmcFill where
  q : Nat
  client : Nat
  seg : Nat
  gen : Nat
  idx : Nat
  bitmap : Nat
  waiters : List DescKey
deriving DecidableEq, Repr

/-- A stalled tile (R115, R116): its stall slot and record, where it holds them. -/
structure StallTile where
  key : DescKey
  requester : Nat
  tile : Tile
  ent : SegEnt
  page : Nat
  va : Nat
  slot : Option Nat
  record : Option Nat
deriving DecidableEq, Repr

/-- A SEG_SYNC on its way to its installation and completion (R100 to R102). -/
structure SegSync where
  key : DescKey
  order : Nat
  client : Nat
  seg : Nat
  /-- the entry to install: eight words -/
  words : List Nat
  /-- the generation installed -/
  gen : Option Nat
deriving DecidableEq, Repr

/-- Weighted round robin of a quadrant: the local index served last in the pass, and the turns used in the round (R87). -/
structure Round where
  last : Option Nat
  used : SMap Nat
deriving DecidableEq, Repr

/-- A client whose issue is stopped by a FENCE or PUBLISH (R86, R305). -/
structure FenceHold where
  client : Nat
  order : Nat
  key : DescKey
deriving DecidableEq, Repr

/-- A quadrant that retires a client (R93), or a queue pair that zeroes its completion ring. -/
structure RingZero where
  q : Nat
  j : Nat
  sent : Bool
deriving DecidableEq, Repr

/-- The queue engines and translation beside their registers (chapters 04 and 05). -/
structure Que where
  descs : List Desc
  fetches : List Fetch
  rounds : List Round
  order : Nat
  fences : List FenceHold
  zeroing : List RingZero
  /-- the clients being retired, by quadrant (R93) -/
  retiring : List (Nat × Nat)
  bmc : List (List BmcLine)
  fills : List BmcFill
  tiles : List StallTile
  syncs : List SegSync
  /-- completions written, for each queue pair; key: q × 1,024 + j -/
  written : SMap Nat
  announces : List Announce
deriving DecidableEq, Repr

/-- The zero-fill of a lease entry: the pool addresses of its pages, and whether a bitmap line was skipped (R312). -/
structure LeaseFill where
  q : Nat
  e : Nat
  pages : List Nat
  skipped : Bool
deriving DecidableEq, Repr

/-- An operation instance in flight (R216): its number, operation and loop indices, how many batch rows it has done, whether its own work is done, the mirror ranges it waits for, and its status. -/
structure Inst where
  n : Nat
  op : Nat
  outer : Nat
  inner : Nat
  /-- the layer index (R239) -/
  layer : Nat
  /-- its operation has begun -/
  begun : Bool
  row : Nat
  done : Bool
  waits : List Nat
  nt : Nat
  status : Nat
  /-- results that wait for the rest of their block: row, column and FP32 word (R175) -/
  parts : List (Nat × Nat × Nat) := []
deriving DecidableEq, Repr

/-- The run in progress (R214, R215): its descriptor, the recipe image and the binding block it fetched, the next operation, the loops it stands in with the innermost first (operation and index), and what has come of it so far. -/
structure Run where
  key : DescKey
  image : List Byte
  block : List Byte
  pc : Nat
  loops : List (Nat × Nat)
  next : Nat
  insts : List Inst
  failed : Bool
  status : Nat
  detail : Nat
  /-- bytes written to WEIGHT and TENSOR destinations -/
  bytes : Nat
  tokens : Nat
  /-- requesters whose tile has ended without them: 999 stands for any -/
  aborted : List Nat
deriving DecidableEq, Repr

/-- One context of a Facet at work on a MATMUL (R199 to R201): the row blocks it takes, in order; its position (row block, sweep, K tile and token tile); tiles decoded so far; the ready slots of its ring, as tile number and slot; and its accumulators, row by row. -/
structure FacetJob where
  inst : Nat
  st : Nat
  f : Nat
  fill : Bool
  blocks : List Nat
  rb : Nat
  sweep : Nat
  tile : Nat
  tok : Nat
  loaded : Nat
  slots : List (Nat × Nat)
  acc : List Nat
  /-- the last K tile of the sweep is done -/
  full : Bool
deriving DecidableEq, Repr

/-- What a mover puts at its destination: the same bytes into every Facet window of the Settings of a mask (R207); FP32 values into columns of a home row or of a TENSOR row of an instance's destination; or bytes into one window. -/
inductive Put where
  | broadcast (mask oa : Nat) (data : List Byte)
  | elems (row col : Nat) (acc : Bool) (vals : List Nat)
deriving DecidableEq, Repr

/-- A mover transfer in progress (R205). -/
structure Transfer where
  inst : Nat
  mover : Nat
  puts : List Put
deriving DecidableEq, Repr

/-- A REDUCE in progress (R208): partials on their way to the stage of their quadrant, from a Setting; how many partials each quadrant still expects; the stage sums; the quadrants whose sum the destination has added; and the sum at the destination. -/
structure Sum where
  inst : Nat
  id : Nat
  dest : Nat
  moving : List (Nat × List Nat)
  expect : List Nat
  stage : List (Option (List Nat))
  joined : List Nat
  total : Option (List Nat)
  fin : Put
deriving DecidableEq, Repr

/-- An open channel (R238): who receives on it, the format and size of its rows, where each batch row lies (Setting, Facet and byte), and the fragments that have arrived (row, byte offset and length). -/
structure Channel where
  id : Nat
  key : DescKey
  /-- the RECV that it serves, by its place in the recipe -/
  op : Nat
  fmt : Nat
  rowBytes : Nat
  at' : List (Nat × Nat × Nat)
  got : List (Nat × Nat × Nat)
deriving DecidableEq, Repr

/-- An activation packet that its receiver has not accepted (R238): the instance, its number, the packet, the NT of its first refusal and of its latest, and whether an answer is awaited. -/
structure Sending where
  inst : Nat
  piece : Nat
  pkt : Packet
  firstNt : Option Nat
  lastNt : Nat
  asked : Bool
deriving DecidableEq, Repr

/-- A recipe load or unload in progress (R242): its slot, the address word of the image, and whether it loads. -/
structure Loading where
  slot : Nat
  src : Nat
  load : Bool
deriving DecidableEq, Repr

/-- The sequencer, the Facets and the movers at work for recipes, beside their registers (chapters 09 and 10). -/
structure Rcp where
  run : Option Run
  jobs : List FacetJob
  transfers : List Transfer
  sums : List Sum
  channels : List Channel
  sends : List Sending
  loading : Option Loading
  /-- tiles that stream decoders have begun and must wait with: Setting, Facet, and whether for the fill context (R193) -/
  decoding : List (Nat × Nat × Bool)
  /-- the 32 registers of 256 FP32 lanes of the vector units (R202): for each Facet that has used its own, the number of the first of 8,192 free values that they hold; key: Setting × 8 + Facet -/
  vector : SMap Nat
deriving DecidableEq, Repr

/-- Where an expert instance takes its tokens from and puts its results, as its operation or its descriptor says: rows as Setting, Facet and byte (R248, R271, R272). -/
structure ExpPlan where
  tokens : Nat
  src : List (Nat × Nat × Nat)
  dst : List (Nat × Nat × Nat)
  router : List (Nat × Nat × Nat)
  srcFmt : Nat
  srcWidth : Nat
  dstWidth : Nat
  routerWidth : Nat
  k : Nat
  choices : Bool
  acc : Bool
  /-- scratch, primary ring and fill ring: first word; and their sizes in bytes and slots -/
  scratch : Nat
  scratchBytes : Nat
  primRing : Nat
  primSlots : Nat
  fillRing : Nat
  fillSlots : Nat
deriving DecidableEq, Repr

/-- A token-expert pair (R260, R261): token row, expert, weight, and what became of it: 0 kept, 1 dropped, 2 spilled. -/
structure ExpPair where
  b : Nat
  e : Nat
  w : Nat
  fate : Nat
deriving DecidableEq, Repr

/-- A routed group: its expert, holder Setting and copy, its pairs as token row and weight, and the pairs that its chunks have done (R263). -/
structure ExpGroup where
  e : Nat
  st : Nat
  pa : Nat
  pairs : List (Nat × Nat)
  done : Nat
deriving DecidableEq, Repr

/-- A spill group of the sender: 0 asked, 1 accepted, 2 refused, 3 closed; the NT of its acceptance; and the result fragments that have come, as pair, byte offset and length (R268). -/
structure SpillOut where
  id : Nat
  e : Nat
  pairs : List (Nat × Nat)
  state : Nat
  nt : Nat
  got : List (Nat × Nat × Nat)
deriving DecidableEq, Repr

/-- An expert instance, or a sub-batch of an EXPERT_BATCH, in progress (Table EX-1). -/
structure Expert where
  key : DescKey
  /-- the instance of a recipe; none for an EXPERT_BATCH -/
  inst : Option Nat
  /-- first token row of the sub-batch -/
  first : Nat
  work : Work
  phase : Nat
  index : Nat
  entry : List Byte
  plan : ExpPlan
  /-- for each token the choices in rank order, and after them the reserve candidates: expert and weight, none where a choice was discarded -/
  cands : List (List (Option (Nat × Nat)))
  /-- the placement table as phase 2 read it, and the Settings whose stack was failed then (R256, R274) -/
  placement : List Byte
  failed : List Nat
  pairs : List ExpPair
  groups : List ExpGroup
  spills : List SpillOut
  askedNt : Nat
  /-- shared phase A has ended -/
  sharedA : Bool
  /-- the instance has closed: a sub-batch then waits for its end -/
  closed : Bool
deriving DecidableEq, Repr

/-- A spill group accepted for another node: its request, the server's entry, holder and copy, and the token-row fragments that have come, as pair, byte offset and bytes (R269). -/
structure SpillServe where
  req : Packet
  port : Nat
  entry : List Byte
  st : Nat
  pa : Nat
  rows : List (Nat × Nat × List Byte)
deriving DecidableEq, Repr

/-- Expert dispatch beside the EXD registers (chapter 11). -/
structure Exd where
  work : Option Expert
  serves : List SpillServe
  nextGroup : Nat
  /-- pairs admitted or accepted by a server in the EXPERT_BATCH in progress, and output bytes written -/
  batchPairs : Nat
  batchBytes : Nat
deriving DecidableEq, Repr

/-- The ATTN_STEP in progress (R289, R295): its descriptor, the sequence list it read, the sequences finished, the bytes of their output rows, and the pages read for them. -/
structure AttnWork where
  key : DescKey
  list : List Byte
  finished : List Nat
  bytes : Nat
  pages : Nat
deriving DecidableEq, Repr


/-- Why a step stops. -/
inductive Fault where
  /-- raised by GRANULE_READ and ROW_WRITE for a row at or past 2^31: a stack has 2^31 granule slots, so no such row exists (chapter 06, Clasp rows). Safe: the machine stops where the hardware has nothing to do. -/
  | noSuchRow
deriving DecidableEq, Repr

/-- Why a command is not carried out. -/
inductive Refusal where
  /-- raised by an arm of exec whose command has no meaning yet, with its mnemonic. Safe: nothing is claimed of it. -/
  | notModelled (mnemonic : String)
deriving DecidableEq, Repr

/-- The whole state of the NP32. -/
structure State where
  /-- the commands that wait, first in, first out -/
  pending : List Instr
  /-- every register that does not hold its reset value: offset and word -/
  regs : SMap Word
  /-- the shadow copy of RWS fields, where it differs from their reset values (R61) -/
  shadow : SMap Word
  pins : Pins
  time : TimeState
  clocks : List QuadClock
  stackTherm : List StackTherm
  boot : Boot
  commit : Option Commit
  events : Events
  mgmt : Mgmt
  loupe : Loupe
  pool : Pool
  banks : Banks
  sec : Sec
  ports : Ports
  pair : Pair
  router : Router
  traffic : Traffic
  links : List Link
  /-- the session value drawn at the last cold reset (R350) -/
  session : Nat
  coh : Coh
  ilc : Ilc
  que : Que
  leaseFills : List LeaseFill
  rcp : Rcp
  exd : Exd
  attn : Option AttnWork
  /-- free values drawn so far -/
  fresh : Nat
  /-- what has left the NP32 through its pins and ports, oldest first -/
  out : List OutMsg
deriving DecidableEq, Repr

/-- A link that has never been brought up. -/
def Link.reset : Link :=
  { next := 0, ackBase := 0, replay := [], replayAt := none, ackNt := 0, expect := 0, nak := false, nakDue := false, nakNt := 0
    seen := List.replicate 8 0, freed := List.replicate 8 0, peerBuf := List.replicate 8 0, cvc := 0, tx := none, rx := none
    peer := none, peerSource := false, since := 0, fails := [], resumeSent := false, resumeGot := none, swap := none
    laneFaults := [], laneSince := [], window := List.replicate 16 0, slots := 0, exchanges := [], asked := none }

/-- The pins right after power-on: PWROK and PERST_N high, the straps low. -/
def Pins.reset : Pins := ⟨true, true, true, false, false, true⟩

/-- Start-up before step 2. -/
def Boot.reset : Boot :=
  { warm := false, keep := false, idle := true, smbus := false, defaulted := false, routerOn := false, recal := false, recalNext := 0
    autoAt := none, laneFailed := [], fwDigest := 0, cfgDigest := 0, fwSvn := 0 }

/-- Loupe with no capture, stop, snapshot or dump. -/
def Loupe.reset : Loupe :=
  { sources := [], writer := [], gaps := [], tokens := 0, tokensNt := 0, remaining := 0, snapshot := none, resume := none, stopLinks := []
    lostLinks := [], wdog := List.replicate 4 0, wdogArmed := List.replicate 4 true, hung := [], dumpNt := List.replicate 5 0, ntHigh := 0
    buffer := [], refused := [] }

/-- A Clasp group with no stack failed and no task. -/
def ClaspGroup.reset : ClaspGroup := ⟨none, 0, 0, .none, none, 0, none, 0, [], [], 0⟩

/-- Pool memory that holds zero everywhere. -/
def Pool.reset : Pool := ⟨[], List.replicate 4 ClaspGroup.reset, List.replicate 32 0, [], [], []⟩

/-- The Setting banks, empty. -/
def Banks.reset : Banks :=
  { cells := [], written := [], handovers := [], powering := [], power := [], testing := List.replicate 32 none
    testNext := List.replicate 32 0, testNt := List.replicate 32 0, held := [], repaired := [], whole := [], gotA := [], gotB := [] }

/-- Hallmark without a key, and with no session used. -/
def Sec.reset : Sec := ⟨none, none, 0, none, none, 0, 0, false⟩

/-- The pairing state with pairing disabled. -/
def Pair.reset : Pair :=
  { log := [], nextId := 0, lastLink := 0, pinNt := 0, fabNt := 0, highTerm := 0, beats := 0
    claimNt := 0, partnerRole := 0, partnerSealed := false, leaving := false, takeover := none, copying := false, doorbells := []
    answers := [], nextBeat := 0, nextClaim := 0 }

/-- The router, empty. -/
def Router.reset : Router := ⟨[], [], [], [], [], [], [], none⟩

/-- Coherence with nothing cached. -/
def Coh.reset : Coh :=
  { caches := List.replicate 32 [], dir := List.replicate 4 [], born := 0, txns := [], waiting := [], msgs := [], misses := []
    delivered := [], holds := [], heldGrants := [], losses := [], lossWaits := [] }

/-- The Ilcen link DOWN. -/
def Ilc.reset : Ilc :=
  { since := 0, expect := 0, acked := 0, fails := [], errMs := 0, errs := 0, trained := false, closing := false, peer := none
    reqCredits := List.replicate 8 0, snpCredits := List.replicate 8 0 }

/-- The queue engines, empty. -/
def Que.reset : Que :=
  { descs := [], fetches := [], rounds := List.replicate 4 ⟨none, []⟩, order := 0, fences := [], zeroing := [], retiring := [], bmc := List.replicate 4 []
    fills := [], tiles := [], syncs := [], written := [], announces := [] }

/-- The machine right after power-on, before start-up step 2: every register at its reset value, memory with nothing listed, and no command waiting (R42, Table SU-1). -/
def State.reset : State :=
  { pending := []
    regs := []
    shadow := []
    pins := Pins.reset
    time := ⟨0, 0, 0, 0⟩
    clocks := List.replicate 4 ⟨false, false, false, false, 0, 0⟩
    stackTherm := List.replicate 32 ⟨false, false⟩
    boot := Boot.reset
    commit := none
    events := ⟨[], 0, [], none, false, false, []⟩
    mgmt := ⟨none, none, false⟩
    loupe := Loupe.reset
    pool := Pool.reset
    banks := Banks.reset
    sec := Sec.reset
    ports := ⟨[], 1, 0, 0, 0, 0⟩
    pair := Pair.reset
    router := Router.reset
    traffic := ⟨[], [], [], [], []⟩
    links := List.replicate 32 Link.reset
    session := Config.free 0 % 2 ^ 64
    coh := Coh.reset
    ilc := Ilc.reset
    que := Que.reset
    leaseFills := []
    rcp := ⟨none, [], [], [], [], [], none, [], []⟩
    exd := ⟨none, [], 0, 0, 0⟩
    attn := none
    fresh := 1
    out := [] }

end Sys2Proof.Machine
end

