-- ==== Sys2Proof/Machine/Ops.lean ====
section
/-! DEFINITION. The named operations over registers, shadow, violation log, output and free values: the one place where registers are read and written. -/

namespace Sys2Proof.Machine

open Sys2Proof

/-- What a command answers. -/
abbrev Result := Host.Outcome State Fault Refusal

/-- The register a word holds: what the sparse map lists, or the reset value. -/
def State.reg (s : State) (off : Nat) : Word := mget resetWord s.regs off

/-- A field of a register. -/
def State.fld (s : State) (off : Nat) (f : Field) : Nat := getF (s.reg off) f

/-- Whether a one-bit field of a register is 1. -/
def State.on (s : State) (off : Nat) (f : Field) : Bool := s.fld off f == 1

/-- A register set. -/
def State.setReg (s : State) (off : Nat) (w : Word) : State := { s with regs := mset resetWord s.regs off w }

/-- A field of a register set. -/
def State.setFld (s : State) (off : Nat) (f : Field) (v : Nat) : State := s.setReg off (setF (s.reg off) f v)

/-- A counter field raised, stopping at the top of its width. -/
def State.countSat (s : State) (off : Nat) (f : Field) (n : Nat) : State :=
  s.setFld off f (satAdd f.width (s.fld off f) n)

/-- A counter field raised, wrapping at its width. -/
def State.countWrap (s : State) (off : Nat) (f : Field) (n : Nat) : State :=
  s.setFld off f (s.fld off f + n)

/-- The bits of the fields of a register that carry one access code. -/
def accMask (off : Nat) (a : Access) : Nat :=
  match regRow off with
  | none => 0
  | some r => r.fields.foldl (fun n f => if f.acc = a then n + (2 ^ f.width - 1) * 2 ^ f.lo else n) 0

/-- The RWS bits of a word of a register. -/
def rwsPart (off : Nat) (w : Word) : Word := w &&& BitVec.ofNat 64 (accMask off .rws)

/-- What the shadow copy holds at reset: the reset values of the RWS fields (R45). -/
def shadowReset (off : Nat) : Word := rwsPart off (resetWord off)

/-- The shadow copy of a register: its RWS fields, 0 elsewhere. -/
def State.shadowReg (s : State) (off : Nat) : Word := mget shadowReset s.shadow off

/-- The shadow copy of the RWS fields of a register set to those of a word. -/
def State.setShadow (s : State) (off : Nat) (w : Word) : State :=
  { s with shadow := mset shadowReset s.shadow off (rwsPart off w) }

/-- A field set in both the live and the shadow copy, as an applied commit leaves it. -/
def State.setBoth (s : State) (off : Nat) (f : Field) (v : Nat) : State :=
  let s := s.setFld off f v
  { s with shadow := mset shadowReset s.shadow off (rwsPart off (setF (s.shadowReg off) f v)) }

/-- The word a register would hold if its staged values were applied. -/
def State.stagedReg (s : State) (off : Nat) : Word :=
  (s.reg off &&& ~~~ BitVec.ofNat 64 (accMask off .rws)) ||| s.shadowReg off

/-- The offsets that either copy lists, each once. -/
def State.touched (s : State) : List Nat := (s.shadow.map (·.1) ++ s.regs.map (·.1)).eraseDups

/-- The RWS registers whose shadow differs from live (CFG_STAGE_STATUS.staged). -/
def State.stagedOffsets (s : State) : List Nat :=
  s.touched.filter fun o => s.shadowReg o != rwsPart o (s.reg o)

/-- The state of the Ilcen link: 0 DOWN, 1 TRAINING, 2 PARAM, 3 ACTIVE, 4 RETRAIN (Table CO-12). -/
def State.ilcState (s : State) : Nat := s.fld (Reg.ILC_STATUS 0) Fld.ILC_STATUS_state

/-- Whether the Ilcen link is ACTIVE. -/
def State.ilcActive (s : State) : Bool := s.ilcState == 3

/-- Whether a message travels in the numbered flits of Ilcen (R332). -/
def overIlcen : OutMsg → Bool
  | .ilcenWrite _ _ => true
  | .ilcenRead _ _ => true
  | .ilcenAnswer _ _ _ => true
  | .snoop _ _ _ _ => true
  | .grant _ _ _ _ _ _ => true
  | _ => false

/-- A message sent in an Ilcen flit, which stays in the replay buffer of 1,024 flits until it is acknowledged; held while the link is not ACTIVE or the buffer is full (R332, R333). DESIGN CHOICE: each message goes in a flit of its own (assumption 90). -/
def State.sendFlit (s : State) (m : OutMsg) : State :=
  if s.ilcActive && decide (s.ilc.sent.length < 1024) then
    { s with out := s.out ++ [m], ilc := { s.ilc with next := (s.ilc.next + 1) % 4096, sent := s.ilc.sent ++ [(s.ilc.next, m)] } }
  else { s with ilc := { s.ilc with held := s.ilc.held ++ [m] } }

/-- A message sent out of the NP32. -/
def State.emit (s : State) (m : OutMsg) : State :=
  if overIlcen m then s.sendFlit m else { s with out := s.out ++ [m] }

/-- Messages that Ilcen holds sent as far as they can be, in their order. -/
def State.flushIlcen (s : State) : State :=
  s.ilc.held.foldl State.sendFlit { s with ilc := { s.ilc with held := [] } }

/-- NT in ns. -/
def State.nt (s : State) : Nat := s.time.nt

/-- The code of a path in GLB_CFG_VIOL (Table RM-8). -/
def pathCode : Path → Nat
  | .firmware => 0
  | .ilcen => 1
  | .quagen => 2
  | .smbus => 3
  | .jtag => 4

/-- An access logged in GLB_CFG_VIOL: its offset, kind and path, and the count raised (R501, Table RM-9). -/
def State.logViol (s : State) (path : Path) (kind off : Nat) : State :=
  let s := s.setFld Reg.GLB_CFG_VIOL Fld.GLB_CFG_VIOL_offset off
  let s := s.setFld Reg.GLB_CFG_VIOL Fld.GLB_CFG_VIOL_kind kind
  let s := s.setFld Reg.GLB_CFG_VIOL Fld.GLB_CFG_VIOL_path (pathCode path)
  s.countSat Reg.GLB_CFG_VIOL Fld.GLB_CFG_VIOL_count 1

/-- The serving quadrant of a client (Table SC-4). -/
def clientQuad (c : Nat) : Nat := c % 4

/-- The quadrant of a Setting, stack or link (Table SC-4). -/
def unitQuad (n : Nat) : Nat := n / 8

/-- QUE_CLIENT of a client. -/
def clientReg (c : Nat) : Nat := Reg.QUE_CLIENT (c % 4) (c / 4)

/-- The client of queue pair j of quadrant q (Table RM-2). -/
def clientOf (q j : Nat) : Nat := 4 * (j / 8) + q

/-- STK_SLAB of slab n. -/
def slabReg (n : Nat) : Nat := Reg.STK_SLAB (n % 4) (n / 4)

/-- BNK_BANK of a bank index (Setting × 64 + bank). -/
def bankReg (bi : Nat) : Nat := Reg.BNK_BANK (bi / 512) (bi / 64 % 8) (bi % 64)

/-- STK_PORT_STATUS of stack n. -/
def portStatus (n : Nat) : Nat := Reg.STK_PORT_STATUS (n / 8) (n % 8)

/-- STK_PORT_CTL of stack n. -/
def portCtl (n : Nat) : Nat := Reg.STK_PORT_CTL (n / 8) (n % 8)

/-- Whether pool mode is spare (R133, R134). -/
def State.spareMode (s : State) : Bool := s.on (Reg.STK_CTL 0) Fld.STK_CTL_pool_mode

/-- The slabs of the pool mode (R129). -/
def State.slabCount (s : State) : Nat := if s.spareMode then 12288 else 14336

/-- Whether a Clasp group has marked a position failed. -/
def State.posFailed (s : State) (q j : Nat) : Bool := (s.fld (Reg.CLS_STATUS q) Fld.CLS_STATUS_failed).testBit j

/-- Whether a stack is marked failed. -/
def State.stackFailed (s : State) (n : Nat) : Bool := s.posFailed (n / 8) (n % 8)

/-- The Bezel state: 0 OPEN, 1 BOUND, 2 RELEASING (SEC_STATUS.state). -/
def State.bezel (s : State) : Nat := s.fld Reg.SEC_STATUS Fld.SEC_STATUS_state

/-- Whether the Bezel is BOUND or RELEASING. -/
def State.sealed (s : State) : Bool := s.bezel == 1 || s.bezel == 2

/-- Whether the CORE domains are stopped by a global stop (R472). -/
def State.stopped (s : State) : Bool := s.on Reg.LPE_STOP Fld.LPE_STOP_stopped

/-- The last completed start-up step (CFG_BOOT_STATUS.done_step). -/
def State.doneStep (s : State) : Nat := s.fld Reg.CFG_BOOT_STATUS Fld.CFG_BOOT_STATUS_done_step

/-- The pair role: PAI_STATUS.role. -/
def State.role (s : State) : Nat := s.fld Reg.PAI_STATUS Fld.PAI_STATUS_role

/-- Whether a commit is pending (R63). -/
def State.committing (s : State) : Bool := s.commit.isSome

/-- The next free value, and the state that has drawn it. -/
def State.draw (s : State) : Nat × State := (s.fresh, { s with fresh := s.fresh + 1 })

/-- The Setting's line of a list of per-quadrant or per-unit values. -/
def at' {α : Type} (l : List α) (i : Nat) (d : α) : α := l.getD i d

end Sys2Proof.Machine
end

