-- ==== Sys2Proof/Machine/Store.lean ====
section
/-! DEFINITION. The contents of the stacks: slab placement, Clasp rows, spare slots, sealed units, and the reading and writing of granules with parity and reconstruction (R124 to R146, R446). -/

namespace Sys2Proof.Machine

open Sys2Proof

/-- An unlisted raw byte differs by nothing from what it held after the last fill (R49, R50). -/
def cellDefault (_ : Nat) : Byte := 0

/-- The key of a raw byte of a stack. -/
def cellKey (stack slot b : Nat) : Nat := stack * 2 ^ 39 + slot * 256 + b

/-- Where a slab puts a byte: stack and stack data offset (R130). -/
def placeOf (mode home frame o : Nat) : Nat × Nat :=
  let g := o / 256
  let b := o % 256
  let base := frame * 2 ^ 25
  if mode = 0 then (home, base + o)
  else if mode = 1 then (8 * home + g % 8, base + g / 8 * 256 + b)
  else (g % 32, base + g / 32 * 256 + b)

/-- The stack and stack data offset of a pool address in an enabled slab (R130), none elsewhere (R132). -/
def State.mapPA (s : State) (pa : Nat) : Option (Nat × Nat) :=
  let n := pa / 2 ^ 30
  if n < s.slabCount && s.on (slabReg n) Fld.STK_SLAB_enable then
    some (placeOf (s.fld (slabReg n) Fld.STK_SLAB_mode) (s.fld (slabReg n) Fld.STK_SLAB_home)
      (s.fld (slabReg n) Fld.STK_SLAB_frame) (pa % 2 ^ 30))
  else none

/-- The positions of a row that hold data of position j's kind, in ascending order of the slot within a group of eight rows (R134). -/
def spareRows (j : Nat) : List Nat := (List.range 8).filter fun k => k != j && k != (j + 7) % 8

/-- The row of data granule d of the stack at position j (R133, R134). -/
def rowOf (spare : Bool) (j d : Nat) : Nat :=
  if spare then d / 6 * 8 + (spareRows j).getD (d % 6) 0
  else
    let k := d % 7
    d / 7 * 8 + (if k < j then k else k + 1)

/-- The position of a row's parity granule (R133). -/
def parityPos (r : Nat) : Nat := r % 8

/-- The position of a row's spare slot in spare mode (R134). -/
def sparePos (r : Nat) : Nat := (r + 1) % 8

/-- The data granule index that position j holds in row r, none for parity and spare slots: the inverse of rowOf. -/
def dataIndex (spare : Bool) (j r : Nat) : Option Nat :=
  let k' := r % 8
  if k' = j then none
  else if spare then
    if (k' + 1) % 8 = j then none
    else (spareRows j).findIdx? (· == k') |>.map fun i => r / 8 * 6 + i
  else some (r / 8 * 7 + (if k' < j then k' else k' - 1))

/-- A Clasp group's part of the pool. -/
def State.group (s : State) (q : Nat) : ClaspGroup :=
  s.pool.groups.getD q ClaspGroup.reset

/-- The group's part set. -/
def State.setGroup (s : State) (q : Nat) (g : ClaspGroup) : State :=
  { s with pool := { s.pool with groups := s.pool.groups.set q g } }

/-- The first row that the group's background task has not done (R143). -/
def State.watermark (s : State) (q : Nat) : Nat := s.fld (Reg.CLS_REBUILD q) Fld.CLS_REBUILD_watermark

/-- Whether the granule of position j of row r lives in the row's spare slot (R134, R143). -/
def State.relocated (s : State) (q r j : Nat) : Bool :=
  let g := s.group q
  g.spareOf == some j && s.spareMode && (sparePos r != j) && decide (g.spareFrom ≤ r) && decide (r < g.spareTo)

/-- The position that physically holds the granule of position j of row r. -/
def State.physPos (s : State) (q r j : Nat) : Nat := if s.relocated q r j then sparePos r else j

/-- Whether the granule of position j of row r stands on a stack that works (R141, R143). -/
def State.working (s : State) (q r j : Nat) : Bool :=
  if s.relocated q r j then !s.posFailed q (sparePos r)
  else !s.posFailed q j || ((s.group q).target == some j && decide (r < (s.group q).ownRows))

/-- The members of a row that take part in its parity: all eight positions, without the spare slot in spare mode. -/
def State.members (s : State) (r : Nat) : List Nat :=
  (List.range 8).filter fun j => !(s.spareMode && j == sparePos r)

/-- The slab and offset whose granule stands at data index d of a stack, as a pool address, none where no enabled slab covers it: the inverse of R130. -/
def State.addressOf (s : State) (stack d : Nat) : Option Nat :=
  let off := d * 256
  (s.regs.filterMap fun e =>
    match windowOf e.1 with
    | some (.quad, q, rel) =>
      if 0x48000 ≤ rel && rel < 0x48000 + 3584 * 8 && getF e.2 Fld.STK_SLAB_enable == 1 then
        let n := 4 * ((rel - 0x48000) / 8) + q
        let mode := getF e.2 Fld.STK_SLAB_mode
        let home := getF e.2 Fld.STK_SLAB_home
        let base := getF e.2 Fld.STK_SLAB_frame * 2 ^ 25
        if mode = 0 then
          if home = stack && base ≤ off && off < base + 2 ^ 30 then some (n * 2 ^ 30 + (off - base)) else none
        else if mode = 1 then
          if home = stack / 8 && base ≤ off && off < base + 2 ^ 27 then
            some (n * 2 ^ 30 + ((off - base) / 256 * 8 + stack % 8) * 256) else none
        else if base ≤ off && off < base + 2 ^ 25 then
          some (n * 2 ^ 30 + ((off - base) / 256 * 32 + stack) * 256) else none
      else none
    | _ => none).head?

/-- 64 bytes as the data unit of XTS, byte 0 lowest. -/
def unitBits (bs : List Byte) : BitVec 512 := BitVec.ofNat 512 (ofLE bs)

/-- The encryption of an aligned 64-byte unit at a pool address; the unit itself where no key is installed (R446). -/
def sealUnit (key : Option SealKey) (pa : Nat) (bs : List Byte) : List Byte :=
  match key with
  | none => padTo 64 bs
  | some k => leBytes 64 (Config.xts k.key1 k.key2 pa (unitBits bs)).toNat

/-- The decryption of an aligned 64-byte unit at a pool address (R446). -/
def unsealUnit (key : Option SealKey) (pa : Nat) (bs : List Byte) : List Byte :=
  match key with
  | none => padTo 64 bs
  | some k => leBytes 64 ((Config.xts k.key1 k.key2 pa).symm (unitBits bs)).toNat

/-- A granule of four units encrypted. -/
def sealGranule (key : Option SealKey) (pa : Nat) (bs : List Byte) : List Byte :=
  (List.range 4).flatMap fun i => sealUnit key (pa + 64 * i) (slice bs (64 * i) 64)

/-- A granule of four units decrypted. -/
def unsealGranule (key : Option SealKey) (pa : Nat) (bs : List Byte) : List Byte :=
  (List.range 4).flatMap fun i => unsealUnit key (pa + 64 * i) (slice bs (64 * i) 64)

/-- 256 zero bytes. -/
def zeroGranule : List Byte := List.replicate 256 0

/-- What the granule of data index d of a stack held after the last fill: zero, or the encryption of zero under its pool address while a key is installed (R445). -/
def State.fillData (s : State) (stack d : Nat) : List Byte :=
  match s.sec.key with
  | none => zeroGranule
  | some _ =>
    match s.addressOf stack d with
    | none => zeroGranule
    | some pa => sealGranule s.sec.key pa zeroGranule

/-- What the granule at position j of row r of group q held after the last fill, parity being the XOR of the row's data. -/
def State.fillAt (s : State) (q r j : Nat) : List Byte :=
  match s.sec.key with
  | none => zeroGranule
  | some _ =>
    if parityPos r = j then
      (s.members r).foldl (fun acc i =>
        match dataIndex s.spareMode i r with
        | some d => xorBytes acc (s.fillData (8 * q + i) d)
        | none => acc) zeroGranule
    else
      match dataIndex s.spareMode j r with
      | some d => s.fillData (8 * q + j) d
      | none => zeroGranule

/-- The raw 256 bytes of the granule of position j of row r, wherever it lives. -/
def State.rawGranule (s : State) (q r j : Nat) : List Byte :=
  xorBytes (mgetList cellDefault s.pool.cells (cellKey (8 * q + s.physPos q r j) r 0) 256) (s.fillAt q r j)

/-- Differences combined into the raw bytes of a granule, from a byte on. -/
def State.xorGranule (s : State) (q r j start : Nat) (delta : List Byte) : State :=
  let k := cellKey (8 * q + s.physPos q r j) r start
  { s with pool := { s.pool with
      cells := msetList cellDefault s.pool.cells k
        (xorBytes (mgetList cellDefault s.pool.cells k delta.length) delta) } }

/-- The row-log registers of a group that hold something: index and word. A word that the register map does not list is at its reset value, which is not valid. -/
def State.rowLog (s : State) (q : Nat) : List (Nat × Word) :=
  (s.regs.filter fun e => decide (Reg.CLS_ROW_LOG q 0 ≤ e.1) && decide (e.1 < Reg.CLS_ROW_LOG q 256)).map fun e => ((e.1 - Reg.CLS_ROW_LOG q 0) / 8, e.2)

/-- The row-log entry of a row: index and lost mask (R144). -/
def State.rowEntry (s : State) (q r : Nat) : Option (Nat × Nat) :=
  ((s.rowLog q).find? fun e => getF e.2 Fld.CLS_ROW_LOG_valid == 1 && getF e.2 Fld.CLS_ROW_LOG_row == r).map fun e =>
    (e.1, getF e.2 Fld.CLS_ROW_LOG_lost)

/-- The lost mask of a double-fault row, logged or waiting for an entry (R144, R145). -/
def State.lostMask (s : State) (q r : Nat) : Option Nat :=
  match s.rowEntry q r with
  | some (_, m) => some m
  | none => ((s.group q).waiting.find? fun e => e.1 == r).map (·.2)

/-- A row whose parity is not used (R145). -/
def State.stale (s : State) (q r : Nat) : Bool := (s.lostMask q r).isSome

/-- The lost mask of a double-fault row replaced, where it is kept. -/
def State.setLost (s : State) (q r m : Nat) : State :=
  match s.rowEntry q r with
  | some (e, _) => s.setFld (Reg.CLS_ROW_LOG q e) Fld.CLS_ROW_LOG_lost m
  | none =>
    let g := s.group q
    s.setGroup q { g with waiting := g.waiting.map fun w => if w.1 == r then (r, m) else w }

/-- The units of 64 bytes of a granule that a range of its bytes touches (R124). -/
def unitsOf (start n : Nat) : List Nat := (List.range 4).filter fun i => decide (start < 64 * (i + 1)) && decide (64 * i < start + n)

/-- Every unit of a granule. -/
def allUnits : List Nat := [0, 1, 2, 3]

/-- The answer of port ECC for a unit of 64 bytes, numbered 4 × slot + its place in the granule; clean where the environment names none (R124). -/
def eccOf (ecc : List (Nat × Nat × EccResult)) (stack unit : Nat) : EccResult :=
  match ecc.find? fun e => e.1 == stack && e.2.1 == unit with
  | some (_, _, r) => r
  | none => .clean

/-- Whether an ECC answer leaves the granule unreadable at its port. -/
def eccFails : EccResult → Bool
  | .detected => true
  | .hard => true
  | _ => false

/-- The answers of port ECC for units of the granule of position j of row r. -/
def State.eccAt (s : State) (ecc : List (Nat × Nat × EccResult)) (q r j : Nat) (units : List Nat) : List EccResult :=
  units.map fun i => eccOf ecc (8 * q + s.physPos q r j) (4 * r + i)

/-- Whether units of the granule of position j of row r can be read without reconstruction. -/
def State.readable (s : State) (ecc : List (Nat × Nat × EccResult)) (q r j : Nat) (units : List Nat) : Bool :=
  s.working q r j && !(((s.lostMask q r).getD 0).testBit j) && !((s.eccAt ecc q r j units).any eccFails)

/-- How a granule was read. -/
inductive ReadVia where
  | direct | rebuilt | lost
deriving DecidableEq, Repr

/-- The members of a row other than position j. -/
def State.others (s : State) (r j : Nat) : List Nat := (s.members r).filter (· != j)

/-- The raw bytes that position j of row r has by the other members of the row (R138). -/
def State.xorOthers (s : State) (q r j : Nat) : List Byte :=
  (s.others r j).foldl (fun acc i => xorBytes acc (s.rawGranule q r i)) zeroGranule

/-- The raw granule at position j of row r: read at its port, where some of its units are asked for, or rebuilt from every other member of the row (R126, R138), or lost (R144). -/
def State.fetchRaw (s : State) (ecc : List (Nat × Nat × EccResult)) (q r j : Nat) (units : List Nat) : List Byte × ReadVia :=
  if s.readable ecc q r j units then (s.rawGranule q r j, .direct)
  else if !s.stale q r && (s.others r j).all (fun i => s.readable ecc q r i allUnits) then (s.xorOthers q r j, .rebuilt)
  else (zeroGranule, .lost)

/-- The positions of a row that cannot be read. -/
def State.unreadable (s : State) (ecc : List (Nat × Nat × EccResult)) (q r : Nat) : List Nat :=
  (s.members r).filter fun j => !s.readable ecc q r j allUnits

/-- The positions of a row that cannot be read, as a mask. -/
def State.unreadableMask (s : State) (ecc : List (Nat × Nat × EccResult)) (q r : Nat) : Nat :=
  (s.unreadable ecc q r).foldl (fun m j => m + 2 ^ j) 0

/-- Whether a row has a double fault, logged or not (R144, R145). -/
def State.doubled (s : State) (ecc : List (Nat × Nat × EccResult)) (q r : Nat) : Bool :=
  s.stale q r || decide (2 ≤ (s.unreadable ecc q r).length)

/-- Whether a write of whole units to the granule of a failed stack reads the other data granules of its row only: its parity becomes their XOR with the new data (Table PM-4). -/
def State.writesParity (s : State) (ecc : List (Nat × Nat × EccResult)) (q r j start n : Nat) : Bool :=
  !s.working q r j && s.working q r (parityPos r) && start % 64 == 0 && n % 64 == 0 && !s.stale q r &&
  ((s.others r j).filter (· != parityPos r)).all fun i => s.readable ecc q r i allUnits

/-- What a write of bytes of the granule of position j finds it to hold, and how (R135, Table PM-4). -/
def State.fetchOld (s : State) (ecc : List (Nat × Nat × EccResult)) (q r j start n : Nat) : List Byte × ReadVia :=
  if s.writesParity ecc q r j start n then (s.xorOthers q r j, .direct) else s.fetchRaw ecc q r j (unitsOf start n)

/-- Raw bytes stored in a granule, with the parity delta: one row transaction (R135, R136, R145). The Boolean is false where the data is dropped. `old` is what the granule held. -/
def State.storeRaw (s : State) (ecc : List (Nat × Nat × EccResult)) (q r j start : Nat) (old new : List Byte) : State × Bool :=
  let delta := xorBytes old new
  let pp := parityPos r
  if s.doubled ecc q r then
    if s.working q r j then
      let s := s.xorGranule q r j start delta
      (s.setLost q r (((s.lostMask q r).getD 0) &&& (0xFF - 2 ^ j)), true)
    else (s, false)
  else
    let s1 := if s.working q r j then s.xorGranule q r j start delta else s
    let s2 := if s.working q r pp then s1.xorGranule q r pp start delta else s1
    (s2, s.working q r j || s.working q r pp)

/-- The Clasp coordinates of a pool address: group, row and position (R130, R133, R134). -/
def State.rowAt (s : State) (pa : Nat) : Option (Nat × Nat × Nat) :=
  (s.mapPA pa).map fun p => (p.1 / 8, rowOf s.spareMode (p.1 % 8) (p.2 / 256), p.1 % 8)

/-- The aligned pieces of a byte range, each within one granule: first address and length. -/
def granulePieces (pa : Nat) : Nat → List (Nat × Nat)
  | 0 => []
  | n + 1 =>
    let here := min (n + 1) (256 - pa % 256)
    if n + 1 ≤ here then [(pa, n + 1)]
    else (pa, here) :: ((List.range ((n + 1 - here + 255) / 256)).map fun i =>
      (pa + here + 256 * i, min 256 (n + 1 - here - 256 * i)))

/-- A range of bytes of one granule read and decrypted, with how it was read; none where no enabled slab holds it. -/
def State.readPiece (s : State) (ecc : List (Nat × Nat × EccResult)) (pa n : Nat) : Option (List Byte × ReadVia) :=
  match s.rowAt pa with
  | none => none
  | some (q, r, j) =>
    let (raw, via) := s.fetchRaw ecc q r j (unitsOf (pa % 256) n)
    if via = .lost then some (List.replicate n 0, .lost)
    else some (slice (unsealGranule s.sec.key (pa / 256 * 256) raw) (pa % 256) n, via)

/-- Bytes stored in one granule through its stack port, encrypted where a key is installed: the row transaction of R135. The result says how the old granule was read and whether the data was stored. -/
def State.writePiece (s : State) (ecc : List (Nat × Nat × EccResult)) (pa : Nat) (data : List Byte) :
    State × ReadVia × Bool :=
  match s.rowAt pa with
  | none => (s, .lost, false)
  | some (q, r, j) =>
    let (old, via) := s.fetchOld ecc q r j (pa % 256) data.length
    let old := if via = .lost then s.rawGranule q r j else old
    let base := pa / 256 * 256
    let new := sealGranule s.sec.key base (splice (unsealGranule s.sec.key base old) (pa % 256) data)
    let (s, ok) := s.storeRaw ecc q r j 0 old new
    (s, via, ok)

/-- Bytes stored from a pool address on, piece by piece, without any count or event: the direct path of the trace writer and of dumps (R468, R475). -/
def State.pokePool (s : State) (pa : Nat) (data : List Byte) : State :=
  (granulePieces pa data.length).foldl (fun s p => (s.writePiece [] p.1 (slice data (p.1 - pa) p.2)).1) s

/-- Bytes read from a pool address on, zero where they are lost or no enabled slab holds them. -/
def State.peekPool (s : State) (pa n : Nat) : List Byte :=
  (granulePieces pa n).flatMap fun p => ((s.readPiece [] p.1 p.2).getD (List.replicate p.2 0, .lost)).1

/-- Whether every byte of a range lies in enabled slabs. -/
def State.inSlabs (s : State) (pa n : Nat) : Bool :=
  (List.range ((pa + n + 2 ^ 30 - 1) / 2 ^ 30 - pa / 2 ^ 30)).all fun i =>
    (pa / 2 ^ 30 + i) < s.slabCount && s.on (slabReg (pa / 2 ^ 30 + i)) Fld.STK_SLAB_enable

/-- Whether a slab fills: accesses to it are held (R131). -/
def State.slabFilling (s : State) (pa : Nat) : Bool :=
  (s.mapPA pa).isSome && s.fld (slabReg (pa / 2 ^ 30)) Fld.STK_SLAB_state != 2

/-- Whether the stack at a position of a group is in self-refresh, or on its way into or out of it (Table PM-2). -/
def State.asleep (s : State) (q j : Nat) : Bool :=
  !s.posFailed q j && s.fld (portStatus (8 * q + j)) Fld.STK_PORT_STATUS_state == 2

/-- Whether the accesses to a pool address are held: the slab fills, the stack ports of its quadrant do not serve, or a stack that it is read from is in self-refresh: its own, or where that has failed every other of the row (R131, R132). -/
def State.paHeld (s : State) (pa : Nat) : Bool :=
  match s.rowAt pa with
  | none => false
  | some (q, r, j) =>
    s.slabFilling pa || !s.on (Reg.STK_CTL q) Fld.STK_CTL_enable ||
    (if s.working q r j then s.asleep q (s.physPos q r j) else (s.others r j).any fun i => s.asleep q (s.physPos q r i))

/-- Whether the writes to a pool address are held: its accesses are, or the stack of its row's parity is in self-refresh (R132, R135). -/
def State.paWriteHeld (s : State) (pa : Nat) : Bool :=
  s.paHeld pa || match s.rowAt pa with
  | none => false
  | some (q, r, _) => s.asleep q (s.physPos q r (parityPos r))

/-- The address of the first byte of a range that lies in no enabled slab of the pool (R132); that of the range where there is none. -/
def State.firstOutside (s : State) (pa n : Nat) : Nat :=
  let slabs := (List.range ((pa + n + 2 ^ 30 - 1) / 2 ^ 30 - pa / 2 ^ 30)).map fun i => pa / 2 ^ 30 + i
  match slabs.find? fun b => !(decide (b < s.slabCount) && s.on (slabReg b) Fld.STK_SLAB_enable) with
  | some b => max pa (b * 2 ^ 30)
  | none => pa

end Sys2Proof.Machine
end

