-- ==== Sys2Proof/Machine/BankWords.lean ====
section
/-! DEFINITION. The words of the Setting banks with their written-line bitmap, and the record of a refused access (R153, R156, R163). -/

namespace Sys2Proof.Machine

open Sys2Proof

/-- The key of a bank byte: bank index × 262,144 + byte. -/
def bankKey (bi b : Nat) : Nat := bi * 262144 + b

/-- The key of a bank line: bank index × 4,096 + line. -/
def lineKey (bi line : Nat) : Nat := bi * 4096 + line

/-- A line is not written unless it is listed. -/
def writtenDefault (_ : Nat) : Bool := false

/-- Whether the line of a bank word has been written (R163). -/
def State.lineWritten (s : State) (bi k : Nat) : Bool := mget writtenDefault s.banks.written (lineKey bi (k / 2))

/-- The 32 bytes of a bank word; zero while its line has not been written (R163). -/
def State.bankWord (s : State) (bi k : Nat) : List Byte :=
  if s.lineWritten bi k then mgetList cellDefault s.banks.cells (bankKey bi (32 * k)) 32 else List.replicate 32 0

/-- What bank words hold: their bytes, and the lines that have been written. -/
abbrev Words := SMap Byte × SMap Bool

/-- Bytes stored in a bank word. The first write to a line stores zero in the line's other bytes, and sets its written bit (R163). -/
def Words.store (m : Words) (bi k start : Nat) (data : List Byte) : Words :=
  let base := bankKey bi (64 * (k / 2))
  let cells := if mget writtenDefault m.2 (lineKey bi (k / 2)) then m.1 else mclear m.1 base (base + 64)
  (msetList cellDefault cells (bankKey bi (32 * k + start)) (data.take (32 - start)), mset writtenDefault m.2 (lineKey bi (k / 2)) true)

/-- What the banks' words hold, replaced. -/
def State.setWords (s : State) (m : Words) : State := { s with banks := { s.banks with cells := m.1, written := m.2 } }

/-- Bytes stored in a bank word of the package. -/
def State.setBankWord (s : State) (bi k start : Nat) (data : List Byte) : State :=
  s.setWords (Words.store (s.banks.cells, s.banks.written) bi k start data)

/-- A refusal recorded in BNK_FAULT (R156). -/
def State.noteBankFault (s : State) (st bank tag kind : Nat) : State :=
  let r := Reg.BNK_FAULT (st / 8) (st % 8)
  let s := s.setFld r Fld.BNK_FAULT_bank bank
  let s := s.setFld r Fld.BNK_FAULT_tag tag
  let s := s.setFld r Fld.BNK_FAULT_kind kind
  s.countSat r Fld.BNK_FAULT_count 1

end Sys2Proof.Machine
end

