-- ==== Sys2Proof/Machine/Trace.lean ====
section
/-! DEFINITION. Loupe's event path: counters and their selectors, filters and compare units, triggers, the trace writer and its capture states, and the global stop (R458 to R472). -/

namespace Sys2Proof.Machine

open Sys2Proof

/-- Work of no descriptor (R461). -/
def noWork : Work := ⟨0xFFFF, 0, none, false⟩

/-- The quadrant whose selectors see a source (R460). -/
def sourceQuad (cls idx : Nat) : Nat :=
  if cls = 0 then idx / 64
  else if cls = 1 then idx / 8
  else if cls = 2 then idx / 32
  else if cls = 3 then idx / 8
  else if cls = 8 then idx / 8
  else if cls < 10 then idx % 4
  else 0

/-- Whether a quadrant's CORE clock runs at half rate (R37). -/
def State.halfRate (s : State) (q : Nat) : Bool :=
  match s.clocks[q]? with
  | none => false
  | some c => c.stretching || c.throttled

/-- Whether the CORE clocks of the package stand: a global stop, or the critical thermal level (R472, Table PK-5). -/
def State.coreStopped (s : State) : Bool := s.stopped || !s.pins.thermN

/-- Whether the units do no work: the CORE clocks stand, or the node has failed and gives no further service (R16, R488). -/
def State.workStopped (s : State) : Bool := s.coreStopped || s.events.fatal

/-- The low 32 bits of the cycle count of a source's domain (R458, Table LP-2). The CORE domains are counted in LPE_FIX; the other domains run from the TIME count at their rates. -/
def State.cycleOf (s : State) (cls idx : Nat) : Nat :=
  (if cls = 0 || cls = 1 || cls = 2 || cls = 6 || cls = 7 || cls = 9 then
    (s.reg (Reg.LPE_FIX (sourceQuad cls idx) 0)).toNat
  else if cls = 3 || cls = 4 then s.time.count * 5 / 4
  else if cls = 8 then s.time.count * 25 / 16
  else s.time.count) % 2 ^ 32

/-- Codes that are counted and never traced (Table LP-1). -/
def countedOnly (code : Nat) : Bool :=
  code == 0x001 || code == 0x002 || code == 0x003 || code == 0x004 || code == 0x041 || code == 0x042 ||
  code == 0x043 || code == 0x081 || code == 0x0C1 || code == 0x181 || code == 0x201

/-- Whether an event passes a filter (R461). -/
def filterPass (w0 w1 : Word) (w : Work) : Bool :=
  decide (getF w0 Fld.LPE_FILT0_layer_lo ≤ w.layer) && decide (w.layer ≤ getF w0 Fld.LPE_FILT0_layer_hi) &&
  (((w.op ^^^ getF w0 Fld.LPE_FILT0_op_id) &&& getF w0 Fld.LPE_FILT0_op_mask) == 0) &&
  (getF w1 Fld.LPE_FILT1_client_en == 0 || w.client == some (getF w1 Fld.LPE_FILT1_client))

/-- Whether a selector admits an event (R460). -/
def State.admits (s : State) (q : Nat) (sel : Word) (cls idx code : Nat) (w : Work) : Bool :=
  getF sel Fld.LPE_SEL_enable == 1 && getF sel Fld.LPE_SEL_event == code &&
  (getF sel Fld.LPE_SEL_class_any == 1 || getF sel Fld.LPE_SEL_src_class == cls) &&
  (getF sel Fld.LPE_SEL_index_any == 1 || getF sel Fld.LPE_SEL_src_index == idx % 4096) &&
  (getF sel Fld.LPE_SEL_filt_en == 0 ||
    filterPass (s.reg (Reg.LPE_FILT0 q (getF sel Fld.LPE_SEL_filter)))
      (s.reg (Reg.LPE_FILT1 q (getF sel Fld.LPE_SEL_filter))) w)

/-- The counters of a quadrant whose selectors have been written, with their selectors. -/
def State.selectors (s : State) (q : Nat) : List (Nat × Word) :=
  s.regs.filterMap fun e =>
    if Reg.LPE_SEL q 0 ≤ e.1 && e.1 < Reg.LPE_SEL q 512 then some ((e.1 - Reg.LPE_SEL q 0) / 8, e.2) else none

/-- The window word of a bank-mode trace slot: bank index and word (R154, R468). -/
def slotWord (buffer : List Nat) (i : Nat) : Nat × Nat :=
  (buffer.getD (i % buffer.length) 0, i / buffer.length)

/-- The capacity C of a capture's buffer (R468). -/
def State.captureSize (s : State) : Nat :=
  if s.on Reg.LPE_TRC_CFG Fld.LPE_TRC_CFG_dest then s.fld Reg.LPE_TRC_LEN Fld.LPE_TRC_LEN_length / 32
  else s.loupe.buffer.length * 8192

/-- The 32 bytes of a trace record (Table LP-2); under a sealed Bezel its payload is zero and the sealed flag set (R479). -/
def traceBytes (sealed : Bool) (r : TraceRec) : List Byte :=
  leBytes 6 r.nt ++ leBytes 2 (r.idx % 4096 + r.cls * 4096) ++
  leBytes 2 (r.code + bit r.trig * 2 ^ 12 + bit r.half * 2 ^ 13 + bit sealed * 2 ^ 14 + bit r.gap * 2 ^ 15) ++
  leBytes 2 r.work.layer ++ leBytes 2 r.work.op ++
  leBytes 2 (match r.work.client with
    | some c => c + 2 ^ 9
    | none => 0) ++
  leBytes 4 r.cycle ++ (if sealed then List.replicate 12 0 else padTo 12 r.payload)

/-- A trace record of an event that comes about now. -/
def State.record (s : State) (cls idx code : Nat) (w : Work) (payload : List Byte) : TraceRec :=
  ⟨s.nt, cls, idx, code, false, cls < 10 && s.halfRate (sourceQuad cls idx), false, w, s.cycleOf cls idx, payload⟩

/-- How a bank of the trace buffer refuses a write of the trace writer: a kind of BNK_FAULT (R156); none where it serves it. -/
def State.traceRefusal (s : State) (bi : Nat) : Option Nat :=
  if s.fld (bankReg bi) Fld.BNK_BANK_owner != 10 then some 0
  else if s.on (bankReg bi) Fld.BNK_BANK_failed then some 3
  else if mget (fun _ => 0) s.banks.power bi != 0 then some 2
  else none

/-- 32 bytes stored in a slot of the trace buffer, and whether they were. A refused bank write drops them: it is recorded in BNK_FAULT and counted by Loupe, and its bank event is due (R156, R468). -/
def State.putSlot (s : State) (i : Nat) (bs : List Byte) : State × Bool :=
  if s.on Reg.LPE_TRC_CFG Fld.LPE_TRC_CFG_dest then
    (s.pokePool (s.fld Reg.LPE_TRC_SEG Fld.LPE_TRC_SEG_base + 32 * i) bs, true)
  else
    let (bi, k) := slotWord s.loupe.buffer i
    match s.traceRefusal bi with
    | none => (s.setBankWord bi k 0 bs, true)
    | some kind =>
      let s := (s.noteBankFault (bi / 64) (bi % 64) 10 kind).countSat Reg.LPE_TRC_CNT Fld.LPE_TRC_CNT_not_written 1
      ({ s with loupe := { s.loupe with refused := s.loupe.refused ++ [(bi, kind)] } }, false)

/-- A record stored at slot `next`, counted where it was stored, and next advanced modulo C (R471). -/
def State.putRecord (s : State) (r : TraceRec) : State :=
  let c := s.captureSize
  let next := s.fld Reg.LPE_TRC_PTR Fld.LPE_TRC_PTR_next
  let (s, stored) := s.putSlot next (traceBytes s.sealed r)
  let s := s.setFld Reg.LPE_TRC_PTR Fld.LPE_TRC_PTR_next ((next + 1) % c)
  if stored then s.countWrap Reg.LPE_TRC_CNT Fld.LPE_TRC_CNT_written 1 else s

/-- The capture state (LPE_TRC_STATUS.state): 0 IDLE, 1 PRE, 2 POST, 3 FULL, 4 RESERVE, 5 STOPPED. -/
def State.captureState (s : State) : Nat := s.fld Reg.LPE_TRC_STATUS Fld.LPE_TRC_STATUS_state

/-- The capture state set. -/
def State.setCapture (s : State) (v : Nat) : State := s.setFld Reg.LPE_TRC_STATUS Fld.LPE_TRC_STATUS_state v

/-- Post-trigger records still to be written. -/
def State.setRemaining (s : State) (n : Nat) : State := { s with loupe := { s.loupe with remaining := n } }

/-- A record that reaches the capture: the record rows of Table LP-3. -/
def State.captureRecord (s : State) (r : TraceRec) : State :=
  let c := s.captureSize
  let p := s.fld Reg.LPE_TRC_TRIG Fld.LPE_TRC_TRIG_post_eff
  let full := s.on Reg.LPE_TRC_CFG Fld.LPE_TRC_CFG_mode
  let next := s.fld Reg.LPE_TRC_PTR Fld.LPE_TRC_PTR_next
  let oldest := s.fld Reg.LPE_TRC_PTR Fld.LPE_TRC_PTR_oldest
  match s.captureState with
  | 1 =>
    let valid := (next + c - oldest) % c
    let s := s.putRecord r
    if full then (if next + 1 = c - 64 then s.setCapture 3 else s)
    else if valid = c - p then s.setFld Reg.LPE_TRC_PTR Fld.LPE_TRC_PTR_oldest ((oldest + 1) % c)
    else s
  | 2 =>
    let rest := s.loupe.remaining - 1
    let s := (s.putRecord r).setRemaining rest
    if rest = 0 || (full && next + 1 = c) then s.setCapture 5 else s
  | 3 => s.countSat Reg.LPE_TRC_CNT Fld.LPE_TRC_CNT_not_written 1
  | 4 =>
    let rest := s.loupe.remaining - 1
    let s := (s.putRecord r).setRemaining rest
    if rest = 0 then s.setCapture 5 else s
  | 5 => s.countSat Reg.LPE_TRC_CNT Fld.LPE_TRC_CNT_not_written 1
  | _ => s

/-- Whether records of an event are traced: its group is enabled, and for descriptors and instances the trace flag or the setting for all of them (R466). -/
def State.traced (s : State) (code : Nat) (w : Work) : Bool :=
  (s.fld Reg.LPE_TRC_EN Fld.LPE_TRC_EN_groups).testBit (code / 64) &&
  (if code = 0x101 || code = 0x102 then w.trace || s.on Reg.LPE_TRC_CFG Fld.LPE_TRC_CFG_all_desc
   else if code = 0x141 || code = 0x142 then w.trace || s.on Reg.LPE_TRC_CFG Fld.LPE_TRC_CFG_all_ops
   else true)

/-- A record put into the queue of its source, 16 records at most (R469), where its event is traced. -/
def State.queueRecord (s : State) (r : TraceRec) : State :=
  let key := r.cls * 4096 + r.idx % 4096
  if s.captureState = 0 || !s.traced r.code r.work then s
  else if (s.loupe.sources.filter fun x => x.cls * 4096 + x.idx % 4096 == key).length < 16 then
    { s with loupe := { s.loupe with
        sources := s.loupe.sources ++ [{ r with gap := s.loupe.gaps.contains key }]
        gaps := s.loupe.gaps.filter (· != key) } }
  else
    let s := s.countSat Reg.LPE_TRC_CNT2 Fld.LPE_TRC_CNT2_overflow 1
    { s with loupe := { s.loupe with gaps := if s.loupe.gaps.contains key then s.loupe.gaps else key :: s.loupe.gaps } }

/-- The selectors that let in an event of a quadrant add its amount to their counters; the compare units that are passed and the selectors with trig set are returned as trigger causes and unit indices (R460, R463). -/
def State.countEvent (s : State) (cls idx code amount : Nat) (w : Work) : State × List (Nat × Nat) :=
  let q := sourceQuad cls idx
  if s.on Reg.LPE_CTL Fld.LPE_CTL_enable then
    (s.selectors q).foldl (fun (st : State × List (Nat × Nat)) e =>
      if s.admits q e.2 cls idx code w then
        let old := (st.1.reg (Reg.LPE_CTR q e.1)).toNat
        let new := (old + amount) % 2 ^ 64
        let s1 := st.1.setReg (Reg.LPE_CTR q e.1) (BitVec.ofNat 64 new)
        let (s2, hits) := (List.range 8).foldl (fun (c : State × List (Nat × Nat)) k =>
          let v := (c.1.reg (Reg.LPE_CMP0 q k)).toNat
          let w1 := c.1.reg (Reg.LPE_CMP1 q k)
          if getF w1 Fld.LPE_CMP1_enable == 1 && getF w1 Fld.LPE_CMP1_counter == e.1 &&
              getF w1 Fld.LPE_CMP1_hit == 0 && decide (old < v) && decide (v ≤ new) then
            (c.1.setReg (Reg.LPE_CMP1 q k) (setF w1 Fld.LPE_CMP1_hit 1), c.2 ++ [(1, q * 8 + k)])
          else c) (s1, [])
        (s2, st.2 ++ hits ++ (if getF e.2 Fld.LPE_SEL_trig == 1 then [(2, e.1 % 256)] else []))
      else st) (s, [])
  else (s, [])

/-- A trigger taken by the capture: the trigger rows of Table LP-3. The Boolean says whether it was accepted. -/
def State.takeTrigger (s : State) (cause unit : Nat) : State × Bool :=
  let c := s.captureSize
  let p := s.fld Reg.LPE_TRC_TRIG Fld.LPE_TRC_TRIG_post_eff
  let r := { s.record 15 0 0xFC1 noWork [BitVec.ofNat 8 cause, BitVec.ofNat 8 unit] with trig := true }
  match s.captureState with
  | 1 =>
    let slot := s.fld Reg.LPE_TRC_PTR Fld.LPE_TRC_PTR_next
    let s := (s.putRecord r).setFld Reg.LPE_TRC_TRIG Fld.LPE_TRC_TRIG_slot slot
    let s := s.setRemaining (p - 1)
    (s.setCapture (if p - 1 = 0 then 5 else 2), true)
  | 3 =>
    let s := s.setFld Reg.LPE_TRC_PTR Fld.LPE_TRC_PTR_next (c - 64)
    let s := (s.putRecord r).setFld Reg.LPE_TRC_TRIG Fld.LPE_TRC_TRIG_slot (c - 64)
    ((s.setRemaining 63).setCapture 4, true)
  | 0 => (s, false)
  | _ => (s.countSat Reg.LPE_TRC_CNT2 Fld.LPE_TRC_CNT2_extra_triggers 1, false)

/-- An accepted trigger is an event of Loupe itself, 0xFC1, which its selectors count. -/
def State.countTrigger (s : State) (ok : Bool) : State :=
  if ok then (s.countEvent 15 0 0xFC1 1 noWork).1 else s

/-- The links that are ACTIVE. -/
def State.activeLinks (s : State) : List Nat :=
  (List.range 32).filter fun n => s.fld (Reg.LNK_STATUS n) Fld.LNK_STATUS_state == 6

/-- Every CORE domain stops: cause and NT are recorded, and a 0xFC4 record is written (R472). -/
def State.stopCores (s : State) (cause : Nat) : State :=
  let s := s.setFld Reg.LPE_STOP Fld.LPE_STOP_stopped 1
  let s := s.setFld Reg.LPE_STOP Fld.LPE_STOP_cause cause
  let s := s.setFld Reg.LPE_STOP_NT Fld.LPE_STOP_NT_nt s.nt
  let s := { s with loupe := { s.loupe with stopLinks := s.activeLinks, lostLinks := [], resume := none } }
  let s := (s.countEvent 15 0 0xFC4 1 noWork).1
  s.queueRecord (s.record 15 0 0xFC4 noWork [BitVec.ofNat 8 cause])

/-- A global stop request (R472): nothing while stopped. A trigger follows when trig_on_stop is 1 (R471). -/
def State.requestStop (s : State) (cause : Nat) : State :=
  if s.stopped then s
  else
    let s := s.stopCores cause
    if s.on Reg.LPE_TRC_CFG Fld.LPE_TRC_CFG_trig_on_stop then
      let (s, ok) := s.takeTrigger 3 0
      s.countTrigger ok
    else s

/-- A trigger (R471): taken by the capture, and followed by a global stop when it is accepted and stop_on_trigger is 1 (R472). -/
def State.trigger (s : State) (cause unit : Nat) : State :=
  let (s, ok) := s.takeTrigger cause unit
  let s := s.countTrigger ok
  if ok && s.on Reg.LPE_TRC_CFG Fld.LPE_TRC_CFG_stop_on_trigger then s.requestStop 3 else s

/-- An event of Table LP-1: counted by the selectors, with the triggers it raises in the order of their causes, and queued as a record unless its code is counted only. -/
def State.observe (s : State) (cls idx code amount : Nat) (w : Work) (payload : List Byte) : State :=
  let r := s.record cls idx code w payload
  let (s, trigs) := s.countEvent cls idx code amount w
  let s := if countedOnly code then s else s.queueRecord r
  ((trigs.filter fun t => t.1 == 1) ++ (trigs.filter fun t => t.1 == 2)).foldl (fun s t => s.trigger t.1 t.2) s

/-- A time record written by the trace writer itself (R467). -/
def State.timeRecord (s : State) (stepped : Bool) : State :=
  s.captureRecord (s.record 15 0 0xFC2 noWork (leBytes 8 s.nt ++ [BitVec.ofNat 8 (bit stepped)]))

/-- A capture started empty in PRE, or in STOPPED when a bank buffer holds fewer than 128 records (Table LP-3, R481). -/
def State.startCapture (s : State) : State :=
  let st := s.fld Reg.LPE_TRC_CFG Fld.LPE_TRC_CFG_setting
  let buffer := (List.range 64).filterMap fun b =>
    if s.fld (bankReg (st * 64 + b)) Fld.BNK_BANK_owner == 10 then some (st * 64 + b) else none
  let s := { s with loupe := { s.loupe with buffer := buffer, tokens := 64 * 10 ^ 11, tokensNt := s.nt, remaining := 0 } }
  let c := s.captureSize
  let s := s.setReg Reg.LPE_TRC_PTR 0
  let s := s.setFld Reg.LPE_TRC_STATUS Fld.LPE_TRC_STATUS_capacity c
  let s := s.setFld Reg.LPE_TRC_STATUS Fld.LPE_TRC_STATUS_bank_lost 0
  let s := s.setFld Reg.LPE_TRC_TRIG Fld.LPE_TRC_TRIG_post_eff
    (min (s.fld Reg.LPE_TRC_POST Fld.LPE_TRC_POST_post) (c - 64))
  if !s.on Reg.LPE_TRC_CFG Fld.LPE_TRC_CFG_dest && c < 128 then s.setCapture 5
  else (s.setCapture 1).timeRecord false

end Sys2Proof.Machine
end

