-- ==== Sys2Proof/Machine/Flags.lean ====
section
/-! DEFINITION. Events, their rate limits and their queue, the alert pins, and the records of the event ring (R482 to R488, R504). -/

namespace Sys2Proof.Machine

open Sys2Proof

/-- The category of an event code (Table ER-3). -/
def categoryOf (code : Nat) : Nat := code / 256

/-- The category's pending bit set (R484). -/
def State.setPending (s : State) (code : Nat) : State :=
  s.setFld Reg.EVT_PENDING Fld.EVT_PENDING_pending
    (s.fld Reg.EVT_PENDING Fld.EVT_PENDING_pending ||| 2 ^ (categoryOf code - 1))

/-- An event accepted into the queue of 256 records with the next seq, or dropped and counted when the queue is full; its pending bit is set in either case (R484). -/
def State.accept (s : State) (code cls idx count : Nat) (payload : List Byte) : State :=
  let s := s.setPending code
  if s.events.queue.length < 256 then
    { s with events := { s.events with
        queue := s.events.queue ++ [⟨code, cls, idx % 256, s.events.nextSeq, s.nt, payload, min count 255⟩]
        nextSeq := (s.events.nextSeq + 1) % 2 ^ 32 } }
  else
    let s := s.countSat Reg.EVT_CNT Fld.EVT_CNT_dropped 1
    s.setFld Reg.EVT_CNT Fld.EVT_CNT_lost 1

/-- An event without a rate limit. -/
def State.raise (s : State) (code cls idx : Nat) (payload : List Byte) : State := s.accept code cls idx 0 payload

/-- The rate limit kept for a code and source. -/
def State.limitOf (s : State) (code cls idx : Nat) : Option EventLimit :=
  s.events.limits.find? fun l => l.code == code && l.srcClass == cls && l.srcIndex == idx

/-- The rate limit of a code and source replaced. -/
def State.setLimit (s : State) (l : EventLimit) : State :=
  { s with events := { s.events with
      limits := l :: s.events.limits.filter fun x =>
        !(x.code == l.code && x.srcClass == l.srcClass && x.srcIndex == l.srcIndex) } }

/-- An event raised at most once per millisecond of NT for its code and source. A suppressed occurrence sets the pending bit and is counted in the next record (R484). DESIGN CHOICE: the millisecond is the 1,000,000 ns after the last record, and not a fixed millisecond of NT (assumption 62). -/
def State.raiseLimited (s : State) (code cls idx : Nat) (payload : List Byte) : State :=
  match s.limitOf code cls idx with
  | some l =>
    if s.nt < l.lastNt + 1000000 then
      (s.setPending code).setLimit { l with suppressed := l.suppressed + 1 }
    else (s.accept code cls idx l.suppressed payload).setLimit ⟨code, cls, idx, s.nt, 0⟩
  | none => (s.accept code cls idx 0 payload).setLimit ⟨code, cls, idx, s.nt, 0⟩

/-- The 32 bytes of an event record (Table ER-3), with the phase of R79: 1 on even passes of the ring. -/
def eventBytes (k : Nat) (e : EventRec) : List Byte :=
  leBytes 2 e.code ++ leBytes 1 e.srcClass ++ leBytes 1 e.srcIndex ++ leBytes 4 e.seq ++ leBytes 8 e.nt ++
  padTo 14 e.payload ++ leBytes 1 e.count ++ leBytes 1 (1 - e.seq / 2 ^ k % 2)

/-- Whether ALERT_N is low: an unmasked event is pending, or a node-fatal error has been recorded (R487). -/
def State.alertLow (s : State) : Bool :=
  (s.fld Reg.EVT_PENDING Fld.EVT_PENDING_pending &&&
    (0x7FFF - s.fld Reg.EVT_MASK Fld.EVT_MASK_mask)) != 0 ||
  s.fld Reg.EVT_FATAL Fld.EVT_FATAL_cause != 0

/-- A write that would change a locked field is logged and raises a configuration event, at most one per millisecond (R59). -/
def State.logLocked (s : State) (path : Path) (kind off : Nat) : State :=
  (s.logViol path kind off).raiseLimited 0x0201 10 4 (leBytes 4 off)

/-- A pool access to a disabled slab or past the slab count is counted, with a pool event at most once per millisecond (R132). The count stands in the quadrant of the slab number. -/
def State.slabViolation (s : State) (pa : Nat) : State :=
  let n := pa / 2 ^ 30
  let s := s.countSat (Reg.STK_SLAB_VIOL (n % 4)) Fld.STK_SLAB_VIOL_count 1
  let s := s.setFld (Reg.STK_SLAB_VIOL (n % 4)) Fld.STK_SLAB_VIOL_slab n
  s.raiseLimited 0x0504 4 (n % 4) (leBytes 2 n)

/-- The link state changes: recorded, observed by Loupe and raised as an event with the lost frames of a fresh session (R363, R364). -/
def State.linkEvent (s : State) (n old new lost : Nat) : State :=
  let s := s.observe 8 n 0x203 1 noWork [BitVec.ofNat 8 old, BitVec.ofNat 8 new]
  s.raise 0x0901 8 n ([BitVec.ofNat 8 n, BitVec.ofNat 8 old, BitVec.ofNat 8 new, 0] ++ leBytes 2 lost)

/-- The pair role changes: PAI_STATUS.role, the Loupe event and the pair event (Table PF-6). -/
def State.setRole (s : State) (role : Nat) : State :=
  let old := s.role
  if old = role then s
  else
    let s := s.setFld Reg.PAI_STATUS Fld.PAI_STATUS_role role
    let term := s.fld Reg.PAI_STATUS Fld.PAI_STATUS_term
    let pl := [BitVec.ofNat 8 old, BitVec.ofNat 8 role, 0, 0] ++ leBytes 4 term
    let s := s.observe 11 0 0x2C1 1 noWork pl
    s.raise 0x0C02 11 0 pl

/-- The Bezel changes state: SEC_STATUS.state, the Loupe event and the security event (R437). -/
def State.setBezel (s : State) (new : Nat) : State :=
  let old := s.bezel
  let s := s.setFld Reg.SEC_STATUS Fld.SEC_STATUS_state new
  let s := s.observe 12 0 0x301 1 noWork [BitVec.ofNat 8 old, BitVec.ofNat 8 new]
  s.raise 0x0D01 12 0 [BitVec.ofNat 8 old, BitVec.ofNat 8 new, BitVec.ofNat 8 (s.fld Reg.SEC_STATUS Fld.SEC_STATUS_result)]

/-- A Clasp group changes state, with its event (R141). -/
def State.setGroupState (s : State) (q new : Nat) : State :=
  let old := s.fld (Reg.CLS_STATUS q) Fld.CLS_STATUS_state
  if old = new then s
  else
    let s := s.setFld (Reg.CLS_STATUS q) Fld.CLS_STATUS_state new
    s.raise 0x0502 4 q [BitVec.ofNat 8 q, BitVec.ofNat 8 old, BitVec.ofNat 8 new]

end Sys2Proof.Machine
end

