-- ==== Sys2Proof/Machine/Mirror.lean ====
section
/-! DEFINITION. Mirror classes and the capture of writes for the pair partner (R418, R419, R421). -/

namespace Sys2Proof.Machine

open Sys2Proof

/-- The mirror class of a slab: 0 M0, 1 M1, 2 M2 (R418). -/
def State.mirrorClass (s : State) (slab : Nat) : Nat :=
  ((List.range 64).filterMap fun r =>
    let w := s.reg (Reg.PAI_MREGION r)
    let first := getF w Fld.PAI_MREGION_first
    if getF w Fld.PAI_MREGION_valid == 1 && first ≤ slab && slab < first + getF w Fld.PAI_MREGION_count then
      some (getF w Fld.PAI_MREGION_class) else none).headD 0

/-- Whether pairing is enabled. -/
def State.pairing (s : State) : Bool := s.on Reg.PAI_CTL Fld.PAI_CTL_enable

/-- Whether a client is paired (R412). -/
def State.paired (s : State) (c : Nat) : Bool :=
  s.pairing && ((s.reg (Reg.PAI_CLIENT (c / 64))).toNat).testBit (c % 64)

/-- Whether the node serves paired clients: ACTIVE or SOLO (R412). -/
def State.serving (s : State) : Bool := s.role == 4 || s.role == 5

/-- How a write to a slab is mirrored now: not, later, or held for until the acknowledgement (Table PF-3, R430). -/
inductive Mirroring where
  | no | later | held
deriving DecidableEq, Repr

/-- Whether the copy to a joining partner has begun on a slab: it has been copied, or is being copied now (R430). -/
def State.copyReached (s : State) (slab : Nat) : Bool :=
  slab < s.fld Reg.PAI_SYNC Fld.PAI_SYNC_watermark || s.pair.log.any fun r => r.copy && r.pa / 2 ^ 30 == slab

/-- The mirroring in force for a slab. `both` is set for an ATOMIC or PUBLISH, which an M1 slab mirrors as an M2 slab (R419). -/
def State.mirroring (s : State) (slab : Nat) (both : Bool) : Mirroring :=
  let c := s.mirrorClass slab
  if !s.pairing || c = 0 then .no
  else if s.role = 4 then (if c = 2 || both then .held else .later)
  else if s.role = 5 && s.pair.copying && s.copyReached slab then .later
  else .no

/-- The age of the oldest range not sent, in µs of NT (R421). -/
def State.mirrorLag (s : State) : Nat :=
  match s.pair.log.find? fun r => !r.sent && !r.m2 && !r.copy with
  | some r => (s.nt - r.nt) / 1000
  | none => 0

/-- Whether new writes to an M1 slab wait: the lag is at its bound, or the log of 16,384 ranges of the slab's quadrant is full (R421). -/
def State.m1Full (s : State) (slab : Nat) : Bool :=
  s.fld Reg.PAI_CFG Fld.PAI_CFG_m1_lag_ms * 1000 ≤ s.mirrorLag ||
  16384 ≤ (s.pair.log.filter fun r => !r.m2 && !r.sent && !r.copy && r.pa / 2 ^ 30 % 4 == slab % 4).length

/-- Whether a write to a pool address waits for the mirror log (R421). -/
def State.mirrorHeld (s : State) (pa : Nat) : Bool :=
  s.mirroring (pa / 2 ^ 30) false == .later && s.m1Full (pa / 2 ^ 30)

/-- A range entered in the mirror engine's log. -/
def State.addRange (s : State) (pa len : Nat) (m2 copy : Bool) : State :=
  { s with pair := { s.pair with
      log := s.pair.log ++ [{ id := s.pair.nextId, pa := pa, len := len, m2 := m2, copy := copy, nt := s.nt, off := 0, sent := false
                              open' := [], again := [], timeouts := 0 }]
      nextId := s.pair.nextId + 1 } }

/-- One range captured. A range captured again before it is sent goes out once (R421). The ids of ranges held for are returned. -/
def State.captureRange (s : State) (pa len : Nat) (both : Bool) : State × List Nat :=
  match s.mirroring (pa / 2 ^ 30) both with
  | .no => (s, [])
  | .later =>
    if s.pair.log.any fun r => r.off == 0 && !r.sent && !r.m2 && r.pa == pa && r.len == len then (s, [])
    else (s.addRange pa len false false, [])
  | .held => (s.addRange pa len true false, [s.pair.nextId])

/-- The parts of a byte range that lie in one slab each. -/
def slabPieces (pa len : Nat) : List (Nat × Nat) :=
  (List.range ((pa + len + 2 ^ 30 - 1) / 2 ^ 30 - pa / 2 ^ 30)).map fun i =>
    let lo := max pa ((pa / 2 ^ 30 + i) * 2 ^ 30)
    (lo, min (pa + len) ((pa / 2 ^ 30 + i + 1) * 2 ^ 30) - lo)

/-- A visible write captured for the mirror where it touches M1 or M2 slabs (R419). -/
def State.captureWrite (s : State) (pa len : Nat) (both : Bool) : State × List Nat :=
  (slabPieces pa len).foldl (fun (st : State × List Nat) p =>
    let (s, ids) := st.1.captureRange p.1 p.2 both
    (s, st.2 ++ ids)) (s, [])

/-- Whether any of these captured ranges still waits for its acknowledgement. -/
def State.mirrorOpen (s : State) (ids : List Nat) : Bool := s.pair.log.any fun r => ids.contains r.id

end Sys2Proof.Machine
end

