-- ==== Sys2Proof/Machine/Banks.lean ====
section
/-! DEFINITION. Setting banks: owner windows, access and refusal, collisions, atomics, handover, power, the written-line bitmap and the bank tests (chapter 07). -/

namespace Sys2Proof.Machine

open Sys2Proof

/-- A bank that the model lists no power state for is on. -/
def powerDefault (_ : Nat) : Nat := 0

/-- The power state a bank has reached: 0 on, 1 retention, 2 off (R162). -/
def State.bankPower (s : State) (bi : Nat) : Nat := mget powerDefault s.banks.power bi

/-- The owner code of a bank (R155). -/
def State.bankOwner (s : State) (bi : Nat) : Nat := s.fld (bankReg bi) Fld.BNK_BANK_owner

/-- The handover of a bank that is in progress, a clear apart (R157). -/
def State.handoverOf (s : State) (bi : Nat) : Option Handover := s.banks.handovers.find? fun h => h.bank == bi && !h.clear

/-- The owner in whose window a bank lies: until the grant of a handover, the old one (R157). -/
def State.bankHolder (s : State) (bi : Nat) : Nat := ((s.handoverOf bi).map (·.old)).getD (s.bankOwner bi)

/-- The banks of a Setting that an owner holds, in ascending number, as bank indices (R154). -/
def State.ownedBanks (s : State) (st owner : Nat) : List Nat :=
  (List.range 64).filterMap fun b => if s.bankHolder (st * 64 + b) == owner then some (st * 64 + b) else none

/-- The bank index and bank word of a window word, none beyond the window (R154). -/
def windowWord (owned : List Nat) (u : Nat) : Option (Nat × Nat) :=
  if owned.length * 8192 ≤ u then none else some (owned.getD (u % owned.length) 0, u / owned.length)

/-- Whether the owner code has a port (Table BK-1). -/
def portServes (p : Port) (tag : Nat) : Bool :=
  match p with
  | .a => tag ≤ 7 || tag == 9 || tag == 11
  | .b => tag ≤ 11

/-- How a bank answers a request: served, held until a transition ends, or refused with a kind of BNK_FAULT. -/
inductive BankVerdict where
  | ok | held | refused (kind : Nat)
deriving DecidableEq, Repr

/-- Whether a transition of the bank holds requests or refuses them (Table BK-5): transitions to off refuse, the others hold. -/
def State.bankMoving (s : State) (bi : Nat) : Option Bool :=
  (s.banks.powering.find? fun p => p.1 == bi).map fun p => p.2.2 == 2

/-- The checks of R156 on one bank, with the requests that a clear or transition holds (R162, R164). From the start of a handover the old owner is refused (R157). -/
def State.bankVerdict (s : State) (bi tag : Nat) : BankVerdict :=
  if s.bankHolder bi != tag || (s.handoverOf bi).isSome then .refused 0
  else if s.on (bankReg bi) Fld.BNK_BANK_failed then .refused 3
  else
    match s.bankMoving bi with
    | some true => .refused 2
    | some false => .held
    | none =>
      if s.bankPower bi != 0 then .refused 2
      else if s.banks.handovers.any fun h => h.bank == bi then .held
      else .ok

/-- A refusal recorded in BNK_FAULT, with a bank event at most once per millisecond per Setting (R156). -/
def State.bankFault (s : State) (st bank tag kind : Nat) : State :=
  (s.noteBankFault st bank tag kind).raiseLimited 0x0601 1 st [BitVec.ofNat 8 st, BitVec.ofNat 8 bank, BitVec.ofNat 8 kind]

/-- The window words that a byte range touches: word, first byte within it, and count. -/
def windowPieces (oa n : Nat) : List (Nat × Nat × Nat) :=
  (List.range ((oa + n + 31) / 32 - oa / 32)).map fun i =>
    let u := oa / 32 + i
    let lo := max oa (32 * u)
    (u, lo - 32 * u, min (oa + n) (32 * (u + 1)) - lo)

/-- Whether a bank of a Setting is on its way to an owner, whose requests are held until the grant (R157). DEDUCED: every request of that owner in the Setting is held, since the grant changes its whole window (assumption 77). -/
def State.awaitsBank (s : State) (st tag : Nat) : Bool :=
  s.banks.handovers.any fun h => !h.clear && h.bank / 64 == st && h.new == tag

/-- The verdict on the words of a window so far, and then on one more: the first that is not served decides; the bank is given for BNK_FAULT. -/
def State.verdictOn (s : State) (owned : List Nat) (tag : Nat) (v : BankVerdict × Nat) (p : Nat × Nat × Nat) : BankVerdict × Nat :=
  match v.1 with
  | .ok =>
    match windowWord owned p.1 with
    | none => (.refused 1, 0)
    | some (bi, _) => (s.bankVerdict bi tag, bi % 64)
  | _ => v

/-- The verdict on a byte range of a window. The banks take the words in turn, so that the first word in each answers for the rest; past the window is no word. -/
def State.windowVerdict (s : State) (st tag oa n : Nat) : BankVerdict × Nat :=
  let owned := s.ownedBanks st tag
  if s.awaitsBank st tag then (.held, 0)
  else
    let v := ((windowPieces oa n).take owned.length).foldl (s.verdictOn owned tag) (.ok, 0)
    if v.1 == .ok && decide (oa / 32 < (oa + n + 31) / 32) && decide (owned.length * 8192 < (oa + n + 31) / 32) then (.refused 1, 0) else v

/-- Bytes read through an owner's window, as they stand. -/
def State.readWindow (s : State) (st tag oa n : Nat) : List Byte :=
  let owned := s.ownedBanks st tag
  (windowPieces oa n).flatMap fun p =>
    match windowWord owned p.1 with
    | none => List.replicate p.2.2 0
    | some (bi, k) => slice (s.bankWord bi k) p.2.1 p.2.2

/-- Bytes written through an owner's window. -/
def State.writeWindow (s : State) (st tag oa : Nat) (data : List Byte) : State :=
  let owned := s.ownedBanks st tag
  s.setWords ((windowPieces oa data.length).foldl (fun (m : Words) p =>
    match windowWord owned p.1 with
    | none => m
    | some (bi, k) => m.store bi k p.2.1 (slice data (32 * p.1 + p.2.1 - oa) p.2.2)) (s.banks.cells, s.banks.written))

/-- The lanes of an operation: how many, and their bytes (R161). -/
def laneShape : LaneOp → Nat × Nat
  | .add32 => (8, 4)
  | .fadd32 => (8, 4)
  | .swap32 => (8, 4)
  | .add64 => (4, 8)
  | .swap64 => (4, 8)

/-- One lane's new value (R161). -/
def laneApply (op : LaneOp) (old x : Nat) : Nat :=
  match op with
  | .add32 => (old + x) % 2 ^ 32
  | .add64 => (old + x) % 2 ^ 64
  | .fadd32 => fadd32 old x
  | .swap32 => x
  | .swap64 => x

/-- The 32-byte word after a lane operation; lanes whose mask bit is 0 are unchanged (R161). -/
def laneWord (op : LaneOp) (mask : Nat) (old x : List Byte) : List Byte :=
  let (n, w) := laneShape op
  (List.range n).flatMap fun i =>
    if mask.testBit i then leBytes w (laneApply op (leAt old (i * w) w) (leAt x (i * w) w)) else slice old (i * w) w

/-- Whether a bank access writes, and whether it is an atomic. -/
def reqWrites (r : BankReq) : Bool :=
  match r.op with
  | .write _ => true
  | _ => false
def reqAtomic (r : BankReq) : Bool :=
  match r.op with
  | .atomic _ _ _ _ => true
  | _ => false

/-- The bank and bank word that an access names in its owner's window (R154). -/
def State.reqPlace (s : State) (st : Nat) (r : BankReq) : Option (Nat × Nat) := windowWord (s.ownedBanks st r.tag) (r.oa / 32)

/-- The words that an access at a place takes: its word, or both words of its line (R153). -/
def reqWords (r : BankReq) (k : Nat) : List Nat := if r.line then [k / 2 * 2, k / 2 * 2 + 1] else [k]

/-- The first byte of an access in its words. -/
def reqStart (r : BankReq) : Nat := if r.line then 0 else r.oa % 32

/-- The checks of R156 on an access at a port: the verdict, and the bank for BNK_FAULT. -/
def State.reqVerdict (s : State) (st : Nat) (p : Port) (r : BankReq) : BankVerdict × Nat :=
  if !portServes p r.tag then (.refused 0, 0)
  else if s.awaitsBank st r.tag then (.held, 0)
  else
    match s.reqPlace st r with
    | none => (.refused 1, 0)
    | some (bi, _) => (s.bankVerdict bi r.tag, bi % 64)

/-- Bytes stored from a byte of a bank's word or line on. -/
def State.storeWords (s : State) (bi : Nat) (ws : List Nat) (start : Nat) (data : List Byte) : State :=
  ws.zipIdx.foldl (fun (s : State) w =>
    let lo := max start (32 * w.2)
    let part := slice data (lo - start) (min (start + data.length) (32 * (w.2 + 1)) - lo)
    if part.isEmpty then s else s.setBankWord bi w.1 (lo - 32 * w.2) part) s

/-- The bytes that a port has delivered. -/
def State.deliver (s : State) (p : Port) (d : List Byte) : State :=
  match p with
  | .a => { s with banks := { s.banks with gotA := d } }
  | .b => { s with banks := { s.banks with gotB := d } }

/-- Corrections of the words of a read counted (R165). -/
def State.countCorrected (s : State) (st : Nat) (ecc : List EccResult) : State :=
  match (ecc.filter fun x => x == .corrected).length with
  | 0 => s
  | n => s.countSat (Reg.BNK_CNT (st / 8) (st % 8)) Fld.BNK_CNT_corrected n

/-- An uncorrectable error of a bank counted and recorded with kind 4 (R165). -/
def State.bankUncorrectable (s : State) (st bank tag : Nat) : State :=
  (s.countSat (Reg.BNK_CNT (st / 8) (st % 8)) Fld.BNK_CNT_uncorrectable 1).bankFault st bank tag 4

/-- One access at a port: refused and recorded, held until the bank can serve it, or served; a read, and an atomic that returns the old word, delivers its data at the port (R156, R161, R165). -/
def State.portAccess (s : State) (st : Nat) (p : Port) (r : BankReq) : State :=
  match s.reqVerdict st p r, s.reqPlace st r with
  | (.held, _), _ => { s with banks := { s.banks with held := s.banks.held ++ [(st, p, r)] } }
  | (.refused k, b), _ => s.bankFault st b r.tag k
  | (.ok, _), none => s
  | (.ok, b), some (bi, k) =>
    let ws := reqWords r k
    let old := ws.flatMap (s.bankWord bi)
    match r.op with
    | .write d => s.storeWords bi ws (reqStart r) d
    | .read n =>
      let s := s.countCorrected st r.ecc
      if r.ecc.any eccFails then s.bankUncorrectable st b r.tag else s.deliver p (slice old (reqStart r) n)
    | .atomic op mask x ret =>
      let s := s.countCorrected st r.ecc
      if r.ecc.any eccFails then s.bankUncorrectable st b r.tag
      else
        let s := s.storeWords bi ws 0 (laneWord op mask old x)
        if ret then s.deliver p old else s

/-- The requests of a Setting that a handover, a transition or a clear has held are made again (R157, R162, R164). -/
def State.serveHeld (s : State) (st : Nat) : State :=
  let mine := s.banks.held.filter fun x => x.1 == st
  mine.foldl (fun (s : State) x => s.portAccess st x.2.1 x.2.2) { s with banks := { s.banks with held := s.banks.held.filter fun x => x.1 != st } }

/-- Whether two requests that would both be served now touch one word of one bank. -/
def State.sameWord (s : State) (st : Nat) (a b : BankReq) : Bool :=
  (s.reqVerdict st .a a).1 == .ok && (s.reqVerdict st .b b).1 == .ok &&
  match s.reqPlace st a, s.reqPlace st b with
  | some x, some y => x.1 == y.1 && (reqWords a x.2).any fun w => (reqWords b y.2).contains w
  | _, _ => false

/-- A port B collision counted and observed (R159). -/
def State.countCollision (s : State) (st : Nat) : State :=
  (s.countSat (Reg.BNK_CNT (st / 8) (st % 8)) Fld.BNK_CNT_collisions 1).observe 1 st 0x043 1 noWork []

/-- What the two ports do when they meet in one cycle (Table BK-3). -/
inductive Meeting where
  /-- both take effect, port A first -/
  | aFirst
  /-- both take effect, port B first -/
  | bFirst
  /-- port B has collision status and tries again in the next cycle -/
  | bRetries
  /-- port A has collision status and tries again in the next cycle -/
  | aRetries
deriving DecidableEq, Repr

/-- The outcome of accesses at both ports in one cycle (Table BK-3, R160): a read sees the data from before the other port's write; of two plain writes port A's goes first; an atomic goes before a plain write. After four collisions in a row of port B on the word, port A is held off. -/
def State.meeting (s : State) (st : Nat) (a b : BankReq) (collisions : Nat) : Meeting :=
  if s.sameWord st a b && (reqWrites a || reqAtomic a) && (reqWrites b || reqAtomic b) then
    if reqAtomic a && reqAtomic b then .aFirst
    else if reqAtomic b then .aRetries
    else if 4 ≤ collisions then .aRetries
    else .bRetries
  else if reqWrites a || reqAtomic a then .bFirst
  else .aFirst

/-- Successive cycles of a Setting's ports: the accesses of port A, one a cycle, and one access of port B that stands at its port until it is served (R153, R159, R160). The number counts the collisions in a row of port B. -/
def State.portCycles (s : State) (st : Nat) : List BankReq → Option BankReq → Nat → State
  | [], none, _ => s
  | [], some b, _ => s.portAccess st .b b
  | a :: as, none, _ => State.portCycles (s.portAccess st .a a) st as none 0
  | a :: as, some b, n =>
    match s.meeting st a b n with
    | .aFirst => State.portCycles ((s.portAccess st .a a).portAccess st .b b) st as none 0
    | .bFirst => State.portCycles ((s.portAccess st .b b).portAccess st .a a) st as none 0
    | .bRetries => State.portCycles ((s.portAccess st .a a).countCollision st) st as (some b) (n + 1)
    | .aRetries => State.portCycles ((s.portAccess st .b b).portAccess st .a a) st as none 0

/-- Accesses `a` and `b` at the two ports of a Setting in one CORE cycle, and those that follow at port A in the cycles after it (R156, R159, R160). -/
def bankAccessEff (st : Nat) (a b : Option BankReq) (rest : List BankReq) (s : State) : State := s.portCycles st (a.toList ++ rest) b 0

def execBankAccess (st : Setting) (a b : Option BankReq) (rest : List BankReq) (s : State) : Result :=
  .next (bankAccessEff st a b rest s)

/-- A bank atomic on one 32-byte word (R161), with another access in the same cycle on the other port (Table BK-3). -/
def bankAtomicEff (st : Nat) (port : Port) (r : BankReq) (other : Option BankReq) (s : State) : State :=
  match port with
  | .a => s.portCycles st [r] other 0
  | .b => s.portCycles st other.toList (some r) 0

def execBankAtomic (st : Setting) (port : Port) (tag : Fin 16) (oa : Nat) (op : LaneOp) (mask : Fin 256)
    (operand : LaneOperand) (other : Option BankReq) (s : State) : Result :=
  .next (bankAtomicEff st port ⟨tag, oa, false, .atomic op mask operand.word operand.ret, operand.ecc⟩ other s)

/-- The written bits of a bank cleared; its bytes are no longer listed (R164). -/
def State.clearBank (s : State) (bi : Nat) : State :=
  { s with banks := { s.banks with
      cells := mclear s.banks.cells (bankKey bi 0) (bankKey (bi + 1) 0)
      written := mclear s.banks.written (lineKey bi 0) (lineKey (bi + 1) 0) } }

/-- Every bank's written bits cleared (R164). -/
def State.clearAllBanks (s : State) : State :=
  { s with banks := { s.banks with cells := [], written := [] } }

/-- BNK_BANK.busy set. -/
def State.setBusy (s : State) (bi : Nat) (b : Bool) : State := s.setFld (bankReg bi) Fld.BNK_BANK_busy (bit b)

/-- A background region test that runs in a bank is aborted; the region is restored from its save line (R157). -/
def State.abortTest (s : State) (bi : Nat) : State :=
  match s.banks.testing.getD (bi / 64) none with
  | some (b, _) =>
    if b = bi % 64 then
      { s with banks := { s.banks with testing := s.banks.testing.set (bi / 64) none } }.setFld (bankReg bi) Fld.BNK_BANK_testing 0
    else s
  | none => s

/-- A capture that loses a bank of its buffer stops (R468, Table LP-3). -/
def State.traceLoses (s : State) (bi : Nat) : State :=
  if s.captureState != 0 && !s.on Reg.LPE_TRC_CFG Fld.LPE_TRC_CFG_dest && s.loupe.buffer.contains bi then
    (s.setCapture 5).setFld Reg.LPE_TRC_STATUS Fld.LPE_TRC_STATUS_bank_lost 1
  else s

/-- A handover begins (R157, R158): the owner field takes the new code, the old owner is refused from now on, and the new owner's requests are held until the grant. A whole-bank test in the bank aborts, and so does a region test. -/
def State.startHandover (s : State) (bi new : Nat) : State :=
  let old := s.bankOwner bi
  let s := s.abortTest bi
  let s := if old = 10 then s.traceLoses bi else s
  let s := if s.banks.whole.contains bi then
      { s with banks := { s.banks with whole := s.banks.whole.filter (· != bi) } }.setFld (bankReg bi) Fld.BNK_BANK_test_result 3
    else s
  let s := s.setFld (bankReg bi) Fld.BNK_BANK_owner new
  { s with banks := { s.banks with handovers := s.banks.handovers ++ [Handover.mk bi old new false] } }.setBusy bi true

/-- A write of BNK_BANK: owner, power and clear (R157, R158, R162, R164). While busy, a change of owner or power and a clear are ignored and logged. -/
def bnkBankWrite (path : Path) (bi : Nat) (value : Word) (s : State) : State :=
  let r := bankReg bi
  let owner := getF value Fld.BNK_BANK_owner
  let power := getF value Fld.BNK_BANK_power
  let s :=
    if owner = s.bankOwner bi then s
    else if s.on r Fld.BNK_BANK_busy || (12 ≤ owner && owner ≤ 14) then s.logViol path 4 r
    else s.startHandover bi owner
  let s :=
    if power = s.fld r Fld.BNK_BANK_power then s
    else if power = 3 || s.on r Fld.BNK_BANK_busy || (s.bankPower bi == 0 && (s.bankOwner bi == 9 || s.bankOwner bi == 10)) then
      s.logViol path 4 r
    else
      let s := s.setFld r Fld.BNK_BANK_power power
      { s with banks := { s.banks with powering := s.banks.powering ++ [(bi, s.bankPower bi, power)] } }.setBusy bi true
  if getF value Fld.BNK_BANK_clear = 1 then
    if s.on r Fld.BNK_BANK_busy then s.logViol path 4 r
    else
      let s := s.abortTest bi
      { s with banks := { s.banks with handovers := s.banks.handovers ++ [Handover.mk bi (s.bankOwner bi) (s.bankOwner bi) true] } }.setBusy bi true
  else s

/-- The index of a bank of a Setting. -/
def bankIndex (st : Setting) (b : Fin 64) : Nat := st * 64 + b

def execBankOwnerWrite (path : Path) (st : Setting) (bank : Fin 64) (value : Word) (s : State) : Result :=
  .next (bnkBankWrite path (bankIndex st bank) value s)

def execBankPowerOn (path : Path) (st : Setting) (bank : Fin 64) (value : Word) (s : State) : Result :=
  .next (bnkBankWrite path (bankIndex st bank) (setF value Fld.BNK_BANK_power 0) s)

def execBankPowerRetention (path : Path) (st : Setting) (bank : Fin 64) (value : Word) (s : State) : Result :=
  .next (bnkBankWrite path (bankIndex st bank) (setF value Fld.BNK_BANK_power 1) s)

def execBankPowerOff (path : Path) (st : Setting) (bank : Fin 64) (value : Word) (s : State) : Result :=
  .next (bnkBankWrite path (bankIndex st bank) (setF value Fld.BNK_BANK_power 2) s)

def execBankClear (path : Path) (st : Setting) (bank : Fin 64) (value : Word) (s : State) : Result :=
  .next (bnkBankWrite path (bankIndex st bank) (setF value Fld.BNK_BANK_clear 1) s)

/-- A power transition ends: the state is reached, a bank that goes off loses its data, busy clears, and the requests that waited are served (R162, R164). -/
def bankPowerDoneEff (bi : Nat) (s : State) : State :=
  match s.banks.powering.find? fun p => p.1 == bi with
  | none => s
  | some (_, _, target) =>
    let s := { s with banks := { s.banks with
      powering := s.banks.powering.filter (·.1 != bi)
      power := mset powerDefault s.banks.power bi target } }
    let s := if target = 2 then s.clearBank bi else s
    (s.setBusy bi false).serveHeld (bi / 64)

def execBankPowerTransitionDone (st : Setting) (bank : Fin 64) (s : State) : Result :=
  .next (bankPowerDoneEff (bankIndex st bank) s)

/-- Whether the region test takes a bank: on, not failed, not the test engine's (R166). -/
def State.testable (s : State) (bi : Nat) : Bool :=
  s.bankPower bi == 0 && (s.bankMoving bi).isNone && !s.on (bankReg bi) Fld.BNK_BANK_failed && s.bankOwner bi != 11

/-- The next region to be tested in a Setting: the one due, or the first of the next testable bank (R166). -/
def State.nextRegion (s : State) (st : Nat) : Option (Nat × Nat) :=
  let due := s.banks.testNext.getD st 0
  if s.testable (st * 64 + due / 256) then some (due / 256, due % 256)
  else ((List.range 63).map fun i => (due / 256 + 1 + i) % 64).find? (fun b => s.testable (st * 64 + b)) |>.map fun b => (b, 0)

/-- The bank-test engine begins its next region, test_interval µs after the region before it (R166). Bank tests pause under a global stop (R473). -/
def bankRegionTestStartEff (st : Nat) (s : State) : State :=
  let c := s.reg (Reg.BNK_CTL (st / 8))
  if s.workStopped || getF c Fld.BNK_CTL_enable = 0 || getF c Fld.BNK_CTL_test_enable = 0 ||
      (s.banks.testing.getD st none).isSome || s.nt < s.banks.testNt.getD st 0 + getF c Fld.BNK_CTL_test_interval * 1000 then s
  else
    match s.nextRegion st with
    | none => s
    | some (b, r) =>
      let s := { s with banks := { s.banks with testing := s.banks.testing.set st (some (b, r)), testNt := s.banks.testNt.set st s.nt } }
      s.setFld (bankReg (st * 64 + b)) Fld.BNK_BANK_testing 1

def execBankRegionTestStart (st : Setting) (s : State) : Result := .next (bankRegionTestStartEff st s)

/-- The bank event of a test (Table ER-4). -/
def State.bankTestEvent (s : State) (bi kind : Nat) : State :=
  s.raise 0x0601 1 (bi / 64) [BitVec.ofNat 8 (bi / 64), BitVec.ofNat 8 (bi % 64), BitVec.ofNat 8 kind]

/-- The march of a region ends: the region goes on from its save line when it failed, and a second failing region, another than the one repaired, marks the bank failed (R166, R167). -/
def bankRegionTestEndEff (st : Nat) (pass : Bool) (s : State) : State :=
  match s.banks.testing.getD st none with
  | none => s
  | some (b, r) =>
    let bi := st * 64 + b
    let s := { s with banks := { s.banks with
      testing := s.banks.testing.set st none
      testNext := s.banks.testNext.set st ((b * 256 + r + 1) % 16384) } }
    let s := s.setFld (bankReg bi) Fld.BNK_BANK_testing 0
    if pass then s
    else
      let s := s.countSat (Reg.BNK_CNT (st / 8) (st % 8)) Fld.BNK_CNT_test_fails 1
      if s.on (bankReg bi) Fld.BNK_BANK_repaired && !s.banks.repaired.contains (bi, r) then
        (s.setFld (bankReg bi) Fld.BNK_BANK_failed 1).bankTestEvent bi 6
      else
        let s := { s with banks := { s.banks with repaired := (bi, r) :: s.banks.repaired.filter (· != (bi, r)) } }
        (s.setFld (bankReg bi) Fld.BNK_BANK_repaired 1).bankTestEvent bi 5

def execBankRegionTestEnd (st : Setting) (pass : Bool) (s : State) : Result := .next (bankRegionTestEndEff st pass s)

/-- The whole-bank test ends: the contents are destroyed, the written bits cleared, and the result set; a failure marks the bank failed (R158, R168). -/
def wholeBankTestDoneEff (bi : Nat) (pass : Bool) (s : State) : State :=
  if s.banks.whole.contains bi then
    let s := { s with banks := { s.banks with whole := s.banks.whole.filter (· != bi) } }
    let s := (s.clearBank bi).setFld (bankReg bi) Fld.BNK_BANK_test_result (if pass then 1 else 2)
    if pass then s else (s.setFld (bankReg bi) Fld.BNK_BANK_failed 1).bankTestEvent bi 6
  else s

def execWholeBankTestDone (st : Setting) (bank : Fin 64) (pass : Bool) (s : State) : Result :=
  .next (wholeBankTestDoneEff (bankIndex st bank) pass s)

end Sys2Proof.Machine
end

