-- ==== Sys2Proof/Machine/Clasp.lean ====
section
/-! DEFINITION. Stack ports and Clasp groups: reads with port ECC and reconstruction, row writes, failure, rebuild, reinstatement, row log, repair and patrol scrub (R124 to R147). -/

namespace Sys2Proof.Machine

open Sys2Proof

/-- The granule slots of a stack, rows 0 to 2^31 - 1 (Clasp rows). -/
def rowCount : Nat := 2 ^ 31

/-- CLS_STATUS.state: 0 HEALTHY, 1 DEGRADED, 2 REBUILDING, 3 REBUILT, 4 REINSTATING, 5 LOST. -/
def State.groupState (s : State) (q : Nat) : Nat := s.fld (Reg.CLS_STATUS q) Fld.CLS_STATUS_state

/-- The watermark of a group set. -/
def State.setWatermark (s : State) (q r : Nat) : State :=
  s.setFld (Reg.CLS_REBUILD q) Fld.CLS_REBUILD_watermark r

/-- The background task of a group ends: the watermark reads 0 (R143). -/
def State.endTask (s : State) (q : Nat) : State :=
  (s.setGroup q { s.group q with task := .none }).setWatermark q 0

/-- The failed bit of a position set or cleared (CLS_STATUS.failed). -/
def State.setFailed (s : State) (q j : Nat) (b : Bool) : State :=
  let m := s.fld (Reg.CLS_STATUS q) Fld.CLS_STATUS_failed
  s.setFld (Reg.CLS_STATUS q) Fld.CLS_STATUS_failed (if b then m ||| 2 ^ j else m &&& (0xFF - 2 ^ j))

/-- The group's move when a working stack of it fails (Table PM-6). -/
def State.groupOnFail (s : State) (q j : Nat) : State :=
  let g := s.group q
  match s.groupState q with
  | 0 =>
    if s.spareMode then
      ((s.setGroup q { g with spareOf := some j, spareFrom := 0, spareTo := 0, task := .rebuild }).setWatermark q 0).setGroupState q 2
    else s.setGroupState q 1
  | 1 => s.setGroupState q 5
  | 2 => (s.endTask q).setGroupState q 5
  | 3 => s.setGroupState q 1
  | 4 =>
    if s.spareMode then
      let s := s.endTask q
      (s.setGroup q { s.group q with spareFrom := 0, target := none }).setGroupState q 1
    else (s.endTask q).setGroupState q 5
  | _ => s

/-- The group's move when the stack being reinstated fails again (Table PM-6). -/
def State.groupOnRefail (s : State) (q : Nat) : State :=
  let s := s.endTask q
  let s := s.setGroup q { s.group q with target := none, ownRows := 0, spareFrom := 0 }
  s.setGroupState q (if s.spareMode then 3 else 1)

/-- A stack marked failed: cause, pool event, and the group's move (R140, R141). A stack already marked failed fails again only while it is being reinstated. -/
def State.markFailed (s : State) (n cause : Nat) : State :=
  let q := n / 8
  let j := n % 8
  let again := s.groupState q == 4 && (s.group q).target == some j
  if s.posFailed q j && !again then s
  else
    let s := s.setFld (portStatus n) Fld.STK_PORT_STATUS_cause cause
    let s := s.setFld (portStatus n) Fld.STK_PORT_STATUS_state 4
    let s := { s with pool := { s.pool with powerDown := s.pool.powerDown.filter (· != n)
                                            moving := s.pool.moving.filter (·.1 != n) } }
    let s := s.observe 3 n 0x086 1 noWork [BitVec.ofNat 8 cause]
    let s := s.raise 0x0501 3 n [BitVec.ofNat 8 n, BitVec.ofNat 8 cause]
    if again then s.groupOnRefail q else (s.setFailed q j true).groupOnFail q j

/-- A double-fault row entered in the row log, or kept until an entry frees when the log is full (R144). -/
def State.logRow (s : State) (q r mask : Nat) : State :=
  match s.lostMask q r with
  | some m => s.setLost q r (m ||| mask)
  | none =>
    let s := s.countSat (Reg.CLS_CNT q) Fld.CLS_CNT_double 1
    match (List.range 256).find? fun e => s.fld (Reg.CLS_ROW_LOG q e) Fld.CLS_ROW_LOG_valid == 0 with
    | some e =>
      let w := setF (setF (setF (setF 0 Fld.CLS_ROW_LOG_valid 1) Fld.CLS_ROW_LOG_lost mask) Fld.CLS_ROW_LOG_stale 1) Fld.CLS_ROW_LOG_row r
      let s := s.setReg (Reg.CLS_ROW_LOG q e) w
      let s := s.setFld (Reg.CLS_LOG_STATUS q) Fld.CLS_LOG_STATUS_entries
        (s.fld (Reg.CLS_LOG_STATUS q) Fld.CLS_LOG_STATUS_entries + 1)
      let s := s.observe 4 q 0x085 1 noWork (leBytes 4 r ++ [BitVec.ofNat 8 mask])
      s.raise 0x0503 4 q ([BitVec.ofNat 8 q, BitVec.ofNat 8 mask, 0, 0] ++ leBytes 4 r)
    | none =>
      let s := s.countSat (Reg.CLS_LOG_STATUS q) Fld.CLS_LOG_STATUS_overflow 1
      s.setGroup q { s.group q with waiting := (s.group q).waiting ++ [(r, mask)] }

/-- A row-log entry freed; the oldest row that waits for one is entered (R144, R146). -/
def State.freeRow (s : State) (q e : Nat) : State :=
  let s := s.setReg (Reg.CLS_ROW_LOG q e) 0
  match (s.group q).waiting with
  | [] => s.setFld (Reg.CLS_LOG_STATUS q) Fld.CLS_LOG_STATUS_entries
      (s.fld (Reg.CLS_LOG_STATUS q) Fld.CLS_LOG_STATUS_entries - 1)
  | (r, m) :: t =>
    let s := s.setGroup q { s.group q with waiting := t }
    let w := setF (setF (setF (setF 0 Fld.CLS_ROW_LOG_valid 1) Fld.CLS_ROW_LOG_lost m) Fld.CLS_ROW_LOG_stale 1) Fld.CLS_ROW_LOG_row r
    let s := s.setReg (Reg.CLS_ROW_LOG q e) w
    let s := s.observe 4 q 0x085 1 noWork (leBytes 4 r ++ [BitVec.ofNat 8 m])
    s.raise 0x0503 4 q ([BitVec.ofNat 8 q, BitVec.ofNat 8 m, 0, 0] ++ leBytes 4 r)

/-- What port ECC found at a stack is counted (R124, R125). -/
def State.countEcc (s : State) (n : Nat) : EccResult → State
  | .clean => s
  | .ondie => s.countSat (Reg.STK_ECC_CNT (n / 8) (n % 8)) Fld.STK_ECC_CNT_ondie 1
  | .corrected => s.countSat (Reg.STK_ECC_CNT (n / 8) (n % 8)) Fld.STK_ECC_CNT_corrected 1
  | .detected => s.countSat (Reg.STK_ECC_CNT (n / 8) (n % 8)) Fld.STK_ECC_CNT_uncorrectable 1
  | .hard => s.countSat (Reg.STK_ECC_CNT (n / 8) (n % 8)) Fld.STK_ECC_CNT_uncorrectable 1

/-- A hard fault counted for a stack, which fails above the limit (R126, R140). -/
def State.hardFault (s : State) (n : Nat) : State :=
  let s := s.countSat (portStatus n) Fld.STK_PORT_STATUS_hard_rows 1
  let lim := s.fld (Reg.CLS_CFG (n / 8)) Fld.CLS_CFG_hard_fault_limit
  if lim != 0 && lim < s.fld (portStatus n) Fld.STK_PORT_STATUS_hard_rows then s.markFailed n 3 else s

/-- A stack that is accessed leaves power-down (Table PM-2). -/
def State.wake (s : State) (n : Nat) : State :=
  { s with pool := { s.pool with powerDown := s.pool.powerDown.filter (· != n) } }

/-- Units of the granule of a position read at its port: the access is observed, and what ECC finds is counted unit by unit (R124, R125). A failed stack is sent no command. -/
def State.chargeUnits (s : State) (ecc : List (Nat × Nat × EccResult)) (q r : Nat) (units : List Nat) (j : Nat) : State :=
  if s.working q r j then
    let n := 8 * q + s.physPos q r j
    (s.eccAt ecc q r j units).foldl (fun (s : State) e => s.countEcc n e) ((s.wake n).observe 3 n 0x081 1 noWork [])
  else s

/-- The counts and events of one granule read at a position of a row: the accesses at the ports, what ECC found there, the reconstruction from the other members, the hard fault, or the double fault (R124 to R126, R138, R144). -/
def State.chargeRead (s : State) (ecc : List (Nat × Nat × EccResult)) (q r j : Nat) (units : List Nat) (via : ReadVia) : State :=
  let s1 := s.chargeUnits ecc q r units j
  let s2 := (s.others r j).foldl (fun (s : State) i => s.chargeUnits ecc q r allUnits i) s1
  match via with
  | .direct => s1
  | .rebuilt =>
    let s3 := s2.countWrap (Reg.CLS_CNT q) Fld.CLS_CNT_reconstructed 1
    let s4 := s3.observe 4 q 0x083 1 noWork (leBytes 4 r ++ [BitVec.ofNat 8 j])
    if s.working q r j && (s.eccAt ecc q r j units).contains .hard then s4.hardFault (8 * q + s.physPos q r j) else s4
  | .lost => s2.logRow q r (s.unreadableMask ecc q r)

/-- The counts and events of the reads that a write of bytes of a granule makes first (R135, Table PM-4). -/
def State.chargeWrite (s : State) (ecc : List (Nat × Nat × EccResult)) (q r j start n : Nat) (via : ReadVia) : State :=
  if s.writesParity ecc q r j start n then
    ((s.others r j).filter (· != parityPos r)).foldl (fun (s : State) i => s.chargeUnits ecc q r allUnits i) s
  else s.chargeRead ecc q r j (unitsOf start n) via

/-- A granule read at a position of a row, with everything that the read brings about: the raw bytes and how they came. -/
def State.readRow (s : State) (ecc : List (Nat × Nat × EccResult)) (q r j : Nat) (units : List Nat) : State × List Byte × ReadVia :=
  let (raw, via) := s.fetchRaw ecc q r j units
  (s.chargeRead ecc q r j units via, raw, via)

/-- What an access to a range of pool memory met. -/
structure PoolSeen where
  rebuilt : Bool
  lost : Bool
deriving DecidableEq, Repr

/-- Bytes of the pool read through the stack ports: data, and whether a granule was rebuilt or lost. -/
def State.readPool (s : State) (ecc : List (Nat × Nat × EccResult)) (pa n : Nat) : State × List Byte × PoolSeen :=
  (granulePieces pa n).foldl (fun (st : State × List Byte × PoolSeen) p =>
    match st.1.rowAt p.1 with
    | none => (st.1, st.2.1 ++ List.replicate p.2 0, st.2.2)
    | some (q, r, j) =>
      let (s, raw, via) := st.1.readRow ecc q r j (unitsOf (p.1 % 256) p.2)
      let bs := if via = .lost then List.replicate p.2 0
        else slice (unsealGranule s.sec.key (p.1 / 256 * 256) raw) (p.1 % 256) p.2
      (s, st.2.1 ++ bs, ⟨st.2.2.rebuilt || via == .rebuilt, st.2.2.lost || via == .lost⟩))
    (s, [], ⟨false, false⟩)

/-- Bytes stored in the pool through the stack ports as row transactions, without capture for the mirror (R135, R136, R145). A write whose data is dropped counts as lost. -/
def State.storePool (s : State) (ecc : List (Nat × Nat × EccResult)) (pa : Nat) (data : List Byte) : State × PoolSeen :=
  (granulePieces pa data.length).foldl (fun (st : State × PoolSeen) p =>
    match st.1.rowAt p.1 with
    | none => st
    | some (q, r, j) =>
      let (_, via) := st.1.fetchOld ecc q r j (p.1 % 256) p.2
      let s1 := st.1.chargeWrite ecc q r j (p.1 % 256) p.2 via
      let (s2, _, ok) := s1.writePiece ecc p.1 (slice data (p.1 - pa) p.2)
      (s2, ⟨st.2.rebuilt || via == .rebuilt, st.2.lost || !ok⟩))
    (s, ⟨false, false⟩)

/-- Bytes stored in the pool where they become visible: stored and captured for the mirror (R419). The ids are those of the ranges that completions wait for. -/
def State.writePool (s : State) (ecc : List (Nat × Nat × EccResult)) (pa : Nat) (data : List Byte) (both : Bool) :
    State × PoolSeen × List Nat :=
  let stored := s.storePool ecc pa data
  let captured := stored.1.captureWrite pa data.length both
  (captured.1, stored.2, captured.2)

/-- The data positions of a row. -/
def State.dataPositions (s : State) (r : Nat) : List Nat := s.others r (parityPos r)

/-- The whole granules that a byte range covers, as pool addresses. -/
def wholeGranules (pa n : Nat) : List Nat := (List.range ((pa + n) / 256 - cdiv pa 256)).map fun i => 256 * (cdiv pa 256 + i)

/-- The rows of which one tile stores every data granule: group and row (R135). A double-fault row is not one of them (R145). -/
def State.fullRows (s : State) (ecc : List (Nat × Nat × EccResult)) (tile : List (Nat × List Byte)) : List (Nat × Nat) :=
  let at' := (tile.flatMap fun p => wholeGranules p.1 p.2.length).filterMap s.rowAt
  (at'.map fun x => (x.1, x.2.1)).eraseDups.filter fun x =>
    !s.doubled ecc x.1 x.2 && (s.dataPositions x.2).all fun j => at'.contains (x.1, x.2, j)

/-- Whether a pool address lies in one of some rows. -/
def State.inRows (s : State) (rows : List (Nat × Nat)) (pa : Nat) : Bool :=
  match s.rowAt pa with
  | some (q, r, _) => rows.contains (q, r)
  | none => false

/-- The bytes of one granule moved to a new place: raw bytes written so that the place reads as them. -/
def State.placeRaw (s : State) (q r j : Nat) (raw : List Byte) : State :=
  (s.wake (8 * q + s.physPos q r j)).xorGranule q r j 0 (xorBytes (s.rawGranule q r j) raw)

/-- The bytes of one granule placed, where its stack works. -/
def State.placeLive (s : State) (q r j : Nat) (raw : List Byte) : State := if s.working q r j then s.placeRaw q r j raw else s

/-- A full-row write: the data granules of a row stored with the parity computed from them; nothing is read (R135). -/
def State.storeRow (s : State) (q r : Nat) (data : List (Nat × List Byte)) : State :=
  let s1 := data.foldl (fun (s : State) x => s.placeLive q r x.1 x.2) s
  s1.placeLive q r (parityPos r) (data.foldl (fun acc x => xorBytes acc x.2) zeroGranule)

/-- The full-row writes of a tile: position and sealed granule of each data granule of the rows. A granule that the tile names twice keeps the later bytes. -/
def State.storeRows (s : State) (rows : List (Nat × Nat)) (tile : List (Nat × List Byte)) : State :=
  let parts := tile.flatMap fun p => (wholeGranules p.1 p.2.length).filterMap fun g =>
    (s.rowAt g).map fun x => (x, sealGranule s.sec.key g (slice p.2 (g - p.1) 256))
  rows.foldl (fun (t : State) x =>
    t.storeRow x.1 x.2 ((s.dataPositions x.2).map fun j =>
      (j, ((parts.filter fun y => y.1 == (x.1, x.2, j)).getLast?.map (·.2)).getD zeroGranule))) s

/-- A read of one granule at its stack port, with what port ECC finds there (R124 to R126, R144). A row past the last slot of a stack does not exist. -/
def execGranuleRead (n : Setting) (row : Nat) (ecc : EccResult) (s : State) : Result :=
  if rowCount ≤ row then .fault .noSuchRow
  else .next (s.readRow [(n.val / 8 * 8 + s.physPos (n / 8) row (n % 8), 4 * row, ecc)] (n / 8) row (n % 8) allUnits).1

/-- The bytes of a slot as a read finds them, or as they stand where the read is lost. -/
def State.slotBytes (s : State) (q r j : Nat) : List Byte :=
  if (s.fetchRaw [] q r j allUnits).2 = .lost then s.rawGranule q r j else (s.fetchRaw [] q r j allUnits).1

/-- A write of a row that no pool address reaches: the granule slot is read raw, changed and stored with its check bytes. -/
def State.writeSlot (s : State) (q r j start : Nat) (bs : List Byte) : State :=
  (s.storeRaw [] q r j 0 (s.slotBytes q r j) (splice (s.slotBytes q r j) start bs)).1

/-- Bytes written at a pool address, with no error injected. -/
def State.pokeRow (s : State) (pa : Nat) (bs : List Byte) : State := (s.writePool [] pa bs false).1

/-- A write of data granule d of a stack, by its pool address where it has one. -/
def State.writeRow (s : State) (n d row start : Nat) (bs : List Byte) : State :=
  match s.addressOf n d with
  | some pa => s.pokeRow (pa + start) bs
  | none => s.writeSlot (n / 8) row (n % 8) start bs

/-- The effect of a write to a data granule of a row: the row transaction of R135 to R137 on raw bytes; a write to a parity granule or a spare slot is no data write and has no effect. -/
def rowWriteEff (n : Setting) (row start : Nat) (data : List Byte) (s : State) : State :=
  match dataIndex s.spareMode (n.val % 8) row with
  | none => s
  | some d => s.writeRow n d row start (data.take (256 - start))

def execRowWrite (n : Setting) (row : Nat) (start : Fin 256) (data : List Byte) (s : State) : Result :=
  if rowCount ≤ row then .fault .noSuchRow else .next (rowWriteEff n row start data s)

/-- The next bank of a stack is refreshed (R127), while the stack port sends it commands: not in self-refresh, not after it has failed (R128, R140). Bank numbers rotate over the 16 that the model keeps for a stack. -/
def refreshEff (n : Setting) (s : State) : State :=
  if s.stackFailed n || s.fld (portStatus n) Fld.STK_PORT_STATUS_state = 2 then s
  else { s with pool := { s.pool with refreshNext := s.pool.refreshNext.set n ((s.pool.refreshNext.getD n 0 + 1) % 16) } }

def execRefresh (n : Setting) (s : State) : Result := .next (refreshEff n s)

/-- A stack idle for 1 µs enters power-down; it leaves it by itself at the next access (R128). -/
def powerDownIdleEff (n : Setting) (s : State) : State :=
  if s.fld (portStatus n) Fld.STK_PORT_STATUS_state = 1 && !s.pool.powerDown.contains n.val then
    { s with pool := { s.pool with powerDown := n.val :: s.pool.powerDown } }
  else s

def execPowerDownIdle (n : Setting) (s : State) : Result := .next (powerDownIdleEff n s)

/-- A transition to a power state begins. -/
def State.startMove (s : State) (n target : Nat) : State :=
  { s with pool := { s.pool with powerDown := s.pool.powerDown.filter (· != n)
                                 moving := (n, target) :: s.pool.moving.filter (·.1 != n) } }

/-- A write of STK_PORT_CTL (R128, Table PM-2). -/
def stackPowerWrite (path : Path) (n : Nat) (value : Word) (s : State) : State :=
  let v := getF value Fld.STK_PORT_CTL_power
  let now := s.fld (portCtl n) Fld.STK_PORT_CTL_power
  let failed := s.stackFailed n
  if v = 3 then s.logViol path 4 (portCtl n)
  else if v = 2 then
    if failed then
      (s.setFld (portCtl n) Fld.STK_PORT_CTL_power 2).setFld (portStatus n) Fld.STK_PORT_STATUS_state 3
    else s.logViol path 4 (portCtl n)
  else if now = 2 then s.logViol path 4 (portCtl n)
  else
    let s := s.setFld (portCtl n) Fld.STK_PORT_CTL_power v
    if failed then s
    else if v = 1 then (s.setFld (portStatus n) Fld.STK_PORT_STATUS_state 2).startMove n 2
    else if now = 1 then s.startMove n 1
    else s

def execStackPowerActive (path : Path) (n : Setting) (value : Word) (s : State) : Result :=
  .next (stackPowerWrite path n (setF value Fld.STK_PORT_CTL_power 0) s)

def execStackSelfRefresh (path : Path) (n : Setting) (value : Word) (s : State) : Result :=
  .next (stackPowerWrite path n (setF value Fld.STK_PORT_CTL_power 1) s)

def execStackPowerOff (path : Path) (n : Setting) (value : Word) (s : State) : Result :=
  .next (stackPowerWrite path n (setF value Fld.STK_PORT_CTL_power 2) s)

/-- Self-refresh entry or exit completes; after an exit the stack serves the accesses that were held (R128). -/
def stackPowerTransitionDoneEff (n : Setting) (s : State) : State :=
  match s.pool.moving.find? fun m => m.1 == n.val with
  | none => s
  | some (_, target) =>
    let s := { s with pool := { s.pool with moving := s.pool.moving.filter (·.1 != n.val) } }
    s.setFld (portStatus n) Fld.STK_PORT_STATUS_state target

def execStackPowerTransitionDone (n : Setting) (s : State) : Result := .next (stackPowerTransitionDoneEff n s)

/-- More than 16 interface parity errors in 1 ms mark the stack failed (R140). -/
def execStackInterfaceErrors (n : Setting) (s : State) : Result := .next (s.markFailed n 2)

/-- A fatal condition that the stack reports marks it failed (R140). -/
def execStackFatalReport (n : Setting) (s : State) : Result := .next (s.markFailed n 4)

/-- The granules of a slab that may hold something other than what the fill writes: those of rows in which a raw byte is listed, as group, row and position. -/
def State.slabGranules (s : State) (slab : Nat) : List (Nat × Nat × Nat) :=
  ((s.pool.cells.map fun e => (e.1 / 2 ^ 39 / 8, e.1 % 2 ^ 39 / 256)).eraseDups.flatMap fun x =>
    (s.dataPositions x.2).filterMap fun j =>
      (dataIndex s.spareMode j x.2).bind fun d =>
        (s.addressOf (8 * x.1 + j) d).bind fun pa => if pa / 2 ^ 30 = slab then some (x.1, x.2, j) else none)

/-- What a granule holds for a write that reads nothing of it: its raw bytes, or where its stack has failed those that the row gives (R138). -/
def State.heldRaw (s : State) (q r j : Nat) : List Byte := if s.working q r j then s.rawGranule q r j else s.xorOthers q r j

/-- The granules of a slab read as zero again, a granule of a failed stack by its parity; the parity follows (R131). -/
def State.zeroSlab (s : State) (slab : Nat) : State :=
  (s.slabGranules slab).foldl (fun (s : State) k =>
    (s.storeRaw [] k.1 k.2.1 k.2.2 0 (s.heldRaw k.1 k.2.1 k.2.2) (s.fillAt k.1 k.2.1 k.2.2)).1) s

/-- The copies of a slab's lines in the line caches dropped with their directory pointers: what they hold is the contents that the slab has lost (R131). -/
def State.dropCopies (s : State) (slab : Nat) : State :=
  let mine (l : Nat) : Bool := l / 2 ^ 24 == slab
  let local' (e : DirEntry) : DirEntry := { e with
    ptrs := e.ptrs.map fun p => if p.any (decide <| · < 32) then none else p
    bcastL := false, state := if (e.ptrs.getD 0 none).any (decide <| · < 32) then 1 else e.state }
  let live (e : DirEntry) : Bool := e.ptrs.any Option.isSome || e.bcastU
  { s with coh := { s.coh with
      caches := s.coh.caches.map fun c => c.filter fun l => !mine l.line
      dir := s.coh.dir.map fun es => es.filterMap fun e =>
        if mine e.line then (if live (local' e) then some (local' e) else none) else some e } }

/-- The zero-fill of a newly enabled slab ends: its contents read zero and it is ready (R131). -/
def slabFillDoneEff (slab : Nat) (s : State) : State :=
  if s.fld (slabReg slab) Fld.STK_SLAB_state = 1 && 7 ≤ s.doneStep then
    ((s.zeroSlab slab).dropCopies slab).setFld (slabReg slab) Fld.STK_SLAB_state 2
  else s

def execSlabFillDone (slab : Fin 14336) (s : State) : Result := .next (slabFillDoneEff slab s)

/-- A write of CLS_CTL: the position, fail (R140) and reinstate (R141). Both actions are ignored and logged while a retraining runs; a reinstate is ignored and logged unless the group is DEGRADED with the named stack as its one failed stack, or REBUILT with that stack failed. -/
def clsCtlWrite (path : Path) (q : Nat) (value : Word) (s : State) : State :=
  let j := getF value Fld.CLS_CTL_stack
  let busy := s.on (Reg.CLS_CTL q) Fld.CLS_CTL_busy
  let s := s.setFld (Reg.CLS_CTL q) Fld.CLS_CTL_stack j
  let fail := getF value Fld.CLS_CTL_fail = 1
  let rein := getF value Fld.CLS_CTL_reinstate = 1
  let s := if fail then (if busy then s.logViol path 4 (Reg.CLS_CTL q) else s.markFailed (8 * q + j) 5) else s
  if rein then
    let st := s.groupState q
    let only := s.fld (Reg.CLS_STATUS q) Fld.CLS_STATUS_failed == 2 ^ j
    if busy || !(st == 1 || st == 3) || !only then s.logViol path 4 (Reg.CLS_CTL q)
    else
      let g := s.group q
      let s := s.setGroup q { g with target := some j, ownRows := 0
                                     atReinstate := some (st, s.fld (Reg.CLS_STATUS q) Fld.CLS_STATUS_failed) }
      s.setFld (Reg.CLS_CTL q) Fld.CLS_CTL_busy 1
  else s

def execClsFail (path : Path) (q : Quad) (value : Word) (s : State) : Result :=
  .next (clsCtlWrite path q (setF value Fld.CLS_CTL_fail 1) s)

def execClsReinstate (path : Path) (q : Quad) (value : Word) (s : State) : Result :=
  .next (clsCtlWrite path q (setF value Fld.CLS_CTL_reinstate 1) s)

/-- The pool event of a reinstatement that did not start: the group keeps its state (Table PM-6). -/
def State.reinstateEvent (s : State) (q : Nat) : State :=
  let st := s.groupState q
  s.raise 0x0502 4 q [BitVec.ofNat 8 q, BitVec.ofNat 8 st, BitVec.ofNat 8 st]

/-- The retraining of a reinstatement ends (R141): the group enters REINSTATING, or the reinstatement fails or is abandoned. -/
def reinstateRetrainDoneEff (q : Quad) (ok : Bool) (s : State) : State :=
  let g := s.group q
  match g.atReinstate, g.target with
  | some (st, failed), some j =>
    let s := s.setFld (Reg.CLS_CTL q) Fld.CLS_CTL_busy 0
    let same := s.groupState q == st && s.fld (Reg.CLS_STATUS q) Fld.CLS_STATUS_failed == failed
    if ok && same then
      let s := s.setFld (portCtl (8 * q + j)) Fld.STK_PORT_CTL_power 0
      let s := s.setFld (portStatus (8 * q + j)) Fld.STK_PORT_STATUS_state 4
      let s := s.setGroup q { g with
        atReinstate := none, origin := st, ownRows := 0
        task := if s.spareMode && g.spareOf == some j then .copyBack else .reinstate }
      (s.setWatermark q 0).setGroupState q 4
    else
      (s.setGroup q { g with atReinstate := none, target := none }).reinstateEvent q
  | _, _ => s

def execReinstateRetrainDone (q : Quad) (ok : Bool) (s : State) : Result := .next (reinstateRetrainDoneEff q ok s)

/-- The background task of a group completes (Table PM-6): a rebuild leaves the group REBUILT; a copy-back or reinstatement leaves it HEALTHY with the stack working, its hard faults and cause cleared. -/
def State.completeTask (s : State) (q : Nat) : State :=
  let g := s.group q
  match g.task with
  | .none => s
  | .rebuild => ((s.setGroup q { g with spareTo := rowCount }).endTask q).setGroupState q 3
  | _ =>
    match g.target with
    | none => s
    | some j =>
      let n := 8 * q + j
      let s := s.setGroup q { g with target := none, ownRows := 0, spareOf := none, spareFrom := 0, spareTo := 0 }
      let s := (s.endTask q).setFailed q j false
      let s := s.setFld (portStatus n) Fld.STK_PORT_STATUS_hard_rows 0
      let s := s.setFld (portStatus n) Fld.STK_PORT_STATUS_cause 0
      let s := s.setFld (portStatus n) Fld.STK_PORT_STATUS_state 1
      s.setGroupState q 0

/-- One row of a group's background task (R143): the granule of the failed or reinstated position is rebuilt or copied, and the watermark moves on. A granule that cannot be rebuilt goes to the row log (R144). A task that its own read ends, by a stack that fails, moves nothing. -/
def State.taskRow (s : State) (ecc : List (Nat × Nat × EccResult)) (q : Nat) : State :=
  let g := s.group q
  let r := s.watermark q
  let goesOn (s : State) : Bool := (s.group q).task == g.task
  match g.task with
  | .none => s
  | .rebuild =>
    match g.spareOf with
    | none => s
    | some j =>
      if sparePos r = j then
        (s.setGroup q { g with spareTo := r + 1 }).setWatermark q (r + 1)
      else
        let (s, raw, via) := s.readRow ecc q r j allUnits
        if !goesOn s then s
        else
          let s := (s.setGroup q { s.group q with spareTo := r + 1 }).setWatermark q (r + 1)
          if via = .lost then s else s.placeRaw q r j raw
  | .copyBack =>
    match g.target with
    | none => s
    | some j =>
      if sparePos r = j then (s.setGroup q { g with spareFrom := r + 1, ownRows := r + 1 }).setWatermark q (r + 1)
      else
        let (s, raw, via) := s.readRow ecc q r j allUnits
        if !goesOn s then s
        else
          let s := (s.setGroup q { s.group q with spareFrom := r + 1, ownRows := r + 1 }).setWatermark q (r + 1)
          if via = .lost then s else s.placeRaw q r j raw
  | .reinstate =>
    match g.target with
    | none => s
    | some j =>
      let (s, raw, via) := s.readRow ecc q r j allUnits
      if !goesOn s then s
      else
        let s := (s.setGroup q { s.group q with ownRows := r + 1 }).setWatermark q (r + 1)
        if via = .lost then s else s.placeRaw q r j raw

/-- A background task advances by a row, and completes at the last row. It pauses under a global stop, and runs from start-up step 7 on (R49, R473). -/
def backgroundTaskRowEff (q : Quad) (ecc : List (Nat × Nat × EccResult)) (s : State) : State :=
  if s.workStopped || s.doneStep < 7 || (s.group q).task = .none then s
  else
    let last := decide (rowCount ≤ s.watermark q + 1)
    let task := (s.group q).task
    let s := s.taskRow ecc q
    if last && (s.group q).task == task then s.completeTask q else s

def execBackgroundTaskRow (q : Quad) (ecc : List (Nat × Nat × EccResult)) (s : State) : Result :=
  .next (backgroundTaskRowEff q ecc s)

/-- A write of CLS_ROW_REPAIR: the entry, which takes the write at once, and go unless a repair runs or the entry is free (R146). -/
def clsRowRepairWrite (path : Path) (q : Nat) (value : Word) (s : State) : State :=
  let busy := s.on (Reg.CLS_ROW_REPAIR q) Fld.CLS_ROW_REPAIR_busy
  let e := getF value Fld.CLS_ROW_REPAIR_entry
  let s := s.setFld (Reg.CLS_ROW_REPAIR q) Fld.CLS_ROW_REPAIR_entry e
  if getF value Fld.CLS_ROW_REPAIR_go = 1 then
    if busy then s.logViol path 4 (Reg.CLS_ROW_REPAIR q)
    else
      if s.on (Reg.CLS_ROW_LOG q e) Fld.CLS_ROW_LOG_valid then
        (s.setFld (Reg.CLS_ROW_REPAIR q) Fld.CLS_ROW_REPAIR_busy 1).setGroup q { s.group q with repairing := e }
      else s.logViol path 4 (Reg.CLS_ROW_REPAIR q)
  else s

def execClsRowRepair (path : Path) (q : Quad) (value : Word) (s : State) : Result :=
  .next (clsRowRepairWrite path q (setF value Fld.CLS_ROW_REPAIR_go 1) s)

/-- The repair of a logged row ends (R146): it stops on a further lost granule, or zero-writes the lost granules on working stacks, recomputes the parity from the row's data, and frees the entry. A lost granule on a failed stack then reconstructs to zero. -/
def rowRepairDoneEff (q : Quad) (ecc : List (Nat × Nat × EccResult)) (s : State) : State :=
  let q := q.val
  if s.on (Reg.CLS_ROW_REPAIR q) Fld.CLS_ROW_REPAIR_busy then
    let e := (s.group q).repairing
    let r := s.fld (Reg.CLS_ROW_LOG q e) Fld.CLS_ROW_LOG_row
    let m := s.fld (Reg.CLS_ROW_LOG q e) Fld.CLS_ROW_LOG_lost
    let s := s.setFld (Reg.CLS_ROW_REPAIR q) Fld.CLS_ROW_REPAIR_busy 0
    let asked := (s.members r).filter fun j => s.working q r j && !m.testBit j
    let s := asked.foldl (fun (s : State) j => s.chargeUnits ecc q r allUnits j) s
    match asked.find? fun j => (s.eccAt ecc q r j allUnits).any eccFails with
    | some j =>
      let s := s.setFld (Reg.CLS_ROW_LOG q e) Fld.CLS_ROW_LOG_lost (m ||| 2 ^ j)
      let s := s.setFld (Reg.CLS_ROW_REPAIR q) Fld.CLS_ROW_REPAIR_result 1
      s.raise 0x0503 4 q ([BitVec.ofNat 8 q, BitVec.ofNat 8 (m ||| 2 ^ j), 0, 0] ++ leBytes 4 r)
    | none =>
      let pp := parityPos r
      let data := (s.members r).filter (· != pp)
      let s := data.foldl (fun s j =>
        if s.working q r j && m.testBit j then s.placeRaw q r j (s.fillAt q r j) else s) s
      let parity := data.foldl (fun acc j =>
        xorBytes acc (if s.working q r j then s.rawGranule q r j else s.fillAt q r j)) zeroGranule
      let s := if s.working q r pp then s.placeRaw q r pp parity else s
      (s.freeRow q e).setFld (Reg.CLS_ROW_REPAIR q) Fld.CLS_ROW_REPAIR_result 0
  else s

def execRowRepairDone (q : Quad) (ecc : List (Nat × Nat × EccResult)) (s : State) : Result :=
  .next (rowRepairDoneEff q ecc s)

/-- The XOR of every member of a row, parity included: zero where the parity is right (R147). -/
def State.rowXor (s : State) (q r : Nat) : List Byte :=
  (s.members r).foldl (fun acc j => xorBytes acc (s.rawGranule q r j)) zeroGranule

/-- The scrub engine reads its next row: ECC on every readable granule, then the parity, which is rewritten where it is wrong and every granule passed; double faults are logged, also where both granules lie on failed stacks (R141). The row number wraps after the last row. Scrub pauses under a global stop (R147, R473). -/
def patrolScrubRowEff (q : Quad) (ecc : List (Nat × Nat × EccResult)) (s : State) : State :=
  let q := q.val
  if s.workStopped || s.doneStep < 13 then s
  else
    let r := s.fld (Reg.CLS_SCRUB q) Fld.CLS_SCRUB_row
    let ms := (s.members r).filter fun j => s.working q r j
    let clean := ms.all fun j => !(s.eccAt ecc q r j allUnits).any eccFails
    let was := s.stale q r
    let st := s.groupState q
    let lost := if s.doubled ecc q r && !was then s.unreadableMask ecc q r else 0
    let s := ms.foldl (fun (s : State) j =>
      let via := (s.fetchRaw ecc q r j allUnits).2
      if via = .lost then s.chargeUnits ecc q r allUnits j else s.chargeRead ecc q r j allUnits via) s
    let s := if lost = 0 then s else s.logRow q r lost
    let s := if clean && !was && !(st = 1 || st = 5) && s.rowXor q r != zeroGranule &&
        (s.members r).all (fun j => s.working q r j) then
        let pp := parityPos r
        let s := s.xorGranule q r pp 0 (s.rowXor q r)
        let s := s.countSat (Reg.CLS_CNT q) Fld.CLS_CNT_parity_fixed 1
        s.raise 0x0505 4 q ([BitVec.ofNat 8 q, 0, 0, 0] ++ leBytes 4 r)
      else s
    if r + 1 = rowCount then
      (s.setFld (Reg.CLS_SCRUB q) Fld.CLS_SCRUB_row 0).countWrap (Reg.CLS_SCRUB q) Fld.CLS_SCRUB_passes 1
    else s.setFld (Reg.CLS_SCRUB q) Fld.CLS_SCRUB_row (r + 1)

def execPatrolScrubRow (q : Quad) (ecc : List (Nat × Nat × EccResult)) (s : State) : Result :=
  .next (patrolScrubRowEff q ecc s)

end Sys2Proof.Machine
end

