-- ==== Sys2Proof/Machine/Fields.lean ====
section
/-! DEFINITION. A register write field by field: live, staged and locked fields, the enables that lock them, and the accesses that a sealed Bezel refuses (R5, R52, R59, R63, Table SE-7). -/

namespace Sys2Proof.Machine

open Sys2Proof

/-- Entry e of the tenant table: valid, peer, client and node (Table SE-5). -/
def State.tenantEntry (s : State) (e : Nat) : Bool × Bool × Nat × Nat :=
  let w := s.reg (Reg.SEC_TENANT e)
  let b := getF w Fld.SEC_TENANT_entry
  (b.testBit 15, b.testBit 14, b % 512, getF w Fld.SEC_TENANT_node)

/-- Whether a client is a tenant client of the binding in force (R443). -/
def State.isTenant (s : State) (c : Nat) : Bool :=
  s.sealed && (List.range 16).any fun e =>
    let (v, p, cl, _) := s.tenantEntry e
    v && !p && cl == c

/-- Whether a node is a peer entry of the tenant table. -/
def State.isPeer (s : State) (node : Nat) : Bool :=
  s.sealed && (List.range 16).any fun e =>
    let (v, p, _, n) := s.tenantEntry e
    v && p && n == node

/-- Whether a slab is a tenant slab of the binding in force. -/
def State.tenantSlab (s : State) (n : Nat) : Bool :=
  s.sealed && (s.reg (Reg.SEC_SEAL_MAP (n / 64))).toNat.testBit (n % 64)

/-- Whether a range of pool memory touches a tenant slab. -/
def State.touchesTenant (s : State) (pa len : Nat) : Bool :=
  (List.range ((pa + len + 2 ^ 30 - 1) / 2 ^ 30 - pa / 2 ^ 30)).any fun i => s.tenantSlab (pa / 2 ^ 30 + i)

/-- The register and field whose live value locks the RWL fields of a register (R41, R59, R131, R384, and the registers sections of the chapters). -/
def lockOf (off : Nat) : Nat × Field :=
  match windowOf off with
  | some (.glob, _, rel) =>
    if rel < 0x40000 then (Reg.PWR_SENSE_STATUS, Fld.PWR_SENSE_STATUS_therm_locked)
    else if rel < 0x50000 then (Reg.SEC_CTL, Fld.SEC_CTL_enable)
    else if rel < 0x60000 then (Reg.LPE_TRC_CTL, Fld.LPE_TRC_CTL_enable)
    else if rel < 0x70000 then (Reg.EVT_CTL, Fld.EVT_CTL_enable)
    else if rel < 0x400000 then (Reg.PAI_CTL, Fld.PAI_CTL_enable)
    else if rel < 0x440000 then (Reg.RTE_VER, Fld.RTE_VER_valid0)
    else if rel < 0x480000 then (Reg.RTE_VER, Fld.RTE_VER_valid1)
    else (Reg.RTE_CTL, Fld.RTE_CTL_enable)
  | some (.quad, q, rel) =>
    if rel < 0x1000 then (Reg.QUE_CTL q, Fld.QUE_CTL_enable)
    else if rel < 0x10000 then (Reg.QUE_CLIENT q ((rel - 0x1000) / 8), Fld.QUE_CLIENT_enable)
    else if rel < 0x20000 then (Reg.QUE_QP_CFG q ((rel - 0x10000) / 0x40), Fld.QUE_QP_CFG_enable)
    else if rel < 0x40000 then (Reg.SEG_CTL q, Fld.SEG_CTL_enable)
    else if rel < 0x48000 then (Reg.STK_CTL q, Fld.STK_CTL_enable)
    else if rel < 0x80000 then (off, Fld.STK_SLAB_enable)
    else if rel < 0xA0000 then (Reg.BNK_CTL q, Fld.BNK_CTL_enable)
    else if rel < 0xB0000 then (Reg.FAC_CTL q, Fld.FAC_CTL_enable)
    else if rel < 0xC0000 then (Reg.RCP_CTL q, Fld.RCP_CTL_enable)
    else if rel < 0xD0000 then (Reg.EXD_CTL q, Fld.EXD_CTL_enable)
    else if rel < 0xE0000 then (Reg.ATN_CTL q, Fld.ATN_CTL_enable)
    else if rel < 0xF0000 then (Reg.SHR_CTL q, Fld.SHR_CTL_enable)
    else if rel < 0x110000 then (Reg.COH_CTL q, Fld.COH_CTL_enable)
    else (Reg.ILC_CTL 0, Fld.ILC_CTL_enable)
  | some (.link, n, rel) =>
    if rel < 0x800 then (Reg.LNK_CTL n, Fld.LNK_CTL_enable) else (Reg.TSC_CTL n, Fld.TSC_CTL_enable)
  | none => (off, ⟨0, 0⟩)

/-- Whether the RWL fields of a register are locked now (R59). -/
def State.locked (s : State) (off : Nat) : Bool := s.on (lockOf off).1 (lockOf off).2

/-- Whether a field is one of the queue enables of R52. -/
def queueEnable (off : Nat) (f : RegField) : Bool :=
  f.acc = .rws && f.lo == 0 &&
  match windowOf off with
  | some (.quad, _, rel) =>
    rel == 0 || (0x1000 ≤ rel && rel < 0x2000) || (0x10000 ≤ rel && rel < 0x20000 && rel % 0x40 == 0x10)
  | _ => false

/-- Bits within the fields of a register that read 0 and ignore writes: bits 31:17 of a route entry (Table RT-4), bits 63:50 of an address word (Table QU-1), and the low bits of an address whose table gives them as zero (R4). -/
def zeroBits (off : Nat) : Nat :=
  match windowOf off with
  | some (.glob, _, rel) =>
    if 0x400000 ≤ rel && rel < 0x480000 then 0xFFFE0000FFFE0000
    else if off = Reg.SEC_QUOTE_DST || off = Reg.EVT_RING_BASE then 0xFFFC000000000000
    else if off = Reg.LPE_TRC_SEG then 2 ^ 12 - 1
    else if off = Reg.LPE_DUMP then 2 ^ 23 - 1
    else if off = Reg.PAI_JOURNAL then 2 ^ 26 - 1
    else 0
  | some (.quad, _, rel) =>
    if 0x10000 ≤ rel && rel < 0x20000 && (rel % 0x40 == 0 || rel % 0x40 == 8) then 0xFFFC000000000000
    else if rel = 0xB0010 then 0xFFFC000000000000
    else if rel = 0xB0008 then 2 ^ 23 - 1
    else if rel = 0xC0008 then 2 ^ 14 - 1
    else if rel = 0xC0010 then 2 ^ 27 - 1
    else if rel = 0xE0008 then 2 ^ 21 - 1
    else 0
  | _ => 0

/-- A written value without the bits that its register holds at 0 (R4). -/
def keptBits (off : Nat) (value : Word) : Word := value &&& ~~~ BitVec.ofNat 64 (zeroBits off)

/-- A write in progress: the live word, the shadow, the kind to be logged, 0 for none, and whether a locked field of an enabled block would have changed, which raises an event (R59). -/
structure FieldWrite where
  live : Word
  shadow : Word
  kind : Nat
  event : Bool
deriving DecidableEq, Repr

/-- One field of a write (Table SC-3, R52, R59, R63). -/
def State.writeField (s : State) (off : Nat) (value : Word) (a : FieldWrite) (f : RegField) : FieldWrite :=
  let v := getF value f.fld
  let stored := clampTo f.least f.most v
  match f.acc with
  | .rw => { a with live := setF a.live f.fld stored }
  | .rws =>
    if s.committing then
      (if v = getF a.shadow f.fld then a else { a with kind := 3 })
    else if queueEnable off f && v == 1 && decide (s.doneStep < 11) then
      { a with kind := if a.kind = 0 then 4 else a.kind }
    else { a with shadow := setF a.shadow f.fld stored }
  | .rwl =>
    if v = getF a.live f.fld then a
    else if s.committing then { a with kind := 3, event := a.event || s.locked off }
    else if s.locked off then { a with kind := 2, event := true }
    else { a with live := setF a.live f.fld stored }
  | .w1c => { a with live := setF a.live f.fld (getF a.live f.fld &&& (2 ^ f.width - 1 - v)) }
  | .ro => a
  | .wo => a

/-- The fields of a register as the access codes give them, before any action of the write: the registers hold their new values, and an access that a rule ignores is logged once. -/
def State.writeFields (s : State) (path : Path) (off : Nat) (value : Word) : State :=
  match regRow off with
  | none => s
  | some r =>
    let a := r.fields.foldl (s.writeField off (keptBits off value)) ⟨s.reg off, s.shadowReg off, 0, false⟩
    let s := (s.setReg off a.live).setShadow off a.shadow
    if a.kind = 0 then s
    else if a.event then s.logLocked path a.kind off
    else s.logViol path a.kind off

/-- The client that a register of the QUE block belongs to, where Table SE-7 guards it. -/
def sealedClient (off : Nat) (value : Word) : Option Nat :=
  match windowOf off with
  | some (.quad, q, rel) =>
    if rel = 0x10 then some (getF value Fld.QUE_RETIRE_client)
    else if 0x1000 ≤ rel && rel < 0x1400 then some (4 * ((rel - 0x1000) / 8) + q)
    else if 0x10000 ≤ rel && rel < 0x20000 && (rel % 0x40 == 0 || rel % 0x40 == 8 || rel % 0x40 == 0x18) then
      some (clientOf q ((rel - 0x10000) / 0x40))
    else none
  | _ => none

/-- Whether a sealed Bezel refuses an operator-side write (Table SE-7). -/
def State.sealRefuses (s : State) (path : Path) (off : Nat) (value : Word) : Bool :=
  path != .firmware &&
  match sealedClient off value with
  | some c => s.isTenant c
  | none => false

end Sys2Proof.Machine
end

