-- ==== Sys2Proof/Machine/Coherence.lean ====
section
/-! DEFINITION. The directory, the line caches and the transactions of the home agents: requests, snoops, answers and grants (R317 to R331). -/

namespace Sys2Proof.Machine

open Sys2Proof

/-- The code of a holder in a directory pointer (Table CO-2). -/
def whoCode : Who → Nat
  | .setting st => st
  | .agent a => 32 + a

/-- Whether a requester is on the companion side. -/
def isUpper : Who → Bool
  | .setting _ => false
  | .agent _ => true

/-- The home quadrant of a line (R11); none where no enabled slab holds it. -/
def State.homeOf (s : State) (line : Nat) : Option Nat := (s.mapPA (line * 64)).map fun p => p.1 / 8

/-- The directory entry of a line, none where it is I (R321). -/
def State.dirEntry (s : State) (q line : Nat) : Option DirEntry := (s.coh.dir.getD q []).find? fun e => e.line == line

/-- The directory entry of a line put, replacing the one it has. -/
def State.putDir (s : State) (q : Nat) (e : DirEntry) : State :=
  { s with coh := { s.coh with dir := s.coh.dir.set q (e :: (s.coh.dir.getD q []).filter fun x => x.line != e.line) } }

/-- The directory entry of a line freed. -/
def State.dropDir (s : State) (q line : Nat) : State :=
  { s with coh := { s.coh with dir := s.coh.dir.set q ((s.coh.dir.getD q []).filter fun x => x.line != line) } }

/-- The line cache of a Setting. -/
def State.cache (s : State) (st : Nat) : List LcLine := s.coh.caches.getD st []

/-- The line cache of a Setting replaced. -/
def State.setCache (s : State) (st : Nat) (l : List LcLine) : State :=
  { s with coh := { s.coh with caches := s.coh.caches.set st l } }

/-- A line in the line cache of a Setting, whatever its slab. -/
def State.cached (s : State) (st line : Nat) : Option LcLine := (s.cache st).find? fun l => l.line == line

/-- A line of a line cache that an access may use: none while its slab fills or is not enabled (R131, R132). -/
def State.cachedNow (s : State) (st line : Nat) : Option LcLine :=
  if (s.homeOf line).isNone || s.slabFilling (line * 64) then none else s.cached st line

/-- The 64 bytes of a cached line stored in its bank (R163, R319). -/
def State.storeLine (s : State) (l : LcLine) : State :=
  let k := 2 * (16 * l.row + l.way)
  (s.setBankWord l.bank k 0 (l.data.take 32)).setBankWord l.bank (k + 1) 0 (l.data.drop 32)

/-- A line of a line cache put at the front, as the most recently used, with its bytes in its bank. -/
def State.putLine (s : State) (st : Nat) (l : LcLine) : State :=
  (s.setCache st (l :: (s.cache st).filter fun x => x.line != l.line)).storeLine l

/-- The banks in which the line cache of a Setting allocates: those it owns with no handover in progress (R158, R319). -/
def State.lcOwned (s : State) (st : Nat) : List Nat := (s.ownedBanks st 9).filter fun bi => (s.handoverOf bi).isNone

/-- The bank and row in which a line has its place, of 16 ways (R319). -/
def State.lcPlace (s : State) (st line : Nat) : Nat × Nat :=
  match s.cached st line with
  | some l => (l.bank, l.row)
  | none =>
    let banks := s.lcOwned st
    let i := Config.lcSet st (256 * banks.length) line % (256 * banks.length)
    (banks.getD (i / 256) 0, i % 256)

/-- The lines of a line cache in a bank and row. -/
def State.lcRow (s : State) (st : Nat) (at' : Nat × Nat) : List LcLine := (s.cache st).filter fun l => l.bank == at'.1 && l.row == at'.2

/-- A line as it enters a line cache. DESIGN CHOICE: the lowest free way takes it (assumption 78). -/
def State.fillLine (s : State) (st line : Nat) (state : LineState) (data : List Byte) : LcLine :=
  let (bank, row) := s.lcPlace st line
  let way := match s.cached st line with
    | some l => l.way
    | none => ((List.range 16).find? fun w => !(s.lcRow st (bank, row)).any fun l => l.way == w).getD 0
  ⟨line, state, data, bank, row, way⟩

/-- Whether a failed bank refuses the line cache the place of a line, in which case the refusal is recorded (R156, R167). -/
def State.lcRefused (s : State) (st line : Nat) : Option State :=
  let bi := (s.lcPlace st line).1
  if (s.cached st line).isNone && (s.lcOwned st).isEmpty then none
  else if s.on (bankReg bi) Fld.BNK_BANK_failed then some (s.bankFault st (bi % 64) 9 3) else none

/-- The data of a line that leaves a cache dirty. DESIGN CHOICE: a failed bank refuses to give it, so that it is lost (assumption 79). -/
def State.dirtyData (s : State) (st : Nat) (l : LcLine) : State × Option (List Byte) :=
  if l.state == .m || l.state == .o then
    if s.on (bankReg l.bank) Fld.BNK_BANK_failed then (s.bankFault st (l.bank % 64) 9 3, none) else (s, some l.data)
  else (s, none)

/-- A line of a line cache dropped. -/
def State.dropLine (s : State) (st line : Nat) : State := s.setCache st ((s.cache st).filter fun x => x.line != line)

/-- Whether a companion agent is active. -/
def State.agentState (s : State) (a : Nat) : Nat := s.fld (Reg.ILC_AGENT 0 a) Fld.ILC_AGENT_state

/-- The enabled agents that may hold lines. -/
def State.liveAgents (s : State) : List Nat :=
  (List.range 8).filter fun a => s.agentState a == 1 || s.agentState a == 2

/-- The possible holders of an entry: pointers, and every cache of a level whose broadcast bit is set (R322). -/
def State.holders (s : State) (e : DirEntry) : List Nat :=
  (e.ptrs.filterMap id ++ (if e.bcastL then List.range 32 else []) ++
    (if e.bcastU then s.liveAgents.map (32 + ·) else [])).eraseDups

/-- The owner of a LOWN, LEX or UEX entry: pointer 0. -/
def DirEntry.owner (e : DirEntry) : Option Nat := e.ptrs.getD 0 none

/-- A holder added to an entry: the first free pointer, or the broadcast bit of its level, which frees the pointers of the level (R322). DEDUCED: pointer 0 of a LOWN entry stays, since it names the owner (Table CO-2, assumption 97). The Boolean says that a broadcast bit was set. -/
def DirEntry.add (e : DirEntry) (h : Nat) : DirEntry × Bool :=
  if e.ptrs.contains (some h) then (e, false)
  else
    match e.ptrs.findIdx? Option.isNone with
    | some i => ({ e with ptrs := e.ptrs.set i (some h) }, false)
    | none =>
      let mine (p : Option Nat) : Bool := match p with
        | some x => decide (x < 32) == decide (h < 32)
        | none => false
      let e' := { e with ptrs := (if e.state = 2 then e.ptrs.take 1 else []) ++
        (e.ptrs.drop (if e.state = 2 then 1 else 0)).map fun p => if mine p then none else p }
      if h < 32 then ({ e' with bcastL := true }, !e.bcastL) else ({ e' with bcastU := true }, !e.bcastU)

/-- A holder removed from an entry. -/
def DirEntry.remove (e : DirEntry) (h : Nat) : DirEntry :=
  { e with ptrs := e.ptrs.map (fun p => if p == some h then none else p), fwd := if e.fwd.map (32 + ·) == some h then none else e.fwd }

/-- Whether an entry has no holder left. -/
def DirEntry.empty (e : DirEntry) : Bool := e.ptrs.all Option.isNone && !e.bcastL && !e.bcastU

/-- A directory lookup counted and observed (COH_CNT.lookups, 0x0C1). -/
def State.countLookup (s : State) (q : Nat) : State :=
  (s.countWrap (Reg.COH_CNT q) Fld.COH_CNT_lookups 1).observe 7 q 0x0C1 1 noWork []

/-- The holders that a snoop for the owner of an entry goes to: pointer 0, and every line cache where their broadcast bit is set (R322, Table CO-2). -/
def DirEntry.owners (e : DirEntry) : List Nat := (e.owner.toList ++ (if e.state = 2 && e.bcastL then List.range 32 else [])).eraseDups

/-- The snoop that a request sends, and to which holders (Table CO-5). -/
def State.snoopPlan (s : State) (e : Option DirEntry) (op : HomeOp) (who : Who) : SnoopKind × List Nat :=
  match e with
  | none => (.cur, [])
  | some e =>
    let own := e.owners
    let all := s.holders e
    let others := all.filter (· != whoCode who)
    match op with
    | .rdShared =>
      if e.state = 1 then
        (if isUpper who then (.fwd, (e.fwd.map (32 + ·)).toList) else (.cur, []))
      else if e.state = 4 || isUpper who then (.cln, own.filter (· != whoCode who))
      else (.shr, own.filter (· != whoCode who))
    | .rdOwn => (.inv, others)
    | .upgrade => (.inv, others)
    | .rdCur => (.cur, if e.state = 1 then [] else own)
    | .wrInv => (.inv, all)
    | .recall => (.inv, all)
    | .flush => (.wb, if e.state = 1 then [] else own)
    | .backInv => (.backInv, all)
    | .removal => (.backInv, all.filter (· == whoCode who))
    | .evictDirty => (.cur, [])
    | .evictClean => (.cur, [])

/-- The answer of a line cache to a snoop, with the state it keeps (Table CO-4). A cache without the line answers RspI. -/
def State.lcSnoop (s : State) (st line : Nat) (kind : SnoopKind) : State × Answer :=
  match s.cached st line with
  | none =>
    (s, .rspI (s.coh.msgs.any fun m => match m with
      | .evict st' l (some _) => st' == st && l == line
      | _ => false))
  | some l =>
    let gone := (l.state == .m || l.state == .o) && (s.dirtyData st l).2.isNone
    let s := (s.dirtyData st l).1
    let dirty := l.state == .m || l.state == .o
    let keep (ns : LineState) : State :=
      s.setCache st ((s.cache st).map fun x => if x.line == line then { x with state := ns } else x)
    if gone then (s.dropLine st line, .rspI false)
    else
    match kind with
    | .cur => if dirty then (s, .data l.state l.data) else if l.state = .e then (s, .rspE) else (s, .rspS)
    | .shr =>
      if dirty then (keep .o, .data .o l.data) else (keep .s, .rspS)
    | .cln => if dirty then (keep .s, .data .s l.data) else (keep .s, .rspS)
    | .fwd => (keep .s, .rspFwd)
    | .inv => if dirty then (s.dropLine st line, .data .i l.data) else (s.dropLine st line, .rspI false)
    | .backInv => if dirty then (s.dropLine st line, .data .i l.data) else (s.dropLine st line, .rspI false)
    | .wb =>
      if l.state = .m then (keep .e, .data .e l.data)
      else if l.state = .o then (keep .s, .data .s l.data)
      else if l.state = .e then (s, .rspE)
      else (s, .rspS)

/-- What a finished home transaction gives: state granted, data, status (0 ok, 1 data error, 3 lost), whether data was rebuilt, and the mirror ranges to wait for. -/
structure Granted where
  state : LineState
  data : Option (List Byte)
  status : Nat
  rebuilt : Bool
  ids : List Nat
deriving DecidableEq, Repr

/-- 64 bytes with those of a mask replaced. -/
def mergeLine (old new : List Byte) (mask : Nat) : List Byte :=
  (List.range 64).map fun i => if mask.testBit i then new.getD i 0 else old.getD i 0

/-- A line read at the stack. -/
def State.stackLine (s : State) (ecc : List (Nat × Nat × EccResult)) (line : Nat) : State × List Byte × PoolSeen :=
  s.readPool ecc (line * 64) 64

/-- A new owner: an entry with one pointer (LEX for a line cache, UEX for an agent). -/
def ownerEntry (line born : Nat) (who : Who) : DirEntry :=
  ⟨line, if isUpper who then 4 else 3, [some (whoCode who), none, none, none], false, false, none, born⟩

/-- An entry put after a holder was added, with a broadcast bit counted. -/
def State.putHolder (s : State) (q : Nat) (e : DirEntry) (h : Nat) : State :=
  let (e, b) := e.add h
  let s := s.putDir q e
  if b then s.countSat (Reg.COH_CNT q) Fld.COH_CNT_bcast 1 else s

/-- A line of a line cache leaves it and its home takes the eviction: dirty data is written to the stack, and the holder removed (R324, R326). -/
def State.takeEviction (s : State) (ecc : List (Nat × Nat × EccResult)) (holder line : Nat) (dirty : Option (List Byte)) :
    State × List Nat :=
  match s.homeOf line with
  | none => (s, [])
  | some q =>
    let (s, ids) := match dirty with
      | some d => let (s, _, ids) := s.writePool ecc (line * 64) d false; (s, ids)
      | none => (s, [])
    match s.dirEntry q line with
    | none => (s, ids)
    | some e =>
      let was := e.owner == some holder && 2 ≤ e.state
      let e := e.remove holder
      if e.empty then (s.dropDir q line, ids)
      else (s.putDir q (if was then { e with state := 1 } else e), ids)

/-- A transaction ends at its home (Table CO-5): the directory, the stack and the grant, from the entry before, the dirty data that the snoops brought, and whether the forwarder sent the data. -/
def State.finish (s : State) (ecc : List (Nat × Nat × EccResult)) (q : Nat) (r : CohReq) (got : Option (List Byte))
    (forwarded : Bool) : State × Granted :=
  let e := s.dirEntry q r.line
  let h := whoCode r.who
  let born := s.coh.born
  let read : State × List Byte × PoolSeen := match got with
    | some d => (s, d, ⟨false, false⟩)
    | none => s.stackLine ecc r.line
  let status (seen : PoolSeen) : Nat := if seen.lost then 1 else 0
  let writeBack (s : State) : State × PoolSeen × List Nat := match got with
    | some d => s.writePool ecc (r.line * 64) d false
    | none => (s, ⟨false, false⟩, [])
  match r.op with
  | .rdCur =>
    let (s, d, seen) := read
    (s, ⟨.i, some d, status seen, seen.rebuilt, []⟩)
  | .recall =>
    let (s, seen, ids) := writeBack s
    (s.dropDir q r.line, ⟨.i, none, 0, seen.rebuilt, ids⟩)
  | .backInv =>
    let (s, seen, ids) := writeBack s
    (s.dropDir q r.line, ⟨.i, none, 0, seen.rebuilt, ids⟩)
  | .removal =>
    let (s, ids) := s.takeEviction ecc h r.line got
    (s, ⟨.i, none, 0, false, ids⟩)
  | .evictDirty =>
    let (s, ids) := s.takeEviction ecc h r.line (some r.data)
    (s, ⟨.i, none, 0, false, ids⟩)
  | .evictClean =>
    let (s, ids) := s.takeEviction ecc h r.line none
    (s, ⟨.i, none, 0, false, ids⟩)
  | .flush =>
    let (s, seen, ids) := writeBack s
    let s := match e with
      | some e => if e.state = 2 then s.putDir q { e with state := 1 } else s
      | none => s
    (s, ⟨.i, none, 0, seen.rebuilt, ids⟩)
  | .wrInv =>
    let lo := ((List.range 64).find? fun i => r.mask.testBit i).getD 0
    let n := ((List.range 64).filter fun i => r.mask.testBit i).length
    let run := got.isNone && bitsAt r.mask lo n == 2 ^ n - 1
    let (s, old, seen) := if run then (s, [], (⟨false, false⟩ : PoolSeen)) else read
    let (s, seen2, ids) :=
      if run then s.writePool ecc (r.line * 64 + lo) (slice r.data lo n) false
      else if seen.lost then (s, seen, [])
      else s.writePool ecc (r.line * 64) (mergeLine old r.data r.mask) false
    (s.dropDir q r.line, ⟨.i, none, if seen.lost || seen2.lost then 1 else 0, seen.rebuilt || seen2.rebuilt, ids⟩)
  | .rdShared =>
    match e with
    | none =>
      let (s, d, seen) := s.stackLine ecc r.line
      if seen.lost then (s, ⟨.i, some d, 1, seen.rebuilt, []⟩)
      else
        let s := s.putDir q (ownerEntry r.line born r.who)
        ({ s with coh := { s.coh with born := born + 1 } }, ⟨.e, some d, 0, seen.rebuilt, []⟩)
    | some e =>
      let upper := isUpper r.who
      if e.state = 1 then
        if upper then
          let (s, d, seen) := if forwarded then (s, none, (⟨false, false⟩ : PoolSeen))
            else let (s, d, seen) := s.stackLine ecc r.line; (s, some d, seen)
          if seen.lost then (s, ⟨.i, d, 1, seen.rebuilt, []⟩)
          else (s.putHolder q { e with fwd := some (h - 32) } h, ⟨.f, d, 0, seen.rebuilt, []⟩)
        else
          let (s, d, seen) := s.stackLine ecc r.line
          if seen.lost then (s, ⟨.i, some d, 1, seen.rebuilt, []⟩)
          else (s.putHolder q e h, ⟨.s, some d, 0, seen.rebuilt, []⟩)
      else
        let keepDirty := !upper && (e.state = 2 || (e.state = 3 && got.isSome))
        let (s, d, seen) := read
        let (s, seen2, ids) := if keepDirty then (s, (⟨false, false⟩ : PoolSeen), []) else writeBack s
        let e := { e with state := if keepDirty then 2 else 1, fwd := if upper && !seen.lost then some (h - 32) else none }
        if seen.lost then (s.putDir q e, ⟨.i, some d, 1, seen.rebuilt, ids⟩)
        else (s.putHolder q e h, ⟨if upper then .f else .s, some d, 0, seen.rebuilt || seen2.rebuilt, ids⟩)
  | _ =>
    let held := match e with
      | some e => e.ptrs.contains (some h) || (if h < 32 then e.bcastL else e.bcastU)
      | none => false
    let b := match e with
      | some e => e.born
      | none => born
    let s' := s.putDir q (ownerEntry r.line b r.who)
    let s' := { s' with coh := { s'.coh with born := born + 1 } }
    if r.op = .upgrade && held then (s', ⟨.m, none, 0, false, []⟩)
    else
      match got with
      | some d => (s', ⟨.m, some d, 0, false, []⟩)
      | none =>
        let (s'', d, seen) := s'.stackLine ecc r.line
        if seen.lost then (s''.dropDir q r.line, ⟨.i, some d, 1, seen.rebuilt, []⟩)
        else (s'', ⟨.e, some d, 0, seen.rebuilt, []⟩)

/-- Whether a request allocates a directory entry. -/
def allocates : HomeOp → Bool
  | .rdShared => true
  | .rdOwn => true
  | .upgrade => true
  | _ => false

/-- Whether a line is busy with an open transaction (R327). -/
def State.lineBusy (s : State) (line : Nat) : Bool := s.coh.txns.any fun t => t.req.line == line

/-- The directory set of a line: one of 262,144 of 16 ways in each slice (R321). -/
def dirSetOf (q line : Nat) : Nat := Config.dirSet q line % 2 ^ 18

/-- The entries of the set of a line. -/
def State.dirSet (s : State) (q line : Nat) : List DirEntry := (s.coh.dir.getD q []).filter fun e => dirSetOf q e.line == dirSetOf q line

/-- Whether a line has no entry and finds its set full (R321, R323). -/
def State.setFull (s : State) (q line : Nat) : Bool := (s.dirEntry q line).isNone && decide (16 ≤ (s.dirSet q line).length)

/-- The entry that must leave so that a line can have one: of a full set that with the fewest holders, and of those the oldest, never a busy one (R323). -/
def State.victim (s : State) (q line : Nat) : Option DirEntry :=
  if !s.setFull q line then none
  else
      ((s.dirSet q line).filter fun e => !s.lineBusy e.line).foldl (fun (best : Option DirEntry) e =>
        match best with
        | none => some e
        | some b =>
          let he := (s.holders e).length
          let hb := (s.holders b).length
          if he < hb || (he == hb && e.born < b.born) then some e else best) none

/-- Whether a snoop to a holder may be sent now: no NP8 hold keeps it back, and for an agent the link is ACTIVE, a SNP credit is left and, in NP8 mode, none of its snoops is outstanding (R331, R332). -/
def State.maySnoop (s : State) (line h : Nat) : Bool :=
  let np8 := s.on (Reg.ILC_CTL 0) Fld.ILC_CTL_np8_compat
  !(np8 && s.coh.holds.any fun x => x.1 == line && x.2.1 == h) &&
  (decide (h < 32) ||
    (s.ilcActive && decide (0 < s.ilc.snpCredits.getD (h - 32) 0) &&
      !(np8 && s.coh.txns.any fun t => t.waiting.any fun w => w.1 == h)))

/-- The NP8 hold that a grant of E, M or F starts (R331). -/
def State.startHold (s : State) (r : CohReq) (g : Granted) : State :=
  if s.on (Reg.ILC_CTL 0) Fld.ILC_CTL_np8_compat && (g.state == .e || g.state == .m || g.state == .f) then
    { s with coh := { s.coh with holds := (r.line, whoCode r.who, s.nt) :: s.coh.holds.filter fun x => x.1 != r.line } }
  else s

/-- A snoop sent to an agent over Ilcen, on one of its SNP credits (R328, R332). -/
def State.snoopAgent (s : State) (a : Nat) (kind : SnoopKind) (line fwdTo : Nat) : State :=
  State.emit { s with ilc := { s.ilc with snpCredits := s.ilc.snpCredits.set a (s.ilc.snpCredits.getD a 0 - 1) } } (.snoop a kind line fwdTo)

/-- The answers of holders to a snoop, taken at once: line caches answer from their state, agents as the environment says. The dirty data is returned. -/
def State.snoopAll (s : State) (recalls : List (Nat × List Byte)) (line : Nat) (kind : SnoopKind) (hs : List Nat) :
    State × Option (List Byte) :=
  hs.foldl (fun (st : State × Option (List Byte)) h =>
    if h < 32 then
      let (s, a) := st.1.lcSnoop h line kind
      match a with
      | .data _ d => (s, some d)
      | _ => (s, st.2)
    else
      let s := st.1.snoopAgent (h - 32) kind line 0
      match recalls.find? fun r => r.1 == line with
      | some r => (s, some r.2)
      | none => (s, st.2)) (s, none)

/-- A directory eviction carried out at once (R323). -/
def State.evictDir (s : State) (env : Env) (q : Nat) (e : DirEntry) : State :=
  let (s, got) := s.snoopAll env.recalls e.line .backInv (s.holders e)
  let s := (s.finish env.ecc q ⟨.agent 15, 0, .backInv, e.line, 0, []⟩ got false).1
  s.countSat (Reg.COH_CNT q) Fld.COH_CNT_back_inv 1

/-- Whether dirty data of a line is on its way to the home in an eviction: a snoop of its sender is answered RspI with wb_pending, and the home waits for that data (Table CO-7). -/
def State.evicting (s : State) (line : Nat) : Bool :=
  s.coh.msgs.any fun m => match m with
    | .evict _ l (some _) => l == line
    | _ => false

/-- Whether a request writes the stack. -/
def writesStack : HomeOp → Bool
  | .wrInv => true
  | .evictDirty => true
  | _ => false

/-- Whether the home of a line takes a request for it at once: nothing holds the line, and its home agent runs. -/
def State.homeTakes (s : State) (q line : Nat) (writes : Bool) : Bool :=
  !(if writes then s.paWriteHeld (line * 64) else s.paHeld (line * 64)) && !s.lineBusy line && !s.workStopped && !s.evicting line &&
  s.on (Reg.COH_CTL q) Fld.COH_CTL_enable && !(s.coh.losses.any fun l => l.lines.contains line)

/-- A request served by its home at once, with the answers of companion agents that the environment gives (R326). None where the home cannot serve it now: no enabled slab, a held range, a busy line, a full directory set of which every entry is busy, a home agent that is off or stopped, or a snoop that cannot be sent. -/
def State.serve (s : State) (env : Env) (r : CohReq) : Option (State × Granted) :=
  match s.homeOf r.line with
  | none => none
  | some q =>
    let victim := if allocates r.op then s.victim q r.line else none
    let (kind, hs) := s.snoopPlan (s.dirEntry q r.line) r.op r.who
    if !s.homeTakes q r.line (writesStack r.op) || (allocates r.op && s.setFull q r.line && victim.isNone) ||
        hs.any (fun h => !s.maySnoop r.line h) || victim.any (fun e => (s.holders e).any fun h => !s.maySnoop e.line h) then none
    else
      let s := s.countLookup q
      let s := match victim with
        | some e => s.evictDir env q e
        | none => s
      let fwd := kind == .fwd && !hs.isEmpty
      let (s, got) := s.snoopAll env.recalls r.line kind hs
      if got.isSome && r.op != .rdCur && s.paWriteHeld (r.line * 64) then none
      else
        let (s, g) := s.finish env.ecc q r got fwd
        some (s.startHold r g, g)

/-- The copies of a line invalidated at its home for a full-row write, which replaces every byte of it (R135, Table CO-5). -/
def State.invalidateLine (s : State) (env : Env) (line : Nat) : Option State :=
  match s.homeOf line with
  | none => none
  | some q =>
    let (kind, hs) := s.snoopPlan (s.dirEntry q line) .wrInv (.agent 15)
    if !s.homeTakes q line true || hs.any fun h => !s.maySnoop line h then none
    else
      let s := s.countLookup q
      some ((s.snoopAll env.recalls line kind hs).1.dropDir q line)

/-- Banks that a line cache allocates in (R158, R319). -/
def State.lcBanks (s : State) (st : Nat) : Nat := (s.lcOwned st).length

/-- The line that must leave a line cache so that a line can enter: the least recently used of a full set of 16 (R319). -/
def State.lcVictim (s : State) (st line : Nat) : Option LcLine :=
  let same := s.lcRow st (s.lcPlace st line)
  if (s.cached st line).isSome || same.length < 16 then none else same.getLast?

/-- Whether a line cannot enter a line cache now: the dirty line that has to leave for it cannot be written (R132, R319). -/
def State.victimHeld (s : State) (st line : Nat) : Bool :=
  match s.lcVictim st line with
  | some v => (v.state == .m || v.state == .o) && s.paWriteHeld (v.line * 64)
  | none => false

/-- Whether a line is dirty in its state. -/
def dirtyState : LineState → Bool
  | .m => true
  | .o => true
  | _ => false

/-- A line evicted from a line cache at once. -/
def State.evictLine (s : State) (ecc : List (Nat × Nat × EccResult)) (st : Nat) (l : LcLine) : State × List Nat :=
  let s := match s.homeOf l.line with
    | some q => s.countLookup q
    | none => s
  let (s, d) := s.dirtyData st l
  (s.dropLine st l.line).takeEviction ecc st l.line d

/-- What an access through a line cache gives: the line's data, status (0 ok, 1 data error, 2 refused by its bank, 3 lost) and mirror ranges to wait for. -/
structure LineRes where
  data : List Byte
  status : Nat
  rebuilt : Bool
  ids : List Nat
deriving DecidableEq, Repr

/-- A line of a line cache read in its bank: corrections are counted, and a double-bit error refuses it (R165). -/
def State.lineEcc (s : State) (env : Env) (st : Nat) (l : LcLine) : State × Bool :=
  let k := 2 * (16 * l.row + l.way)
  let found := (env.banks.filter fun b => b.1 == l.bank && (b.2.1 == k || b.2.1 == k + 1)).map (·.2.2)
  let s := s.countCorrected st found
  if found.any eccFails then (s.bankUncorrectable st (l.bank % 64) 9, false) else (s, true)

/-- A line read through the line cache of a Setting, at once; RdCur where the cache owns no bank (Table CO-1, R319, R324). -/
def State.lcRead (s : State) (env : Env) (st : Fin 32) (line : Nat) : Option (State × LineRes) :=
  match s.lcRefused st line, s.cachedNow st line with
  | some s, _ => some (s, ⟨[], 2, false, []⟩)
  | none, some l =>
    let (s, ok) := s.lineEcc env st l
    some (if ok then (s.putLine st l, ⟨l.data, 0, false, []⟩) else (s, ⟨[], 2, false, []⟩))
  | none, none =>
    if s.lcBanks st = 0 then
      (s.serve env ⟨.setting st, 0, .rdCur, line, 0, []⟩).map fun r => (r.1, ⟨r.2.data.getD [], r.2.status, r.2.rebuilt, r.2.ids⟩)
    else if s.victimHeld st line then none
    else
      match s.serve env ⟨.setting st, 0, .rdShared, line, 0, []⟩ with
      | none => none
      | some (s, g) =>
        let (s, ids) := match (if g.state = .i then none else s.lcVictim st line) with
          | some v => s.evictLine env.ecc st v
          | none => (s, [])
        some (if g.state = .i then s else s.putLine st (s.fillLine st line g.state (g.data.getD [])), ⟨g.data.getD [], g.status, g.rebuilt, g.ids ++ ids⟩)

/-- The mask of bytes from a start on. -/
def byteMask (start n : Nat) : Nat := (2 ^ n - 1) * 2 ^ start

/-- Bytes of a line put in place in 64 bytes. -/
def lineBytes (start : Nat) (d : List Byte) : List Byte := splice (List.replicate 64 0) start d

/-- Bytes of one line written through the line cache of a Setting, at once. A line of an M1 or M2 slab, and any line where the cache owns no bank, is written as WrInv (R319, R324, R419). -/
def State.lcWrite (s : State) (env : Env) (st : Fin 32) (line start : Nat) (d : List Byte) : Option (State × LineRes) :=
  if s.lcBanks st = 0 || s.mirroring (line / 2 ^ 24) false != .no then
    (s.serve env ⟨.setting st, 0, .wrInv, line, byteMask start d.length, lineBytes start d⟩).map fun r =>
      (r.1, ⟨[], r.2.status, r.2.rebuilt, r.2.ids⟩)
  else
    match s.lcRefused st line, s.cachedNow st line with
    | some s, _ => some (s, ⟨[], 2, false, []⟩)
    | none, some l =>
      if l.state = .m || l.state = .e then some (s.putLine st { l with state := .m, data := splice l.data start d }, ⟨[], 0, false, []⟩)
      else
        (s.serve env ⟨.setting st, 0, .upgrade, line, 0, []⟩).map fun r =>
          (if r.2.state = .i then r.1.dropLine st line else r.1.putLine st (r.1.fillLine st line .m (splice (r.2.data.getD l.data) start d)), ⟨[], r.2.status, r.2.rebuilt, r.2.ids⟩)
    | none, none =>
      if s.victimHeld st line then none
      else
      match s.serve env ⟨.setting st, 0, .rdOwn, line, 0, []⟩ with
      | none => none
      | some (s, g) =>
        let (s, ids) := match (if g.state = .i then none else s.lcVictim st line) with
          | some v => s.evictLine env.ecc st v
          | none => (s, [])
        some (if g.state = .i then s else s.putLine st (s.fillLine st line .m (splice (g.data.getD []) start d)), ⟨[], g.status, g.rebuilt, g.ids ++ ids⟩)

/-- The aligned lines that a byte range touches: line, first byte within it, and count. -/
def linePieces (pa n : Nat) : List (Nat × Nat × Nat) :=
  (List.range ((pa + n + 63) / 64 - pa / 64)).map fun i =>
    let l := pa / 64 + i
    let lo := max pa (64 * l)
    (l, lo - 64 * l, min (pa + n) (64 * (l + 1)) - lo)

/-- What a ranged access gives: data, worst status, whether rebuilt, mirror ranges, and the bytes done. -/
structure Moved where
  data : List Byte
  status : Nat
  rebuilt : Bool
  ids : List Nat
  done : Nat
deriving DecidableEq, Repr

/-- How an access reaches the pool (Table CO-1). -/
inductive Via where
  /-- through the line cache of the Setting whose stack holds the line -/
  | lineCache
  /-- through the line cache of one Setting -/
  | settingCache (st : Fin 32)
  /-- at the home, without allocating -/
  | home
  /-- at the stack port, with no lookup -/
  | stack
deriving DecidableEq, Repr

/-- The Setting whose line cache an access uses. -/
def State.viaSetting (s : State) (via : Via) (line : Nat) : Fin 32 :=
  match via with
  | .settingCache st => st
  | _ => Fin.ofNat 32 (((s.mapPA (line * 64)).map (·.1)).getD 0)

/-- One line of a ranged read. -/
def State.readLine (s : State) (env : Env) (via : Via) (line : Nat) : Option (State × LineRes) :=
  match via with
  | .home => (s.serve env ⟨.setting (s.viaSetting via line), 0, .rdCur, line, 0, []⟩).map fun r =>
      (r.1, ⟨r.2.data.getD [], r.2.status, r.2.rebuilt, r.2.ids⟩)
  | .stack =>
    if (s.homeOf line).isNone || s.paHeld (line * 64) then none
    else
      let (s, d, seen) := s.stackLine env.ecc line
      some (s, ⟨d, if seen.lost then 1 else 0, seen.rebuilt, []⟩)
  | _ => s.lcRead env (s.viaSetting via line) line

/-- One line of a ranged write. -/
def State.writeLine (s : State) (env : Env) (via : Via) (line start : Nat) (d : List Byte) : Option (State × LineRes) :=
  match via with
  | .home =>
    (s.serve env ⟨.setting (s.viaSetting via line), 0, .wrInv, line, byteMask start d.length, lineBytes start d⟩).map fun r =>
      (r.1, ⟨[], r.2.status, r.2.rebuilt, r.2.ids⟩)
  | .stack =>
    if (s.homeOf line).isNone || s.paWriteHeld (line * 64) then none
    else
      let (s, seen, ids) := s.writePool env.ecc (line * 64 + start) d false
      some (s, ⟨[], if seen.lost then 1 else 0, seen.rebuilt, ids⟩)
  | _ => s.lcWrite env (s.viaSetting via line) line start d

/-- What port ECC finds after a granule has been rebuilt and written back: an error that the write-back removed is found no more (R126). -/
def State.mended (s : State) (env : Env) (line : Nat) (rebuilt : Bool) : Env :=
  match rebuilt, s.rowAt (line * 64) with
  | true, some (q, r, j) => { env with ecc := env.ecc.filter fun e =>
      !(e.1 == 8 * q + s.physPos q r j && e.2.1 / 4 == r && e.2.2 == .detected) }
  | _, _ => env

/-- A range of pool memory read. None where any of its lines cannot be served now. A line with a data error stops the read there. -/
def State.readVia (s : State) (env : Env) (via : Via) (pa n : Nat) : Option (State × Moved) :=
  ((linePieces pa n).foldl (fun (st : Option (State × Moved × Env)) p =>
    match st with
    | none => none
    | some (s, a, env) =>
      if a.status != 0 then st
      else
        (s.readLine env via p.1).map fun r =>
          (r.1, ⟨a.data ++ slice r.2.data p.2.1 p.2.2, r.2.status, a.rebuilt || r.2.rebuilt, a.ids ++ r.2.ids,
            if r.2.status = 0 then a.done + p.2.2 else a.done⟩, s.mended env p.1 r.2.rebuilt))
    (some (s, ⟨[], 0, false, [], 0⟩, env))).map fun r => (r.1, r.2.1)

/-- The lines of a tile that a full-row write replaces, and those that it does not, with their bytes (R135). -/
def State.tileLines (s : State) (rows : List (Nat × Nat)) (tile : List (Nat × List Byte)) : List (Bool × Nat × Nat × List Byte) :=
  tile.flatMap fun x => (linePieces x.1 x.2.length).map fun p =>
    (s.inRows rows (64 * p.1), p.1, p.2.1, slice x.2 (64 * p.1 + p.2.1 - x.1) p.2.2)

/-- One tile of an operation written: the rows of which it stores every data granule as full-row writes, the rest line by line (R135). None where any line cannot be served now. -/
def State.writeTile (s : State) (env : Env) (via : Via) (tile : List (Nat × List Byte)) : Option (State × Moved) :=
  let rows := if via = .home then s.fullRows env.ecc tile else []
  let lines := s.tileLines rows tile
  let whole := lines.filter fun l => l.1
  match whole.foldl (fun (a : Option State) l => a.bind fun s => s.invalidateLine env l.2.1) (some s) with
  | none => none
  | some s1 =>
    let s2 := s1.storeRows rows tile
    let (s3, ids) := whole.foldl (fun (a : State × List Nat) l =>
      let (s, i) := a.1.captureWrite (64 * l.2.1 + l.2.2.1) l.2.2.2.length false
      (s, a.2 ++ i)) (s2, [])
    ((lines.filter fun l => !l.1).foldl (fun (st : Option (State × Moved × Env)) l =>
      match st with
      | none => none
      | some (s, a, env) =>
        if a.status != 0 then st
        else
          (s.writeLine env via l.2.1 l.2.2.1 l.2.2.2).map fun r =>
            (r.1, ⟨[], r.2.status, a.rebuilt || r.2.rebuilt, a.ids ++ r.2.ids,
              if r.2.status = 0 then a.done + l.2.2.2.length else a.done⟩, s.mended env l.2.1 r.2.rebuilt))
      (some (s3, ⟨[], 0, false, ids, (whole.map fun l => l.2.2.2.length).foldl (· + ·) 0⟩, env))).map fun r => (r.1, r.2.1)

/-- Bytes of the pool as they stand, cached lines of the line caches before the stack: what a read through a line cache would give, without its counts and its errors. -/
def State.glance (s : State) (pa n : Nat) : List Byte :=
  (linePieces pa n).flatMap fun p =>
    let held := (List.range 32).findSome? fun st => (s.cached st p.1).bind fun l => if dirtyState l.state then some l.data else none
    slice (held.getD (s.peekPool (64 * p.1) 64)) p.2.1 p.2.2

/-- Whether the writes to a range wait for the mirror log (R421). -/
def State.rangeMirrorHeld (s : State) (pa n : Nat) : Bool := (slabPieces pa n).any fun p => s.mirrorHeld p.1

end Sys2Proof.Machine
end

