-- ==== Sys2Proof/Machine/CohRows.lean ====
section
/-! DEFINITION. Coherence message by message: requests and answers at a home, snoops and grants at a line cache, the Ilcen link, and the loss or removal of companion agents (R325 to R341). -/

namespace Sys2Proof.Machine

open Sys2Proof

/-- What port ECC finds, as the commands carry it. -/
abbrev EccList := List (Nat × Nat × EccResult)

/-- The Ilcen link enters a state, with its event (Table CO-8, 0x0802). -/
def State.ilcEnter (s : State) (new : Nat) : State :=
  let old := s.ilcState
  let s := s.setFld (Reg.ILC_STATUS 0) Fld.ILC_STATUS_state new
  let s := { s with ilc := { s.ilc with since := s.nt, trained := false } }
  s.raise 0x0802 7 0 [BitVec.ofNat 8 old, BitVec.ofNat 8 new]

/-- A snoop sent: over the mesh to a line cache, over Ilcen to an agent. -/
def State.sendSnoop (s : State) (t : Txn) (h : Nat) : State :=
  if h < 32 then { s with coh := { s.coh with msgs := s.coh.msgs ++ [.snoop h t.req.line t.kind] } }
  else s.snoopAgent (h - 32) t.kind t.req.line (if t.kind = .fwd then whoCode t.req.who - 32 else 0)

/-- An open transaction replaced. -/
def State.setTxn (s : State) (t : Txn) : State :=
  { s with coh := { s.coh with txns := s.coh.txns.map fun x => if x.req.line == t.req.line then t else x } }

/-- The open transaction of a line. -/
def State.txnOf (s : State) (line : Nat) : Option Txn := s.coh.txns.find? fun t => t.req.line == line

/-- The snoops of a transaction that are kept back are sent where they may be. -/
def State.sendHeld (s : State) (line : Nat) : State :=
  match s.txnOf line with
  | none => s
  | some t =>
    t.heldBack.foldl (fun s h =>
      match s.txnOf line with
      | some t =>
        if s.maySnoop line h then
          (s.sendSnoop t h).setTxn { t with heldBack := t.heldBack.erase h, waiting := t.waiting ++ [(h, s.nt)] }
        else s
      | none => s) s

/-- Every snoop that is kept back is sent where it may be. -/
def State.sendAllHeld (s : State) : State :=
  (s.coh.txns.map fun t => t.req.line).foldl State.sendHeld s

/-- A message to the requester of a finished transaction: to a line cache over the mesh, to an agent over Ilcen, held while its write waits for the mirror (Table CO-6, Table PF-3). -/
def State.reply (s : State) (r : CohReq) (g : Granted) : State :=
  match r.who with
  | .setting st => { s with coh := { s.coh with msgs := s.coh.msgs ++ [.reply st r.line g.state g.status g.data] } }
  | .agent a =>
    let m := OutMsg.grant a r.txn r.line g.state g.status g.data
    let s := { s with ilc := { s.ilc with reqCredits := s.ilc.reqCredits.set a (s.ilc.reqCredits.getD a 0 + 1) } }
    if s.mirrorOpen g.ids then { s with coh := { s.coh with heldGrants := s.coh.heldGrants ++ [(g.ids, m)] } }
    else s.emit m

/-- The end of a removal: once no back-invalidation of the agent is left, the agent is off, and a link whose enable is clear goes DOWN (R335, Table CO-8). -/
def State.removalStep (s : State) (a : Nat) : State :=
  let mine (r : CohReq) : Bool := r.op == .removal && whoCode r.who == 32 + a
  if s.agentState a != 2 || s.coh.waiting.any mine || s.coh.txns.any fun t => mine t.req then s
  else
    let s := s.setFld (Reg.ILC_AGENT 0 a) Fld.ILC_AGENT_state 0
    let s := if s.coh.losses.isEmpty && (List.range 8).all fun b => s.agentState b != 2 then
        s.setFld (Reg.ILC_AGENT_CTL 0) Fld.ILC_AGENT_CTL_busy 0 else s
    if s.ilc.closing && s.liveAgents.isEmpty then
      { s with ilc := { s.ilc with closing := false } }.ilcEnter 0
    else s

/-- A transaction whose requester was lost ends without a grant: what its snoops brought is kept (R336). -/
def State.finishDropped (s : State) (ecc : EccList) (q : Nat) (t : Txn) : State :=
  match t.req.op with
  | .rdCur => s
  | .rdShared =>
    let s := match t.got with
      | some d => (s.writePool ecc (t.req.line * 64) d false).1
      | none => s
    match s.dirEntry q t.req.line with
    | some e => s.putDir q (if t.kind = .cln then { e with state := 1 } else { e with fwd := if t.forwarded then none else e.fwd })
    | none => s
  | _ => (s.finish ecc q { t.req with op := .recall } t.got t.forwarded).1

/-- A transaction whose answers are all there ends: the home does what Table CO-5 states and answers. A lost line waits for its event (R338). -/
def State.tryFinish (s : State) (ecc : EccList) (line : Nat) : State :=
  match s.txnOf line, s.homeOf line with
  | some t, some q =>
    if !t.waiting.isEmpty || !t.heldBack.isEmpty || !t.wbWait.isEmpty ||
        s.coh.losses.any fun l => l.lines.contains line then s
    else
      let s := { s with coh := { s.coh with txns := s.coh.txns.erase t } }
      if t.dropped then s.finishDropped ecc q t
      else
        let (s, g) := s.finish ecc q t.req t.got t.forwarded
        let key := [whoCode t.req.who, t.req.txn]
        let lost := s.coh.lossWaits.contains (line, key)
        let s := { s with coh := { s.coh with lossWaits := s.coh.lossWaits.erase (line, key) } }
        let g := if lost && g.data.isSome then { g with status := 3 } else g
        match t.req.op with
        | .backInv => s.countSat (Reg.COH_CNT q) Fld.COH_CNT_back_inv 1
        | .removal => s.removalStep (whoCode t.req.who - 32)
        | .recall => s
        | .flush => s
        | _ => (s.reply t.req g).startHold t.req g
  | _, _ => s

/-- A transaction opened with its snoops (R327). -/
def State.openTxn (s : State) (ecc : EccList) (q : Nat) (r : CohReq) : State :=
  let (kind, hs) := s.snoopPlan (s.dirEntry q r.line) r.op r.who
  let t : Txn := { req := r, kind := kind, waiting := [], heldBack := hs, got := none, forwarded := false, wbWait := [], evicted := [], dropped := false }
  let s := { s with coh := { s.coh with txns := s.coh.txns ++ [t] } }
  (s.sendHeld r.line).tryFinish ecc r.line

/-- Whether a home can start a transaction for a line now, one that writes the stack or not (R132, R327, R338, R472). -/
def State.homeReady (s : State) (q line : Nat) (writes : Bool) : Bool :=
  !s.workStopped && s.on (Reg.COH_CTL q) Fld.COH_CTL_enable && !s.lineBusy line &&
  !(if writes then s.paWriteHeld (line * 64) else s.paHeld (line * 64)) &&
  decide ((s.coh.txns.filter fun t => s.homeOf t.req.line == some q).length < 512) &&
  !(s.coh.losses.any fun l => l.lines.contains line)

/-- A request put at the end of those that wait at their homes. -/
def State.waitHome (s : State) (r : CohReq) : State := { s with coh := { s.coh with waiting := s.coh.waiting ++ [r] } }

/-- An eviction done: the stack and the directory, and its Cmp (R326, Table CO-7). -/
def State.doneEvict (s : State) (r : CohReq) (ids : List Nat) : State :=
  match r.who with
  | .setting st => { s with coh := { s.coh with msgs := s.coh.msgs ++ [.evictDone st r.line] } }
  | .agent _ => s.reply r ⟨.i, none, 0, false, ids⟩

/-- A request starts at its home: an eviction is carried out, a request that finds no way in a full set starts the eviction of an entry and waits, and any other opens a transaction (R323, R326, R327). -/
def State.beginHome (s : State) (ecc : EccList) (q : Nat) (r : CohReq) : State :=
  let s := s.countLookup q
  match r.op with
  | .evictDirty =>
    let (s, ids) := s.takeEviction ecc (whoCode r.who) r.line (some r.data)
    s.doneEvict r ids
  | .evictClean =>
    let (s, ids) := s.takeEviction ecc (whoCode r.who) r.line none
    s.doneEvict r ids
  | _ =>
    if allocates r.op && s.setFull q r.line then
      let s := s.waitHome r
      match s.victim q r.line with
      | some e => s.openTxn ecc q ⟨.agent 15, 0, .backInv, e.line, 0, []⟩
      | none => s
    else s.openTxn ecc q r

/-- A request reaches its home: it starts, or waits in arrival order (R327). One for a line of a slab that is not enabled is counted; it gets no data, and an eviction is dropped (R132). -/
def State.reachHome (s : State) (ecc : EccList) (r : CohReq) : State :=
  match s.homeOf r.line with
  | none =>
    let s := s.slabViolation (r.line * 64)
    if r.op == .evictDirty || r.op == .evictClean then s.doneEvict r [] else s.reply r ⟨.i, none, 2, false, []⟩
  | some q =>
    if s.homeReady q r.line (writesStack r.op) && !s.coh.waiting.any fun w => w.line == r.line then s.beginHome ecc q r
    else s.waitHome r

/-- An Ilcen request that the NP32 refuses (R320, R334, Table SE-7). -/
def State.refuseIlcen (s : State) (a txn line : Nat) : State :=
  (s.countSat (Reg.ILC_CNT 0) Fld.ILC_CNT_refused 1).emit (.grant a txn line .i 2 none)

/-- Whether an agent code may make a request of an operation: 0 to 7 while active, 15 the non-caching ones (Table CO-6, R334). -/
def State.agentMay (s : State) (a : Nat) (op : HomeOp) : Bool :=
  if a = 15 then op == .rdCur || op == .wrInv
  else decide (a < 8) && (s.agentState a == 1 || (s.agentState a == 2 && (op == .evictDirty || op == .evictClean)))

/-- A message of an agent reaches the NP32: nothing while the link is not ACTIVE, and discarded from a lost agent (R336). The Boolean says that it goes on. -/
def State.fromAgent (s : State) (a : Nat) : State × Bool :=
  if !s.ilcActive then (s, false)
  else if a < 8 && s.agentState a == 3 then (s.countSat (Reg.ILC_CNT 0) Fld.ILC_CNT_discarded 1, false)
  else (s, true)

/-- One REQ credit of an agent used (R332). -/
def State.useCredit (s : State) (a : Nat) : State :=
  { s with ilc := { s.ilc with reqCredits := s.ilc.reqCredits.set a (s.ilc.reqCredits.getD a 0 - 1) } }

/-- A request of a companion agent: refused, or taken to its home. -/
def State.agentRequest (s : State) (ecc : EccList) (a : Nat) (r : CohReq) : State :=
  let (s, go) := s.fromAgent a
  if !go then s
  else if !s.agentMay a r.op then s.refuseIlcen a r.txn r.line
  else if (s.homeOf r.line).isNone then (s.slabViolation (r.line * 64)).refuseIlcen a r.txn r.line
  else if s.tenantSlab (r.line / 2 ^ 24) then s.refuseIlcen a r.txn r.line
  else (s.useCredit a).reachHome ecc r

/-- A request at its home: of a line cache, taken from the mesh; or of an agent, taken from Ilcen. -/
def homeRequest (ecc : EccList) (r : CohReq) (s : State) : State :=
  match r.who with
  | .agent a => s.agentRequest ecc a r
  | .setting _ =>
    if s.workStopped then s
    else
      match s.coh.msgs.find? fun m => match m with
        | .req x => x.who == r.who && x.op == r.op && x.line == r.line
        | _ => false with
      | some m =>
        let s := { s with coh := { s.coh with msgs := s.coh.msgs.erase m } }
        match m with
        | .req x => s.reachHome ecc x
        | _ => s
      | none => s

def execRdShared (who : Who) (txn line : Nat) (ecc : EccList) (s : State) : Result :=
  .next (homeRequest ecc ⟨who, txn, .rdShared, line, 0, []⟩ s)

def execRdOwn (who : Who) (txn line : Nat) (ecc : EccList) (s : State) : Result :=
  .next (homeRequest ecc ⟨who, txn, .rdOwn, line, 0, []⟩ s)

def execUpgrade (who : Who) (txn line : Nat) (ecc : EccList) (s : State) : Result :=
  .next (homeRequest ecc ⟨who, txn, .upgrade, line, 0, []⟩ s)

def execRdCur (who : Who) (txn line : Nat) (ecc : EccList) (s : State) : Result :=
  .next (homeRequest ecc ⟨who, txn, .rdCur, line, 0, []⟩ s)

/-- WR_INV carries a byte mask and 64 bytes (R328). -/
def execWrInv (who : Who) (txn line mask : Nat) (data : List Byte) (ecc : EccList) (s : State) : Result :=
  .next (homeRequest ecc ⟨who, txn, .wrInv, line, mask % 2 ^ 64, padTo 64 data⟩ s)

/-- The event number of the next loss event: the events completed and those in progress. -/
def State.nextLoss (s : State) : Nat :=
  (s.fld (Reg.COH_LLL_STATUS 0) Fld.COH_LLL_STATUS_events + s.coh.losses.length) % 2 ^ 16

/-- A line whose dirty data came with a data error is a lost line of an event of its own (Table CO-7). -/
def State.loseLine (s : State) (a line : Nat) : State :=
  let s := s.setFld (Reg.ILC_AGENT_CTL 0) Fld.ILC_AGENT_CTL_busy 1
  { s with coh := { s.coh with losses := s.coh.losses ++ [⟨[], s.nextLoss, s.nt, [line], [a], false, 0, 0⟩] } }

/-- An eviction at its home: taken as the snoop data by an open transaction that waits for its holder (Table CO-7), else carried out as a request. -/
def State.evictionAtHome (s : State) (ecc : EccList) (r : CohReq) (dataErr : Bool) : State :=
  let h := whoCode r.who
  let lose (s : State) : State := match r.who with
    | .agent a => if dataErr then s.loseLine a r.line else s
    | .setting _ => s
  match s.txnOf r.line with
  | some t =>
    let snooped := t.waiting.any (·.1 == h)
    if snooped || t.heldBack.contains h || t.wbWait.contains h then
      let t := { t with
        got := if r.op = .evictDirty && !dataErr then some r.data else t.got
        heldBack := t.heldBack.erase h
        wbWait := t.wbWait.erase h
        evicted := if snooped then h :: t.evicted else t.evicted }
      ((lose (s.setTxn t)).doneEvict r []).tryFinish ecc r.line
    else s.waitHome r
  | none => (lose s).reachHome ecc (if dataErr then { r with op := .evictClean } else r)

/-- An eviction message reaches its home. -/
def evictMessage (ecc : EccList) (r : CohReq) (dataErr : Bool) (s : State) : State :=
  match r.who with
  | .agent a =>
    let (s, go) := s.fromAgent a
    if !go then s
    else if !s.agentMay a r.op then s.refuseIlcen a r.txn r.line
    else if (s.homeOf r.line).isNone then (s.slabViolation (r.line * 64)).refuseIlcen a r.txn r.line
    else if s.tenantSlab (r.line / 2 ^ 24) then s.refuseIlcen a r.txn r.line
    else (s.useCredit a).evictionAtHome ecc r dataErr
  | .setting st =>
    if s.workStopped then s
    else
      match s.coh.msgs.find? fun m => match m with
        | .evict st' l d => st' == st.val && l == r.line && d.isSome == (r.op == .evictDirty)
        | _ => false with
      | some m =>
        let s := { s with coh := { s.coh with msgs := s.coh.msgs.erase m } }
        match m with
        | .evict _ _ d => s.evictionAtHome ecc { r with data := d.getD [] } false
        | _ => s
      | none => s

/-- EVICT_DIRTY. The data of a line cache is that of its message on the mesh. -/
def execEvictDirty (who : Who) (txn line : Nat) (dataErr : Bool) (data : List Byte) (ecc : EccList) (s : State) : Result :=
  .next (evictMessage ecc ⟨who, txn, .evictDirty, line, 0, padTo 64 data⟩ dataErr s)

def execEvictClean (who : Who) (txn line : Nat) (ecc : EccList) (s : State) : Result :=
  .next (evictMessage ecc ⟨who, txn, .evictClean, line, 0, []⟩ false s)

/-- HOME_TRANSACTION_START: the oldest request that waits for a line starts (R327). -/
def homeTransactionStartEff (line : Nat) (ecc : EccList) (s : State) : State :=
  match s.homeOf line, s.coh.waiting.find? fun r => r.line == line with
  | some q, some r =>
    if s.homeReady q line (writesStack r.op) then
      ({ s with coh := { s.coh with waiting := s.coh.waiting.erase r } }).beginHome ecc q r
    else s
  | _, _ => s

def execHomeTransactionStart (line : Nat) (ecc : EccList) (s : State) : Result := .next (homeTransactionStartEff line ecc s)

/-- A snoop at the line cache of a Setting: answered from its present state (Table CO-4). -/
def snoopAt (st : Setting) (line : Nat) (kind : SnoopKind) (s : State) : State :=
  if s.workStopped || !s.coh.msgs.contains (.snoop st line kind) then s
  else
    let (s, a) := s.lcSnoop st line kind
    { s with coh := { s.coh with msgs := s.coh.msgs.erase (.snoop st line kind) ++ [.answer st line a] } }

def execSnpCur (st : Setting) (line : Nat) (s : State) : Result := .next (snoopAt st line .cur s)
def execSnpShr (st : Setting) (line : Nat) (s : State) : Result := .next (snoopAt st line .shr s)
def execSnpCln (st : Setting) (line : Nat) (s : State) : Result := .next (snoopAt st line .cln s)
def execSnpInv (st : Setting) (line : Nat) (s : State) : Result := .next (snoopAt st line .inv s)
def execSnpFwd (st : Setting) (line : Nat) (s : State) : Result := .next (snoopAt st line .fwd s)
def execSnpWb (st : Setting) (line : Nat) (s : State) : Result := .next (snoopAt st line .wb s)
def execBackInv (st : Setting) (line : Nat) (s : State) : Result := .next (snoopAt st line .backInv s)

/-- A holder's answer taken into the open transaction of its line (Table CO-4, Table CO-7). -/
def State.answered (s : State) (ecc : EccList) (h line : Nat) (a : Answer) : State :=
  match s.txnOf line with
  | none => s
  | some t =>
    if !t.waiting.any (·.1 == h) then s
    else
      let t := { t with waiting := t.waiting.filter (·.1 != h) }
      let t := match a with
        | .rspI wb => if wb && !t.evicted.contains h then { t with wbWait := h :: t.wbWait } else t
        | .rspFwd => { t with forwarded := true }
        | .data _ d => { t with got := some d }
        | _ => t
      ((s.setTxn t).tryFinish ecc line).sendAllHeld

/-- An answer reaches the home: of an agent over Ilcen, or of a line cache over the mesh, where `sort` says whether its message is of the command's kind. -/
def answerMessage (ecc : EccList) (who : Who) (line : Nat) (a : Answer) (sort : Answer → Bool) (s : State) : State :=
  match who with
  | .agent ag =>
    let (s, go) := s.fromAgent ag
    if go then s.answered ecc (32 + ag) line a else s
  | .setting st =>
    if s.workStopped then s
    else
      match s.coh.msgs.find? fun m => match m with
        | .answer st' l x => st' == st.val && l == line && sort x
        | _ => false with
      | some m =>
        let s := { s with coh := { s.coh with msgs := s.coh.msgs.erase m } }
        match m with
        | .answer _ _ x => s.answered ecc st line x
        | _ => s
      | none => s

def execRspI (who : Who) (line : Nat) (wbPending : Bool) (ecc : EccList) (s : State) : Result :=
  .next (answerMessage ecc who line (.rspI wbPending) (· == .rspI wbPending) s)

def execRspS (who : Who) (line : Nat) (ecc : EccList) (s : State) : Result :=
  .next (answerMessage ecc who line .rspS (· == .rspS) s)

def execRspE (who : Who) (line : Nat) (ecc : EccList) (s : State) : Result :=
  .next (answerMessage ecc who line .rspE (· == .rspE) s)

def execRspFwd (who : Who) (line : Nat) (ecc : EccList) (s : State) : Result :=
  .next (answerMessage ecc who line .rspFwd (· == .rspFwd) s)

/-- Whether an answer carries data. -/
def Answer.hasData : Answer → Bool
  | .data _ _ => true
  | _ => false

/-- DATA_WB: dirty data reaches the home. With a data error the stack keeps its copy, and the line is a lost line (Table CO-7). -/
def dataWbEff (who : Who) (line : Nat) (dataErr : Bool) (data : List Byte) (ecc : EccList) (s : State) : State :=
  match who, dataErr with
  | .agent a, true =>
    let (s, go) := s.fromAgent a
    if go then (s.loseLine a line).answered ecc (32 + a) line (.rspI false) else s
  | _, _ => answerMessage ecc who line (.data .i (padTo 64 data)) Answer.hasData s

def execDataWb (who : Who) (line : Nat) (dataErr : Bool) (data : List Byte) (ecc : EccList) (s : State) : Result :=
  .next (dataWbEff who line dataErr data ecc s)

/-- A line leaves a line cache, announced with EvictDirty or EvictClean (R324). -/
def State.announce (s : State) (st : Nat) (l : LcLine) : State :=
  let (s, d) := s.dirtyData st l
  let s := s.dropLine st l.line
  { s with coh := { s.coh with msgs := s.coh.msgs ++ [.evict st l.line d] } }

/-- A line enters a line cache, and the least recently used line of a full set leaves (R319). -/
def State.install (s : State) (st line : Nat) (state : LineState) (data : List Byte) : State :=
  let s := match s.lcVictim st line with
    | some v => s.announce st v
    | none => s
  s.putLine st (s.fillLine st line state data)

/-- A request of a line cache sent to its home, with the access that waits for it. -/
def State.sendMiss (s : State) (m : Miss) (r : CohReq) : State :=
  { s with coh := { s.coh with misses := s.coh.misses ++ [m], msgs := s.coh.msgs ++ [.req r] } }

/-- An access at a line cache (Table CO-3): a hit is served, a miss or an Upgrade sends a request, and an access to a line with a request outstanding waits behind it. A cache that owns no bank, and a write to a mirrored slab, takes RdCur or WrInv (R319, R419). -/
def State.lineAccess (s : State) (m : Miss) : State :=
  let who : Who := .setting (Fin.ofNat 32 m.st)
  if s.coh.misses.any fun x => x.st == m.st && x.line == m.line then
    { s with coh := { s.coh with misses := s.coh.misses ++ [m] } }
  else
    match s.lcRefused m.st m.line with
    | some s => s
    | none =>
    match m.op with
    | .read =>
      match s.cachedNow m.st m.line with
      | some l =>
        let s := s.putLine m.st l
        { s with coh := { s.coh with delivered := l.data } }
      | none => s.sendMiss m ⟨who, 0, if s.lcBanks m.st = 0 then .rdCur else .rdShared, m.line, 0, []⟩
    | .write start d =>
      if s.lcBanks m.st = 0 || s.mirroring (m.line / 2 ^ 24) false != .no then
        s.sendMiss m ⟨who, 0, .wrInv, m.line, byteMask start (min d.length (64 - start)), lineBytes start d⟩
      else
        match s.cachedNow m.st m.line with
        | some l =>
          if l.state = .m || l.state = .e then s.putLine m.st { l with state := .m, data := splice l.data start d }
          else s.sendMiss m ⟨who, 0, .upgrade, m.line, 0, []⟩
        | none => s.sendMiss m ⟨who, 0, .rdOwn, m.line, 0, []⟩

def lineCacheAccessEff (st : Setting) (line : Nat) (op : LineOp) (s : State) : State :=
  if s.workStopped then s else s.lineAccess ⟨st, line, op⟩

def execLineCacheAccess (st : Setting) (line : Nat) (op : LineOp) (s : State) : Result :=
  .next (lineCacheAccessEff st line op s)

/-- LINE_CACHE_EVICTION: a line is replaced and announced (R324). -/
def lineCacheEvictionEff (st : Setting) (line : Nat) (s : State) : State :=
  if s.workStopped then s
  else
    match s.cached st line with
    | some l => s.announce st l
    | none => s

def execLineCacheEviction (st : Setting) (line : Nat) (s : State) : Result := .next (lineCacheEvictionEff st line s)

/-- The oldest access that waits for a line is completed by what the home sent, and those behind it are made again. -/
def State.completeMiss (s : State) (st line : Nat) (state : LineState) (d : Option (List Byte)) : State :=
  let mine := s.coh.misses.filter fun x => x.st == st && x.line == line
  let s := { s with coh := { s.coh with misses := s.coh.misses.filter fun x => !(x.st == st && x.line == line) } }
  match mine with
  | [] => s
  | m :: rest =>
    let s := match m.op with
      | .read =>
        let s := { s with coh := { s.coh with delivered := d.getD [] } }
        if state = .i then s else s.install st line state (d.getD [])
      | .write start w =>
        if state = .i then s
        else
          let old := match d, s.cached st line with
            | some x, _ => x
            | none, some l => l.data
            | none, none => List.replicate 64 0
          s.install st line .m (splice old start w)
    rest.foldl State.lineAccess s

/-- DATA: the line and its granted state reach the requesting line cache. -/
def dataEff (st : Setting) (line : Nat) (s : State) : State :=
  if s.workStopped then s
  else
    match s.coh.msgs.find? fun m => match m with
      | .reply st' l _ _ d => st' == st.val && l == line && d.isSome
      | _ => false with
    | some m =>
      let s := { s with coh := { s.coh with msgs := s.coh.msgs.erase m } }
      match m with
      | .reply _ _ g _ d => s.completeMiss st line g d
      | _ => s
    | none => s

def execData (st : Setting) (line : Nat) (s : State) : Result := .next (dataEff st line s)

/-- CMP: an Upgrade, a WrInv or an eviction of a line cache is complete. -/
def cmpEff (st : Setting) (line : Nat) (s : State) : State :=
  if s.workStopped then s
  else
    match s.coh.msgs.find? fun m => match m with
      | .reply st' l _ _ d => st' == st.val && l == line && d.isNone
      | .evictDone st' l => st' == st.val && l == line
      | _ => false with
    | some m =>
      let s := { s with coh := { s.coh with msgs := s.coh.msgs.erase m } }
      match m with
      | .reply _ _ g _ _ => s.completeMiss st line g none
      | _ => s
    | none => s

def execCmp (st : Setting) (line : Nat) (s : State) : Result := .next (cmpEff st line s)

/-- NP8_HOLD_EXPIRY: 64 CORE cycles of the home's quadrant after a grant, 37.6 ns at full rate and 75.3 ns stretched, the snoop held back for its holder is sent (R331). -/
def np8HoldExpiryEff (line : Nat) (s : State) : State :=
  let ns := if (s.homeOf line).any s.halfRate then 76 else 38
  if s.coh.holds.any fun x => x.1 == line && decide (x.2.2 + ns ≤ s.nt) then
    ({ s with coh := { s.coh with holds := s.coh.holds.filter fun x => x.1 != line } }).sendHeld line
  else s

def execNp8HoldExpiry (line : Nat) (s : State) : Result := .next (np8HoldExpiryEff line s)

/-- Whether a message is to one of these agents. -/
def toAgent (agents : List Nat) : OutMsg → Bool
  | .snoop a _ _ _ => agents.contains a
  | .grant a _ _ _ _ _ => agents.contains a
  | _ => false

/-- Agents are declared lost in one event (R335, R336): their requests are dropped, every snoop that waits for them counts as answered RspI, and the lines they own are the event's lost lines. -/
def State.declareLost (s : State) (ecc : EccList) (agents : List Nat) : State :=
  let agents := agents.filter fun a => s.agentState a == 1 || s.agentState a == 2
  if agents.isEmpty then s
  else
    let gone (h : Nat) : Bool := decide (32 ≤ h) && agents.contains (h - 32)
    let owned := ((List.range 4).flatMap fun q => s.coh.dir.getD q []).filterMap fun e =>
      match e.owner with
      | some h => if e.state == 4 && gone h then some (e.line, h - 32) else none
      | none => none
    let event := s.nextLoss
    let s := agents.foldl (fun (s : State) a =>
      let s := s.setFld (Reg.ILC_AGENT 0 a) Fld.ILC_AGENT_state 3
      let s := s.setFld (Reg.ILC_STATUS 0) Fld.ILC_STATUS_lost (s.fld (Reg.ILC_STATUS 0) Fld.ILC_STATUS_lost ||| 2 ^ a)
      s.observe 7 0 0x0C3 1 noWork ([BitVec.ofNat 8 a, 0] ++ leBytes 2 event)) s
    let s := s.setFld (Reg.ILC_AGENT_CTL 0) Fld.ILC_AGENT_CTL_busy 1
    let its (r : CohReq) : Bool := gone (whoCode r.who)
    let s : State := { s with ilc := { s.ilc with held := s.ilc.held.filter fun m => !toAgent agents m }, coh := { s.coh with
      heldGrants := s.coh.heldGrants.filter fun x => !toAgent agents x.2
      waiting := s.coh.waiting.filter fun r => !its r
      txns := (s.coh.txns.filter fun (t : Txn) => !(t.req.op == .removal && its t.req)).map fun (t : Txn) =>
        { t with waiting := t.waiting.filter fun w => !gone w.1, heldBack := t.heldBack.filter fun h => !gone h
                 wbWait := t.wbWait.filter fun h => !gone h, dropped := t.dropped || its t.req }
      losses := s.coh.losses ++ [⟨agents, event, s.nt, owned.map (·.1), owned.map (·.2), false, 0, 0⟩] } }
    ((s.coh.txns.map fun (t : Txn) => t.req.line).foldl (fun (s : State) l => s.tryFinish ecc l) s).sendAllHeld

/-- A removal starts: a BackInv for every line the agent may hold (R335). -/
def State.startRemoval (s : State) (a : Nat) : State :=
  if s.agentState a != 1 then s
  else
    let s := s.setFld (Reg.ILC_AGENT 0 a) Fld.ILC_AGENT_state 2
    let s := s.setFld (Reg.ILC_AGENT_CTL 0) Fld.ILC_AGENT_CTL_busy 1
    let lines := ((List.range 4).flatMap fun q => s.coh.dir.getD q []).filterMap fun e =>
      if (s.holders e).contains (32 + a) then some e.line else none
    (lines.foldl (fun s l => s.reachHome [] ⟨.agent (Fin.ofNat 16 a), 0, .removal, l, 0, []⟩) s).removalStep a

/-- A commit changes ILC_AGENT.enable (R334, R335). A lost agent leaves its state only when its enable, cleared before, is set again. -/
def State.enableAgent (s : State) (a : Nat) (on : Bool) : State :=
  let st := s.agentState a
  if on then
    if (st = 0 || st = 3) && s.ilcActive && (s.fld (Reg.ILC_STATUS 0) Fld.ILC_STATUS_present).testBit a then
      s.setFld (Reg.ILC_AGENT 0 a) Fld.ILC_AGENT_state 1
    else if st = 3 then s.setFld (Reg.ILC_AGENT 0 a) Fld.ILC_AGENT_state 0
    else s
  else s.startRemoval a

/-- The Ilcen link goes DOWN, and every enabled agent is lost in one event (R335). -/
def State.ilcDown (s : State) : State := (s.ilcEnter 0).declareLost [] (List.range 8)

/-- A commit changes ILC_CTL.enable (Table CO-8); before start-up step 10 the link waits. The removals of the same commit have started before. -/
def State.enableIlcen (s : State) (on : Bool) : State :=
  if on then (if s.ilcState = 0 && !s.boot.idle && 9 ≤ s.doneStep then s.ilcEnter 1 else s)
  else if s.ilcState = 0 then s
  else if s.ilcActive && !s.liveAgents.isEmpty then { s with ilc := { s.ilc with closing := true } }
  else s.ilcDown

/-- A retrain that failed: the third within 1 s takes the link DOWN (Table CO-8). DEDUCED: ILC_STATUS.retrains counts every retrain begun, this one's successor too (assumption 91). -/
def State.ilcFailedRetrain (s : State) : State :=
  let fails := (s.ilc.fails.filter fun t => decide (s.nt < t + 1000000000)) ++ [s.nt]
  if 3 ≤ fails.length then { s with ilc := { s.ilc with fails := [] } }.ilcDown
  else
    let s := ({ s with ilc := { s.ilc with fails := fails } } : State).countSat (Reg.ILC_STATUS 0) Fld.ILC_STATUS_retrains 1
    if s.ilcState = 4 then { s with ilc := { s.ilc with since := s.nt, trained := false } }
    else s.ilcEnter 4

/-- What a flit acknowledges, and the replay that a NAK asks for from its flit number on (R332). -/
def State.acknowledge (s : State) (f : IlcFlit) : State :=
  let rest := s.ilc.sent.dropWhile fun x => x.1 != f.ack
  if rest.isEmpty then s
  else if f.nak then { s with ilc := { s.ilc with sent := rest }, out := s.out ++ rest.map (·.2) }
  else State.flushIlcen { s with ilc := { s.ilc with sent := rest.drop 1 } }

/-- ILCEN_FLIT: accepted in sequence, or answered with a NAK on a CRC failure (R332). An accepted flit acknowledges or asks for a replay, and returns credits. -/
def ilcenFlitEff (f : IlcFlit) (s : State) : State :=
  if !s.ilcActive then s
  else if f.bad then
    let ms := s.nt / 1000000
    let s := s.countWrap (Reg.ILC_CNT 0) Fld.ILC_CNT_crc_errors 1
    let s := { s with ilc := { s.ilc with errMs := ms, errs := if s.ilc.errMs = ms then s.ilc.errs + 1 else 1 } }
    s.emit (.ilcNak s.ilc.expect)
  else if f.seq != s.ilc.expect then s
  else
    let a := f.agent.val
    { s with ilc := { s.ilc with
        expect := (s.ilc.expect + 1) % 4096
        acked := f.ack % 4096
        snpCredits := s.ilc.snpCredits.set a (s.ilc.snpCredits.getD a 0 + f.snpCredits) } }.acknowledge f |>.sendAllHeld

def execIlcenFlit (f : IlcFlit) (s : State) : Result := .next (ilcenFlitEff f s)

/-- ILCEN_CRC_LIMIT: more CRC failures in the present ms than crc_limit (Table CO-8). DESIGN CHOICE: the ms are those of NT, from multiple to multiple (assumption 95). -/
def ilcenCrcLimitEff (s : State) : State :=
  if s.ilcActive && s.ilc.errMs == s.nt / 1000000 && decide (s.fld (Reg.ILC_CTL 0) Fld.ILC_CTL_crc_limit < s.ilc.errs) then
    (s.countSat (Reg.ILC_STATUS 0) Fld.ILC_STATUS_retrains 1).ilcEnter 4
  else s

def execIlcenCrcLimit (s : State) : Result := .next (ilcenCrcLimitEff s)

/-- Whether both Hello flits agree in version and NP8 mode (R333). -/
def State.helloAgrees (s : State) (h : IlcHello) : Bool :=
  h.version == 1 && h.np8 == s.on (Reg.ILC_CTL 0) Fld.ILC_CTL_np8_compat

/-- What the Hello flit says of an agent. -/
def helloAgent (h : IlcHello) (a : Nat) : HelloAgent := h.agents.getD a ⟨false, 0, 0⟩

/-- The Ilcen link becomes ACTIVE from PARAM: credits are loaded, and the enabled agents of the Hello become active (Table CO-8). -/
def State.ilcLoad (s : State) (h : IlcHello) : State :=
  let present := (List.range 8).foldl (fun n a => if (helloAgent h a).present then n + 2 ^ a else n) 0
  let s := s.setFld (Reg.ILC_STATUS 0) Fld.ILC_STATUS_present present
  let s := (List.range 8).foldl (fun (s : State) a =>
    let x := helloAgent h a
    let s := s.setFld (Reg.ILC_AGENT 0 a) Fld.ILC_AGENT_tracker (if x.present then x.tracker else 0)
    let s := s.setFld (Reg.ILC_AGENT 0 a) Fld.ILC_AGENT_snp_buf (if x.present then x.snpBuf else 0)
    if x.present && s.on (Reg.ILC_AGENT 0 a) Fld.ILC_AGENT_enable && s.agentState a == 0 then
      s.setFld (Reg.ILC_AGENT 0 a) Fld.ILC_AGENT_state 1
    else s) s
  { s with ilc := { s.ilc with
      peer := some h, expect := 0, acked := 0, fails := [], next := 0, sent := []
      reqCredits := List.replicate 16 64
      snpCredits := (List.range 8).map fun a => (helloAgent h a).snpBuf } }

/-- ILCEN_HELLO (Table CO-8). From RETRAIN the flits not acknowledged are replayed. -/
def ilcenHelloEff (h : IlcHello) (s : State) : State :=
  if s.ilcState = 2 then
    if s.helloAgrees h then ((s.ilcLoad h).ilcEnter 3).flushIlcen.sendAllHeld else s.ilcFailedRetrain
  else if s.ilcState = 4 && s.ilc.trained then
    if s.helloAgrees h then
      let pause := s.nt - s.ilc.since
      let s : State := { s with coh := { s.coh with txns := s.coh.txns.map fun (t : Txn) =>
        { t with waiting := t.waiting.map fun w => (w.1, if w.1 < 32 then w.2 else w.2 + pause) } } }
      let s := s.ilcEnter 3
      ({ s with out := s.out ++ s.ilc.sent.map (·.2) } : State).flushIlcen.sendAllHeld
    else s.ilcFailedRetrain
  else s

def execIlcenHello (h : IlcHello) (s : State) : Result := .next (ilcenHelloEff h s)

/-- ILCEN_TRAINED: from TRAINING the link enters PARAM and sends its Hello; in RETRAIN the Hello is sent again (Table CO-8). -/
def ilcenTrainedEff (s : State) : State :=
  let hello (s : State) : State := s.emit (.ilcHello (s.on (Reg.ILC_CTL 0) Fld.ILC_CTL_np8_compat))
  if s.ilcState = 1 then hello (s.ilcEnter 2)
  else if s.ilcState = 4 && !s.ilc.trained then hello { s with ilc := { s.ilc with trained := true } }
  else s

def execIlcenTrained (s : State) : Result := .next (ilcenTrainedEff s)

/-- ILCEN_TRAINING_TIMEOUT: not trained in 50 ms (Table CO-8). -/
def ilcenTrainingTimeoutEff (s : State) : State :=
  if s.nt < s.ilc.since + 50000000 then s
  else if s.ilcState = 1 then s.ilcDown
  else if s.ilcState = 4 && !s.ilc.trained then s.ilcFailedRetrain
  else s

def execIlcenTrainingTimeout (s : State) : Result := .next (ilcenTrainingTimeoutEff s)

/-- ILCEN_RETRY: 100 ms after DOWN with the enable set (Table CO-8). -/
def ilcenRetryEff (s : State) : State :=
  if s.ilcState = 0 && s.on (Reg.ILC_CTL 0) Fld.ILC_CTL_enable && decide (s.ilc.since + 100000000 ≤ s.nt) && !s.boot.idle && decide (9 ≤ s.doneStep) then
    s.ilcEnter 1
  else s

def execIlcenRetry (s : State) : Result := .next (ilcenRetryEff s)

/-- ILCEN_PARAM_TIMEOUT: no Hello within 1 ms (Table CO-8). -/
def ilcenParamTimeoutEff (s : State) : State :=
  if s.nt < s.ilc.since + 1000000 then s
  else if s.ilcState = 2 then s.ilcFailedRetrain
  else if s.ilcState = 4 && s.ilc.trained then s.ilcFailedRetrain
  else s

def execIlcenParamTimeout (s : State) : Result := .next (ilcenParamTimeoutEff s)

/-- SNOOP_TIMEOUT: a snoop to an agent has been unanswered for snoop_timeout_us of ACTIVE link time (R335). -/
def snoopTimeoutEff (agent : Fin 8) (ecc : EccList) (s : State) : State :=
  let us := s.fld (Reg.ILC_CTL 0) Fld.ILC_CTL_snoop_timeout_us
  if s.ilcActive && s.coh.txns.any fun t => t.waiting.any fun w => w.1 == 32 + agent.val && decide (w.2 + us * 1000 ≤ s.nt) then
    let s := s.declareLost ecc [agent]
    if s.ilc.closing && s.liveAgents.isEmpty then { s with ilc := { s.ilc with closing := false } }.ilcEnter 0 else s
  else s

def execSnoopTimeout (agent : Fin 8) (ecc : EccList) (s : State) : Result := .next (snoopTimeoutEff agent ecc s)

/-- A write of ILC_AGENT_CTL: remove and lose (R335); ignored and logged while busy. -/
def agentCtlWrite (path : Path) (value : Word) (s : State) : State :=
  let off := Reg.ILC_AGENT_CTL 0
  if s.on off Fld.ILC_AGENT_CTL_busy then s.logViol path 4 off
  else
    let s := s.writeFields path off value
    let a := getF value Fld.ILC_AGENT_CTL_agent
    let s := if getF value Fld.ILC_AGENT_CTL_remove = 1 then s.startRemoval a else s
    if getF value Fld.ILC_AGENT_CTL_lose = 1 then s.declareLost [] [a] else s

def execAgentRemove (path : Path) (value : Word) (s : State) : Result :=
  .next (agentCtlWrite path (setF value Fld.ILC_AGENT_CTL_remove 1) s)

def execAgentLose (path : Path) (value : Word) (s : State) : Result :=
  .next (agentCtlWrite path (setF value Fld.ILC_AGENT_CTL_lose 1) s)

/-- A lost line goes into the Lost Line Log, or is counted where the log is full (R339). The Boolean says that it was entered. -/
def State.logLostLine (s : State) (l : Loss) (line agent : Nat) : State × Bool :=
  let st := Reg.COH_LLL_STATUS 0
  let count := s.fld st Fld.COH_LLL_STATUS_count
  if count < 4096 then
    let e := (s.fld st Fld.COH_LLL_STATUS_head + count) % 4096
    let w := setF (setF (setF 0 Fld.COH_LLL0_line line) Fld.COH_LLL0_agent agent) Fld.COH_LLL0_event l.event
    let s := (s.setReg (Reg.COH_LLL0 0 e) w).setReg (Reg.COH_LLL1 0 e) (BitVec.ofNat 64 l.nt)
    (s.setFld st Fld.COH_LLL_STATUS_count (count + 1), true)
  else (s.countSat st Fld.COH_LLL_STATUS_overflow 1, false)

/-- The directory after the walk of a loss event: UEX entries of the lost agents become I, and their pointers leave the others (R336). -/
def walkEntry (agents : List Nat) (e : DirEntry) : Option DirEntry :=
  let gone (p : Option Nat) : Bool := match p with
    | some h => decide (32 ≤ h) && agents.contains (h - 32)
    | none => false
  if e.state = 4 && gone (e.ptrs.getD 0 none) then none
  else
    let e := { e with ptrs := e.ptrs.map (fun p => if gone p then none else p), fwd := if gone (e.fwd.map (32 + ·)) then none else e.fwd }
    if e.empty then none else some e

/-- LOSS_WALK_DONE: the oldest loss event that has not been walked: its lines are logged and the directory is cleaned (R336). -/
def lossWalkDoneEff (s : State) : State :=
  if s.workStopped then s
  else
    match s.coh.losses.find? fun l => !l.walked with
    | none => s
    | some l =>
      let s := { s with coh := { s.coh with dir := s.coh.dir.map fun d => d.filterMap (walkEntry l.agents) } }
      let (s, n, o) := (l.lines.zip l.owners).foldl (fun (a : State × Nat × Nat) p =>
        let (s, ok) := a.1.logLostLine l p.1 p.2
        if ok then (s, a.2.1 + 1, a.2.2) else (s, a.2.1, a.2.2 + 1)) (s, 0, 0)
      { s with coh := { s.coh with losses := s.coh.losses.map fun x =>
          if x.event == l.event then { x with walked := true, logged := n, spill := o } else x } }

def execLossWalkDone (s : State) : Result := .next (lossWalkDoneEff s)

/-- A directory entry as COH_DIR_RESULT returns it (Table CO-2); all zero where there is none. -/
def dirWord (e : Option DirEntry) (busy : Bool) : Word :=
  match e with
  | none => 0
  | some e =>
    let ptr (n : Nat) : Nat := match e.ptrs.getD n none with
      | some h => ((if h < 32 then h else 32 + (h - 32)) * 2 ^ (7 + 6 * n)) + 2 ^ (3 + n)
      | none => 0
    BitVec.ofNat 64 (e.state + ptr 0 + ptr 1 + ptr 2 + ptr 3 + bit e.bcastL * 2 ^ 31 + bit e.bcastU * 2 ^ 32 +
      (match e.fwd with | some a => 2 ^ 33 + a * 2 ^ 34 | none => 0) + bit busy * 2 ^ 37)

/-- A write of COH_DIR_PROBE: the line, and with go its entry in this quadrant's slice (R341). -/
def dirProbeWrite (path : Path) (q : Nat) (value : Word) (s : State) : State :=
  let s := s.writeFields path (Reg.COH_DIR_PROBE q) value
  if getF value Fld.COH_DIR_PROBE_go = 1 then
    let line := getF value Fld.COH_DIR_PROBE_line
    let s := s.countLookup q
    s.setReg (Reg.COH_DIR_RESULT q) (dirWord (s.dirEntry q line) (s.lineBusy line))
  else s

def execDirProbe (path : Path) (q : Quad) (value : Word) (s : State) : Result :=
  .next (dirProbeWrite path q (setF value Fld.COH_DIR_PROBE_go 1) s)

/-- A write of COH_LLL_CTL: consume and clear_overflow (R339); outside Q0 ignored and logged (R494). -/
def lllCtlWrite (path : Path) (q : Nat) (value : Word) (s : State) : State :=
  if q != 0 then s.logViol path 6 (Reg.COH_LLL_CTL q)
  else
    let st := Reg.COH_LLL_STATUS 0
    let count := s.fld st Fld.COH_LLL_STATUS_count
    let n := min count (getF value Fld.COH_LLL_CTL_consume)
    let s := s.setFld st Fld.COH_LLL_STATUS_count (count - n)
    let s := s.setFld st Fld.COH_LLL_STATUS_head (s.fld st Fld.COH_LLL_STATUS_head + n)
    if getF value Fld.COH_LLL_CTL_clear_overflow = 1 then s.setFld st Fld.COH_LLL_STATUS_overflow 0 else s

def execLllConsume (path : Path) (q : Quad) (value : Word) (s : State) : Result := .next (lllCtlWrite path q value s)

def execLllClearOverflow (path : Path) (q : Quad) (value : Word) (s : State) : Result :=
  .next (lllCtlWrite path q (setF value Fld.COH_LLL_CTL_clear_overflow 1) s)

end Sys2Proof.Machine
end

