-- ==== Sys2Proof/Machine/Wire.lean ====
section
/-! DEFINITION. Packets and frames as bytes: headers, check words, classes and validity (R345 to R350, R372 to R374). -/

namespace Sys2Proof.Machine

open Sys2Proof

/-- The 32 header bytes of a packet (Table RT-1). -/
def headerBytes (p : Packet) : List Byte :=
  leBytes 2 p.dst ++ leBytes 2 p.src ++
  leBytes 1 (p.tc % 8 + p.mclass % 4 * 8 + p.epoch % 2 * 32 + p.dl % 2 * 64 + p.rsv % 2 * 128) ++
  leBytes 1 p.opcode ++ leBytes 2 (p.length % 2 ^ 14 + p.rsv / 2 % 4 * 2 ^ 14) ++
  leBytes 2 (p.tag % 2 ^ 12 + p.gen % 16 * 2 ^ 12) ++ leBytes 2 (p.client % 512 + p.inc % 128 * 512) ++
  leBytes 1 p.hops ++ leBytes 1 p.status ++ leBytes 2 (p.rsv / 8) ++
  leBytes 8 p.addr ++ leBytes 4 p.aux ++ leBytes 4 p.pcrc

/-- The packet whose header stands in the first 32 bytes, with the rest as payload (Table RT-1). -/
def packetOf (bs : List Byte) : Packet :=
  let b4 := leAt bs 4 1
  let w6 := leAt bs 6 2
  let w8 := leAt bs 8 2
  let w10 := leAt bs 10 2
  { dst := leAt bs 0 2, src := leAt bs 2 2, tc := b4 % 8, mclass := b4 / 8 % 4, epoch := b4 / 32 % 2, dl := b4 / 64 % 2
    opcode := leAt bs 5 1, length := w6 % 2 ^ 14, tag := w8 % 2 ^ 12, gen := w8 / 2 ^ 12, client := w10 % 512, inc := w10 / 512
    hops := leAt bs 12 1, status := leAt bs 13 1, rsv := b4 / 128 + w6 / 2 ^ 14 * 2 + leAt bs 14 2 * 8
    addr := leAt bs 16 8, aux := leAt bs 24 4, pcrc := leAt bs 28 4, payload := bs.drop 32 }

/-- The check word of a payload: 0 when it is empty (Table RT-1). -/
def payloadCrc (payload : List Byte) : Nat := if payload = [] then 0 else crc32c payload

/-- A packet with its length and check word set to its payload. -/
def sealPacket (p : Packet) : Packet := { p with length := p.payload.length, pcrc := payloadCrc p.payload }

/-- The bytes of a packet on the wire. -/
def packetBytes (p : Packet) : List Byte := headerBytes p ++ p.payload

/-- The virtual channel of a packet (R381). -/
def vcOf (mclass dl : Nat) : Nat := 2 * mclass + dl

/-- DATA frames of a packet (R398). -/
def frameCount (length : Nat) : Nat := cdiv (32 + length) 244

/-- Flits of a frame (R354). -/
def flits (fill : Nat) : Nat := cdiv fill 64

/-- Flits that all frames of a packet cost (R354, R402). -/
def packetFlits (length : Nat) : Nat :=
  (List.range (frameCount length)).foldl (fun n i => n + flits (min 244 (32 + length - 244 * i))) 0

/-- Bytes 0 to 251 of a frame (Table LK-1). -/
def frameBytes (f : Frame) : List Byte :=
  leBytes 2 (f.seq % 4096 + f.vc % 8 * 4096 + bit f.ctrl * 32768) ++
  leBytes 2 (f.ack % 4096 + bit f.nak * 4096 + f.cvc % 8 * 8192) ++
  leBytes 2 (f.credit % 4096) ++ leBytes 1 f.fill ++ leBytes 1 (f.ctype % 16) ++ padTo 244 f.payload

/-- A frame with its check word (R346). -/
def sealFrame (f : Frame) : Frame := { f with crc := crc32c (frameBytes f) }

/-- Whether a frame is in error (R346). -/
def frameError (f : Frame) : Bool := f.bad || f.crc != crc32c (frameBytes f)

/-- The opcodes of Table RT-2. -/
def opRead : Nat := 0x01
def opWrite : Nat := 0x02
def opDoorbell : Nat := 0x03
def opActivation : Nat := 0x04
def opSpill : Nat := 0x05
def opReadData : Nat := 0x08
def opWriteAck : Nat := 0x09
def opActAck : Nat := 0x0A
def opHeartbeat : Nat := 0x10
def opDropNotice : Nat := 0x11
def opRegRead : Nat := 0x12
def opRegWrite : Nat := 0x13
def opRegResp : Nat := 0x14

/-- The class that Table RT-2 gives an opcode; none for an opcode it does not list. SPILL's class depends on the payload's kind (R373). -/
def classOf (p : Packet) : Option Nat :=
  if p.opcode = opRead || p.opcode = opDoorbell then some 0
  else if p.opcode = opWrite || p.opcode = opActivation then some 2
  else if p.opcode = opReadData || p.opcode = opWriteAck || p.opcode = opActAck then some 1
  else if p.opcode = opHeartbeat || p.opcode = opDropNotice || p.opcode = opRegRead || p.opcode = opRegWrite || p.opcode = opRegResp then some 3
  else none

/-- Whether a header is as Table RT-2 states for its opcode: class, reserved bits, length, addr and aux (R373). A SPILL is judged by its kind after the pcrc check. -/
def wellShaped (p : Packet) : Bool :=
  p.rsv == 0 && decide (p.length ≤ 8192) && p.length == p.payload.length &&
  (if p.opcode = opSpill then true else classOf p == some p.mclass) &&
  (if p.opcode = opRead then p.length == 0 && decide (1 ≤ p.aux) && decide (p.aux ≤ 8192) && decide (p.addr < 2 ^ 48) && p.status == 0
   else if p.opcode = opWrite then decide (1 ≤ p.length) && p.aux == 0 && decide (p.addr < 2 ^ 48) && p.status == 0
   else if p.opcode = opDoorbell then p.length == 16 && p.addr == 0 && p.aux == 0 && p.status == 0
   else if p.opcode = opActivation || p.opcode = opSpill then p.addr == 0 && p.aux == 0 && p.status == 0
   else if p.opcode = opReadData then p.addr == 0 && p.aux == 0
   else if p.opcode = opWriteAck then p.length == 0 && p.addr == 0
   else if p.opcode = opActAck then p.length == 0 && p.addr == 0 && decide (p.aux ≤ 1)
   else if p.opcode = opRegRead then p.length == 0 && p.aux == 0 && decide (p.addr < 2 ^ 26) && p.addr % 8 == 0 && p.status == 0
   else if p.opcode = opRegWrite then p.length == 8 && p.aux == 0 && decide (p.addr < 2 ^ 26) && p.addr % 8 == 0 && p.status == 0
   else if p.opcode = opRegResp then p.length == 8 && p.aux == 0
   else if p.opcode = opDropNotice then p.length == 16
   else if p.opcode = opHeartbeat then p.length == 32
   else p.opcode == opSpill)

/-- An answer to a packet: tag, gen, client, inc and class copied, dst its source, src the node it addressed (R374, R397). -/
def answerTo (p : Packet) (opcode mclass status aux : Nat) (payload : List Byte) : Packet :=
  sealPacket { p with
    dst := p.src, src := p.dst, opcode := opcode, mclass := mclass, epoch := 0, dl := 0, hops := 0
    status := status, rsv := 0, addr := 0, aux := aux, payload := payload }

end Sys2Proof.Machine
end

