-- ==== Sys2Proof/Machine/Router.lean ====
section
/-! DEFINITION. The router: input virtual channels, routing of packet heads, injection and ejection, flips of the injected epoch, and the tags of originated requests (R378 to R393). -/

namespace Sys2Proof.Machine

open Sys2Proof

/-- An input virtual channel that the map does not list is empty. -/
def inqDefault (_ : Nat) : List InPkt := []

/-- The key of an input virtual channel. -/
def inKey (port vc : Nat) : Nat := port * 8 + vc

/-- The packets of an input virtual channel, oldest first. -/
def State.inq (s : State) (key : Nat) : List InPkt := mget inqDefault s.router.inputs key

/-- An input virtual channel replaced. -/
def State.setInq (s : State) (key : Nat) (l : List InPkt) : State :=
  { s with router := { s.router with inputs := mset inqDefault s.router.inputs key l } }

/-- Link n beside its registers. -/
def State.link (s : State) (n : Nat) : Link := s.links.getD n Link.reset

/-- Link n replaced. -/
def State.setLink (s : State) (n : Nat) (l : Link) : State := { s with links := s.links.set n l }

/-- LNK_STATUS.state of a link (Table LK-7). -/
def State.linkState (s : State) (n : Nat) : Nat := s.fld (Reg.LNK_STATUS n) Fld.LNK_STATUS_state

/-- Flits of a VC returned to the peer of a link by raising the cumulative counter (R355). -/
def State.freeFlits (s : State) (port vc k : Nat) : State :=
  if port < 32 then
    let l := s.link port
    s.setLink port { l with freed := l.freed.set vc ((l.freed.getD vc 0 + k) % 4096) }
  else s

/-- The frames whose bytes have all been taken after k more bytes leave the buffer: what is left of their fills, the bytes taken of the first, and the flits they return. -/
def takeFills : List Nat → Nat → List Nat × Nat × Nat
  | [], n => ([], n, 0)
  | f :: fs, n =>
    if n < f then (f :: fs, n, 0)
    else
      let (rest, left, fl) := takeFills fs (n - f)
      (rest, left, fl + flits f)

/-- The node ID that packets originated here carry as their source. -/
def State.node (s : State) : Nat := s.fld Reg.RTE_CTL Fld.RTE_CTL_node

/-- Whether a packet is addressed to this node or to its alias (R383). -/
def State.toHere (s : State) (dst : Nat) : Bool :=
  dst == s.node || (s.on Reg.RTE_ALIAS Fld.RTE_ALIAS_valid && dst == s.fld Reg.RTE_ALIAS Fld.RTE_ALIAS_alias)

/-- Whether a route-table version is valid. -/
def State.verValid (s : State) (v : Nat) : Bool :=
  s.on Reg.RTE_VER (if v = 0 then Fld.RTE_VER_valid0 else Fld.RTE_VER_valid1)

/-- The entry of a destination in a version (R380, Table RT-7). -/
def State.routeEntry (s : State) (v dst : Nat) : Nat :=
  let w := s.reg (Reg.RTE_ENTRY v (dst / 2))
  if dst % 2 = 0 then getF w Fld.RTE_ENTRY_even else getF w Fld.RTE_ENTRY_odd

/-- An output code of Table RT-4: 33 to 62 are treated as 63. -/
def outOf (c : Nat) : Nat := if c ≤ 32 then c else 63

/-- The dateline level after a rule (Table RT-4, R381). -/
def dlAfter (rule dl : Nat) : Nat := if rule = 1 then 1 else if rule = 2 then 0 else dl

/-- Whether a link is usable for a packet of a class and dateline level (R378). -/
def State.usable (s : State) (n mclass dl : Nat) : Bool :=
  s.linkState n == 6 && decide (1 ≤ s.fld (Reg.LNK_VC n (vcOf mclass dl)) Fld.LNK_VC_credits)

/-- The output and dateline level that the table gives a header: the pseudocode of R378 after its drops. -/
def State.lookup (s : State) (p : Packet) : Nat × Nat :=
  let e := s.routeEntry p.epoch p.dst
  let out := outOf (bitsAt e 0 6)
  let alt := outOf (bitsAt e 6 6)
  let dl := dlAfter (bitsAt e 12 2) p.dl
  let dl' := dlAfter (bitsAt e 14 2) p.dl
  if e.testBit 16 && decide (alt < 32) && decide (out < 32) && !s.usable out p.mclass dl && s.usable alt p.mclass dl' then
    (alt, dl')
  else (out, dl)

/-- Why a packet is dropped by the router. -/
inductive RouteDrop where
  | noRoute | unserved | hops | epoch
deriving DecidableEq, Repr

/-- The routing decision on a packet head. -/
inductive Route where
  | hold | to (out dl : Nat) | drop (why : RouteDrop)
deriving DecidableEq, Repr

/-- Whether a packet is an answer. -/
def isAnswer (p : Packet) : Bool := p.mclass == 1 || p.opcode == opRegResp

/-- The decision of R378, R379 and R383 on the head of a packet at an input port. -/
def State.route (s : State) (local' : Bool) (p : Packet) (port : Nat) : Route :=
  if !s.boot.routerOn || !s.on Reg.RTE_CTL Fld.RTE_CTL_enable then
    (if local' then .hold else .drop .unserved)
  else if !s.verValid 0 && !s.verValid 1 then
    if p.dst = s.node && p.mclass = 3 then .to 32 p.dl
    else if local' && isAnswer p && port < 32 then .to port p.dl
    else .drop .unserved
  else if s.toHere p.dst then .to 32 p.dl
  else if !local' && p.hops = 0 then .drop .hops
  else if !s.verValid p.epoch then .drop .epoch
  else
    let (out, dl) := s.lookup p
    if out = 63 then .drop .noRoute else .to out dl

/-- A drop counted, with the Loupe event and, for a packet without a route, the routing event (R378, R379, R383, R387). -/
def State.countDrop (s : State) (why : RouteDrop) (p : Packet) (port : Nat) : State :=
  let q := if port < 32 then port / 8 else port - 32
  let (f, k) := match why with
    | .noRoute => (Fld.RTE_CNT0_no_route, 0)
    | .unserved => (Fld.RTE_CNT0_no_route, 0)
    | .hops => (Fld.RTE_CNT0_ttl, 1)
    | .epoch => (Fld.RTE_CNT0_epoch_miss, 2)
  let s := s.countSat Reg.RTE_CNT0 f 1
  let s := s.observe 9 q 0x242 1 noWork ([BitVec.ofNat 8 k, 0] ++ leBytes 2 p.dst ++ leBytes 2 p.src)
  if why = .noRoute then s.raiseLimited 0x0A01 9 q (leBytes 2 p.dst ++ leBytes 2 p.src) else s

/-- A packet ejected to the endpoint: it waits there for its command, but one of an opcode that Table RT-2 does not list is discarded and counted (R373). -/
def State.eject (s : State) (port : Nat) (p : Packet) : State :=
  if (classOf p).isNone && p.opcode != opSpill then s.countSat Reg.RTE_CNT1 Fld.RTE_CNT1_malformed 1
  else { s with router := { s.router with eject := s.router.eject ++ [(port, p)] } }

/-- The front packet of an input virtual channel that is ejected or dropped, unless a global stop holds the router slices, takes every byte that has arrived out of the buffer; a whole packet leaves the channel, to the endpoint when its output is the local port. -/
def State.settle (s : State) (port vc : Nat) : State :=
  match s.inq (inKey port vc) with
  | [] => s
  | p :: rest =>
    if (p.out = some 32 || p.out = some 63) && !s.coreStopped then
      let (fills, left, fl) := takeFills p.fills (p.taken + (p.got.length - p.sent))
      let s := s.freeFlits port vc fl
      if 32 + p.hdr.length ≤ p.got.length then
        let s := s.setInq (inKey port vc) rest
        if p.out = some 32 then s.eject p.port (packetOf p.got) else s
      else s.setInq (inKey port vc) ({ p with fills := fills, taken := left, sent := p.got.length } :: rest)
    else s

/-- The head of an input virtual channel is routed, once, when it reaches the front (R378). -/
def State.routeHead (s : State) (port vc : Nat) : State :=
  match s.inq (inKey port vc) with
  | [] => s
  | p :: rest =>
    if s.coreStopped then s
    else if p.out.isSome then s.settle port vc
    else
      match s.route (port == 32) p.hdr p.port with
      | .hold => s
      | .to out dl => (s.setInq (inKey port vc) ({ p with out := some out, dl := dl } :: rest)).settle port vc
      | .drop why =>
        ((s.countDrop why p.hdr p.port).setInq (inKey port vc) ({ p with out := some 63 } :: rest)).settle port vc

/-- PACKET_HEAD_ROUTE: the head at the front of an input virtual channel is routed; port 32 is the local port (R378). -/
def execPacketHeadRoute (port : Fin 33) (vc : Vc) (s : State) : Result := .next (s.routeHead port vc)

/-- A packet originated here for a client (R384, R392): source, which for a paired client is the alias (R412), incarnation and header as Table RT-1 gives them. The tag is set when one is allocated. -/
def State.originate (s : State) (client dst opcode mclass tc addr aux : Nat) (payload : List Byte) : Packet :=
  sealPacket
    { dst := dst, src := if s.paired client then s.fld Reg.RTE_ALIAS Fld.RTE_ALIAS_alias else s.node, tc := tc, mclass := mclass, epoch := 0, dl := 0, opcode := opcode, length := 0, tag := 0, gen := 0
      client := client, inc := s.fld (clientReg client) Fld.QUE_CLIENT_incarnation
      hops := 0, status := 0, rsv := 0, addr := addr, aux := aux, pcrc := 0, payload := payload }

/-- A packet injected at the local port: epoch, hops and dateline level are set, and it joins its input virtual channel (R379, R381, R384). `port` says where it comes from, as InPkt.port. -/
def State.inject (s : State) (port : Nat) (p : Packet) : State :=
  let p := { p with epoch := s.fld Reg.RTE_CTL Fld.RTE_CTL_inj_epoch, dl := 0, hops := s.fld Reg.RTE_CTL Fld.RTE_CTL_hop_limit }
  let key := inKey 32 (vcOf p.mclass 0)
  s.setInq key (s.inq key ++
    [{ hdr := { p with payload := [] }, got := packetBytes p, out := none, dl := 0, sent := 0, started := false, deferred := false
       closeNt := none, fills := [], taken := 0, port := port }])

/-- A mirror WRITE injected for one link, without a route lookup (R420). -/
def State.injectTo (s : State) (link : Nat) (p : Packet) : State :=
  let p := { p with epoch := s.fld Reg.RTE_CTL Fld.RTE_CTL_inj_epoch, dl := 0, hops := s.fld Reg.RTE_CTL Fld.RTE_CTL_hop_limit }
  let key := inKey 32 (vcOf p.mclass 0)
  s.setInq key (s.inq key ++
    [{ hdr := { p with payload := [] }, got := packetBytes p, out := some link, dl := 0, sent := 0, started := false, deferred := false
       closeNt := none, fills := [], taken := 0, port := 36 }])

/-- An answer injected for a packet that arrived on a link. -/
def State.answer (s : State) (port : Nat) (p : Packet) : State := s.inject port p

/-- The instant of a flip: NT is recorded, the drain timer starts, and the heads held for links that are not ACTIVE are routed again under the new version (R386, R388). -/
def State.flip (s : State) : State :=
  let s := s.setReg Reg.RTE_FLIP_NT (BitVec.ofNat 64 s.nt)
  let s := s.setFld Reg.RTE_VER Fld.RTE_VER_draining 1
  let s := { s with router := { s.router with
    drainEnd := some (s.nt + s.fld Reg.RTE_TIMING Fld.RTE_TIMING_drain_us * 1000) } }
  (s.router.inputs.map (·.1)).foldl (fun s key =>
    match s.inq key with
    | [] => s
    | p :: rest =>
      match p.out with
      | some n =>
        if n < 32 && !p.started && p.port != 36 && s.linkState n != 6 then
          let e := s.fld Reg.RTE_CTL Fld.RTE_CTL_inj_epoch
          let h := { p.hdr with epoch := e }
          (s.setInq key ({ p with out := none, hdr := h, got := headerBytes h ++ p.got.drop 32 } :: rest)).routeHead (key / 8) (key % 8)
        else s
      | none => s) s

/-- DRAIN_END: the drain timer has run, and under auto_retire the version not injected is retired (R386). -/
def drainEndEff (s : State) : State :=
  match s.router.drainEnd with
  | none => s
  | some t =>
    if s.nt < t then s
    else
      let s := { s with router := { s.router with drainEnd := none } }
      let s := s.setFld Reg.RTE_VER Fld.RTE_VER_draining 0
      if s.on Reg.RTE_CTL Fld.RTE_CTL_auto_retire then
        s.setBoth Reg.RTE_VER
          (if s.on Reg.RTE_CTL Fld.RTE_CTL_inj_epoch then Fld.RTE_VER_valid0 else Fld.RTE_VER_valid1) 0
      else s

def execDrainEnd (s : State) : Result := .next (drainEndEff s)

/-- Generation last given to a tag that the map does not list. -/
def genDefault (_ : Nat) : Nat := 0

/-- A tag of a quadrant that is neither in use nor in quarantine (R390). DESIGN CHOICE: the lowest of them (assumption 92). -/
def State.freeTag (s : State) (q : Nat) : Option Nat :=
  (List.range 1024).map (fun i => 1024 * q + i) |>.find? fun t =>
    !(s.router.tags.any fun x => x.tag == t) && !(s.router.quarantine.any fun x => x.1 == t)

/-- A request sent under a new tag of a quadrant, or held until a tag is free (R390 to R392). `first` is the NT at which the request was first sent. -/
def State.sendAgain (s : State) (q : Nat) (p : Packet) (why : Purpose) (first : Nat) : State :=
  match s.freeTag q with
  | none => { s with router := { s.router with waiting := s.router.waiting ++ [(q, p, why, first)] } }
  | some t =>
    let g := (mget genDefault s.router.gens t + 1) % 16
    let p := { p with tag := t, gen := g, inc := s.fld (clientReg p.client) Fld.QUE_CLIENT_incarnation }
    let s := { s with router := { s.router with
      gens := mset genDefault s.router.gens t g
      tags := s.router.tags ++ [Tag.mk t g why p s.nt first (s.reg Reg.RTE_TIMING)] } }
    s.inject (32 + q) p

/-- A request sent for the first time. -/
def State.sendTracked (s : State) (q : Nat) (p : Packet) (why : Purpose) : State := s.sendAgain q p why s.nt

/-- The ns of a tag's quarantine, 2 × L (R390). -/
def State.quarantineNs (s : State) : Nat := 2 * s.fld Reg.RTE_TIMING Fld.RTE_TIMING_lifetime_us * 1000

/-- A tag freed into quarantine, of the length in force when its request was sent (R65, R390). -/
def State.releaseTag (s : State) (t : Nat) : State :=
  let w := ((s.router.tags.find? fun x => x.tag == t).map Tag.timing).getD (s.reg Reg.RTE_TIMING)
  { s with router := { s.router with
      tags := s.router.tags.filter (·.tag != t)
      quarantine := s.router.quarantine ++ [(t, s.nt + 2 * getF w Fld.RTE_TIMING_lifetime_us * 1000)] } }

/-- The outstanding request that an answer matches: tag, gen and src (R391). -/
def State.matchTag (s : State) (p : Packet) : Option Tag :=
  s.router.tags.find? fun t => t.tag == p.tag && t.gen == p.gen && t.pkt.dst == p.src

/-- The tags in flight for a purpose. -/
def State.tagsFor (s : State) (f : Purpose → Bool) : List Tag := s.router.tags.filter fun t => f t.purpose

/-- TAG_QUARANTINE_END: a tag whose quarantine has ended may be allocated again, and the oldest request of its quadrant that waits takes it (R390). -/
def tagQuarantineEndEff (tag : Nat) (s : State) : State :=
  if s.router.quarantine.any fun x => x.1 == tag && decide (x.2 ≤ s.nt) then
    let s := { s with router := { s.router with quarantine := s.router.quarantine.filter (·.1 != tag) } }
    match s.router.waiting.find? fun w => w.1 == tag / 1024 with
    | none => s
    | some w =>
      let s := { s with router := { s.router with waiting := s.router.waiting.erase w } }
      s.sendAgain w.1 w.2.1 w.2.2.1 w.2.2.2
  else s

def execTagQuarantineEnd (tag : Fin 4096) (s : State) : Result := .next (tagQuarantineEndEff tag s)

/-- Whether a client is served by this node: a paired client only in ACTIVE and SOLO (R412). -/
def State.serves (s : State) (c : Nat) : Bool := !s.paired c || s.serving

/-- The checks of R373, R377 and R393 on a packet at the local port, with their counts; false where it is dropped. A SPILL and a DOORBELL show a malformed payload after the pcrc check. -/
def State.arrives (s : State) (p : Packet) : State × Bool :=
  let count (f : Field) : State := s.countSat Reg.RTE_CNT1 f 1
  let kind := leAt p.payload 2 1
  let badSpill := p.opcode == opSpill && (kind > 4 || p.mclass != (if kind = 0 || kind = 3 then 2 else 1))
  let badDoorbell := p.opcode == opDoorbell && leAt p.payload 2 6 != 0
  if !wellShaped p then (count Fld.RTE_CNT1_malformed, false)
  else if p.pcrc != payloadCrc p.payload then (count Fld.RTE_CNT1_pcrc_err, false)
  else if badSpill || badDoorbell then (count Fld.RTE_CNT1_malformed, false)
  else if (p.opcode == opRegRead || p.opcode == opRegWrite) &&
      !(s.on Reg.RTE_CTL Fld.RTE_CTL_fm_any || p.src == s.fld Reg.RTE_CTL Fld.RTE_CTL_fm_node) then
    (count Fld.RTE_CNT1_ctl_dropped, false)
  else if (isAnswer p || s.serves p.client) && p.inc != s.fld (clientReg p.client) Fld.QUE_CLIENT_incarnation then
    (count Fld.RTE_CNT1_stale_inc, false)
  else (s, true)

/-- A packet taken from the ejected ones by the endpoint command that carries it. -/
def State.takeEjected (s : State) (port : Nat) (p : Packet) : State :=
  { s with router := { s.router with eject := s.router.eject.erase (port, p) } }

end Sys2Proof.Machine
end

