-- ==== Sys2Proof/Machine/Traffic.lean ====
section
/-! DEFINITION. Gates, shapers, the start of packets at a link egress, policing and drop notices (R399 to R408). -/

namespace Sys2Proof.Machine

open Sys2Proof

/-- The gate list of a link as durations and masks, the rest mask last; entries of no duration are left out (R399). -/
def State.gateList (s : State) (n : Nat) : List (Nat × Nat) :=
  let c := s.reg (Reg.TSC_CTL n)
  let es := (List.range (getF c Fld.TSC_CTL_n_entries)).map fun i =>
    let w := s.reg (Reg.TSC_GATE n i)
    (getF w Fld.TSC_GATE_duration_ns, getF w Fld.TSC_GATE_mask)
  let sum := es.foldl (fun a e => a + e.1) 0
  (es ++ [(s.fld (Reg.TSC_CYCLE n) Fld.TSC_CYCLE_cycle_ns - sum, getF c Fld.TSC_CTL_rest_mask)]).filter fun e => e.1 != 0

/-- The list position of an NT (R399). -/
def State.gatePos (s : State) (n : Nat) : Nat :=
  (((s.nt : Int) - (s.fld (Reg.TSC_BASE n) Fld.TSC_BASE_base : Int)) % (s.fld (Reg.TSC_CYCLE n) Fld.TSC_CYCLE_cycle_ns : Int)).toNat

/-- The mask in force at a position of a list of durations and masks. -/
def maskAt : List (Nat × Nat) → Nat → Nat
  | [], _ => 0xFF
  | (d, m) :: t, x => if x < d then m else maskAt t (x - d)

/-- The index of the entry in force at a position; `n` is the number of entries of the list without the rest. -/
def entryAt : List (Nat × Nat) → Nat → Nat → Nat
  | [], _, _ => 256
  | (d, _) :: t, i, x => if x < d then i else entryAt t (i + 1) (x - d)

/-- The start of the first part of a list, from a position on, at which class t is closed. `here` is the position of the list's start. -/
def closedFrom (t : Nat) : List (Nat × Nat) → Nat → Nat → Option Nat
  | [], _, _ => none
  | (d, m) :: rest, here, x =>
    if x < here + d && !m.testBit t then some (max here x) else closedFrom t rest (here + d) x

/-- Whether the gate of a class is open now at a link (R399). -/
def State.gateOpen (s : State) (n t : Nat) : Bool :=
  !s.on (Reg.TSC_CTL n) Fld.TSC_CTL_enable || (maskAt (s.gateList n) (s.gatePos n)).testBit t

/-- The ns from now to the window end of an open class, none where it has no end (R400). -/
def State.windowLeft (s : State) (n t : Nat) : Option Nat :=
  if s.on (Reg.TSC_CTL n) Fld.TSC_CTL_enable then
    (closedFrom t (s.gateList n ++ s.gateList n) 0 (s.gatePos n)).map fun e => e - s.gatePos n
  else none

/-- Whether n frame slots of a class fit before its window end (R402). -/
def State.fits (s : State) (link t frames : Nat) : Bool :=
  s.gateOpen link t &&
  match s.windowLeft link t with
  | none => true
  | some left => decide (frames * 512 ≤ left * 100)

/-- A bucket brought up to an NT at a rate in thousandths of a byte per ns (R406, R407). -/
def fillBucket (b : Bucket) (rate burst nt : Nat) : Bucket :=
  ⟨min ((burst : Int) * 1000) (b.tokens + (rate : Int) * ((nt - b.nt : Nat) : Int)), nt⟩

/-- The shaper of a class at a link, up to date. A bucket that is not listed is full. -/
def State.shaper (s : State) (n t : Nat) : Bucket :=
  let burst := s.fld (Reg.TSC_SHAPE n t) Fld.TSC_SHAPE_burst
  match s.traffic.shapers.find? fun e => e.1 == n * 8 + t with
  | none => ⟨(burst : Int) * 1000, s.nt⟩
  | some e => fillBucket e.2 (s.fld (Reg.TSC_SHAPE n t) Fld.TSC_SHAPE_rate_mbs) burst s.nt

/-- Whether the shaper of a class lets a packet start (R406). -/
def State.shaperAllows (s : State) (n t : Nat) : Bool :=
  s.fld (Reg.TSC_SHAPE n t) Fld.TSC_SHAPE_rate_mbs == 0 || decide (0 < (s.shaper n t).tokens)

/-- The charge of a packet on a link (R405). -/
def State.charge (s : State) (n length : Nat) : Nat := 32 + length + s.fld (Reg.TSC_CTL n) Fld.TSC_CTL_overhead

/-- A packet's start charged to its class: the shaper falls where the class is shaped, and TSC_TX rises (R406). -/
def State.chargeStart (s : State) (n t length : Nat) : State :=
  let c := s.charge n length
  let s := s.countWrap (Reg.TSC_TX n t) Fld.TSC_TX_bytes c
  if s.fld (Reg.TSC_SHAPE n t) Fld.TSC_SHAPE_rate_mbs = 0 then s
  else
    let b := s.shaper n t
    { s with traffic := { s.traffic with
        shapers := (n * 8 + t, ⟨b.tokens - (c : Int) * 1000, b.nt⟩) :: s.traffic.shapers.filter (·.1 != n * 8 + t) } }

/-- The credits of a virtual channel cover a packet, or equal the peer's buffer where that is smaller (R402). -/
def State.creditsCover (s : State) (n vc length : Nat) : Bool :=
  let c := s.fld (Reg.LNK_VC n vc) Fld.LNK_VC_credits
  let need := packetFlits length
  let buf := (s.link n).peerBuf.getD vc 0
  if buf < need then c == buf else decide (need ≤ c)

/-- The input keys whose front packet has been routed to a link and has not started. -/
def State.candidates (s : State) (n : Nat) : List (Nat × InPkt) :=
  s.router.inputs.filterMap fun e =>
    match e.2 with
    | p :: _ => if p.out == some n && !p.started then some (e.1, p) else none
    | [] => none

/-- Whether a packet may start at a link now, but for its gate. -/
def State.readyButGate (s : State) (n : Nat) (p : InPkt) : Bool :=
  s.creditsCover n (vcOf p.hdr.mclass p.dl) p.hdr.length && s.shaperAllows n p.hdr.tc

/-- Position in a rotation that starts after the one served last. -/
def turn (last i m : Nat) : Nat := (i + m - last - 1) % m

/-- Whether candidate a is served before candidate b at a link (R403): class, then port round robin, then VC rotation. -/
def State.before (s : State) (n : Nat) (a b : Nat × InPkt) : Bool :=
  let ta := a.2.hdr.tc
  let tb := b.2.hdr.tc
  if ta = tb then
    let last := mget (fun _ => 32) s.traffic.lastPort (n * 8 + ta)
    let pa := turn last (a.1 / 8) 33
    let pb := turn last (b.1 / 8) 33
    if pa = pb then
      let lv := mget (fun _ => 7) s.traffic.lastVc (n * 64 + a.1 / 8)
      decide (turn lv (a.1 % 8) 8 < turn lv (b.1 % 8) 8)
    else decide (pa < pb)
  else decide (tb < ta)

/-- The packets that fail only their gate are deferred, each counted once (R402). -/
def State.deferAll (s : State) (n : Nat) : State :=
  (s.candidates n).foldl (fun s e =>
    if !e.2.deferred && s.readyButGate n e.2 && !s.fits n e.2.hdr.tc (frameCount e.2.hdr.length) then
      match s.inq e.1 with
      | p :: rest => (s.setInq e.1 ({ p with deferred := true } :: rest)).countSat (Reg.TSC_CNT n) Fld.TSC_CNT_deferred 1
      | [] => s
    else s) s

/-- The packet that a link starts at this slot: its input key (R402, R403). -/
def State.pick (s : State) (n : Nat) : Option Nat :=
  ((s.candidates n).filter fun e => s.readyButGate n e.2 && s.fits n e.2.hdr.tc (frameCount e.2.hdr.length)).foldl
    (fun (best : Option (Nat × InPkt)) e =>
      match best with
      | none => some e
      | some b => if s.before n e b then some e else best) none |>.map (·.1)

/-- A packet starts at a link: its header takes the dateline level and one hop less, and its charge is taken (R379, R381, R406). -/
def State.startPacket (s : State) (n key : Nat) : State :=
  match s.inq key with
  | [] => s
  | p :: rest =>
    let h := { p.hdr with dl := p.dl, hops := p.hdr.hops - 1 }
    let close := (s.windowLeft n p.hdr.tc).map fun left => (s.nt + left) * 100
    let s := s.setInq key ({ p with hdr := h, got := headerBytes h ++ p.got.drop 32, started := true, closeNt := close } :: rest)
    let s := { s with traffic := { s.traffic with
      lastPort := mset (fun _ => 32) s.traffic.lastPort (n * 8 + h.tc) (key / 8)
      lastVc := mset (fun _ => 7) s.traffic.lastVc (n * 64 + key / 8) (key % 8) } }
    (s.chargeStart n h.tc h.length).setLink n { (s.link n) with tx := some key }

/-- The policer of a client, up to date. A bucket that is not listed is full. -/
def State.policer (s : State) (c : Nat) : Bucket :=
  let burst := s.fld (Reg.QUE_POL_BURST (c % 4) (c / 4)) Fld.QUE_POL_BURST_burst
  match s.traffic.policers.find? fun e => e.1 == c with
  | none => ⟨(burst : Int) * 1000, s.nt⟩
  | some e => fillBucket e.2 (s.fld (Reg.QUE_POL_RATE (c % 4) (c / 4)) Fld.QUE_POL_RATE_rate_mbs) burst s.nt

/-- The policer of a client set. -/
def State.setPolicer (s : State) (c : Nat) (b : Bucket) : State :=
  { s with traffic := { s.traffic with policers := (c, b) :: s.traffic.policers.filter (·.1 != c) } }

/-- The policer of a client full again (R407). -/
def State.resetPolicer (s : State) (c : Nat) : State :=
  { s with traffic := { s.traffic with policers := s.traffic.policers.filter (·.1 != c) } }

/-- A DROP_NOTICE sent for a client (R408, Table TS-1). -/
def State.notice (s : State) (c drops opcode tc first : Nat) : State :=
  let p := s.originate c (s.fld (clientReg c) Fld.QUE_CLIENT_node) opDropNotice 3 tc 0 0
    (leBytes 2 c ++ leBytes 1 opcode ++ [0] ++ leBytes 4 drops ++ leBytes 8 first)
  (s.inject (32 + clientQuad c) p).countSat (Reg.QUE_POL_CNT (c % 4) (c / 4)) Fld.QUE_POL_CNT_notices 1

/-- A policing drop reported: at once, or gathered for the end of the holdoff (R408). -/
def State.reportDrop (s : State) (c opcode tc : Nat) : State :=
  let others := s.traffic.holdoffs.filter (·.client != c)
  match s.traffic.holdoffs.find? (·.client == c) with
  | none =>
    let s := s.notice c 1 opcode tc s.nt
    { s with traffic := { s.traffic with holdoffs := ⟨c, s.nt + 1000000, 0, 0, 0, 0⟩ :: others } }
  | some h =>
    if h.drops = 0 && h.until' ≤ s.nt then
      let s := s.notice c 1 opcode tc s.nt
      { s with traffic := { s.traffic with holdoffs := ⟨c, s.nt + 1000000, 0, 0, 0, 0⟩ :: others } }
    else
    { s with traffic := { s.traffic with
        holdoffs := { h with drops := h.drops + 1, opcode := opcode, tc := tc
                             firstNt := if h.drops = 0 then s.nt else h.firstNt } :: others } }

/-- DROP_NOTICE_HOLDOFF_END: one notice for the drops that accumulated, and a new holdoff; without drops the holdoff is over (R408). -/
def dropNoticeHoldoffEndEff (c : Nat) (s : State) : State :=
  match s.traffic.holdoffs.find? (·.client == c) with
  | none => s
  | some h =>
    if s.nt < h.until' then s
    else
      let others := s.traffic.holdoffs.filter (·.client != c)
      if h.drops = 0 then { s with traffic := { s.traffic with holdoffs := others } }
      else
        let s := s.notice c h.drops h.opcode h.tc h.firstNt
        { s with traffic := { s.traffic with holdoffs := ⟨c, s.nt + 1000000, 0, 0, 0, 0⟩ :: others } }

def execDropNoticeHoldoffEnd (c : Client) (s : State) : Result := .next (dropNoticeHoldoffEndEff c s)

/-- A packet from a link policed at the local port; false where it is dropped (R407). A packet that a unit of this node sent to itself has no arrival link and is charged without overhead. -/
def State.police (s : State) (port : Nat) (p : Packet) : State × Bool :=
  let rate := s.fld (Reg.QUE_POL_RATE (p.client % 4) (p.client / 4)) Fld.QUE_POL_RATE_rate_mbs
  if rate = 0 || !s.serves p.client || !(p.opcode == opRead || p.opcode == opWrite || p.opcode == opDoorbell || p.opcode == opActivation) then (s, true)
  else
    let charge := if port < 32 then s.charge port p.length else 32 + p.length
    let b := s.policer p.client
    if (charge : Int) * 1000 ≤ b.tokens then (s.setPolicer p.client ⟨b.tokens - (charge : Int) * 1000, b.nt⟩, true)
    else
      let s := (s.setPolicer p.client b).countSat (Reg.QUE_POL_CNT (p.client % 4) (p.client / 4)) Fld.QUE_POL_CNT_dropped 1
      (s.reportDrop p.client p.opcode p.tc, false)

end Sys2Proof.Machine
end

