-- ==== Sys2Proof/Machine/Queues.lean ====
section
/-! DEFINITION. The queue engines: descriptors in flight, accesses to rings, doorbells and fetches (R69 to R91, R503). -/

namespace Sys2Proof.Machine

open Sys2Proof

/-- A descriptor that a queue engine holds. -/
def State.desc (s : State) (k : DescKey) : Option Desc := s.que.descs.find? fun d => d.key == k

/-- A descriptor replaced. -/
def State.setDesc (s : State) (d : Desc) : State :=
  { s with que := { s.que with descs := s.que.descs.map fun (x : Desc) => if x.key == d.key then d else x } }

/-- The client of a descriptor. -/
def keyClient (k : DescKey) : Nat := clientOf k.q k.j

/-- The operand of n bytes at a position of a descriptor. -/
def Desc.u (d : Desc) (start n : Nat) : Nat := leAt d.bytes start n

/-- The opcode of a descriptor (Table QU-3). -/
def Desc.op (d : Desc) : Nat := d.u 0 1

/-- The client of a descriptor. -/
def Desc.client (d : Desc) : Nat := keyClient d.key

/-- A flag of a descriptor: bit 0 ev, bit 1 ord, bit 2 trace (Table QU-3). -/
def Desc.flag (d : Desc) (n : Nat) : Bool := (d.u 1 1).testBit n

/-- What a descriptor's work shows to Loupe. -/
def Desc.work (d : Desc) : Work := ⟨d.u 4 2, d.u 6 2, some d.client, d.flag 2⟩

/-- Whether the queue engine of a quadrant runs: enabled, not stopped by a node-fatal error (R488) or a global stop (R472). -/
def State.engineUp (s : State) (q : Nat) : Bool := s.on (Reg.QUE_CTL q) Fld.QUE_CTL_enable && !s.workStopped

/-- Whether the watchdog has stopped fetch, issue and instance starts of a quadrant (R477). -/
def State.hung (s : State) (q : Nat) : Bool := s.loupe.hung.contains q

/-- The watchdog of a quadrant counts from zero again: a completion was written, or an instance started or completed (R477). -/
def State.feedWatchdog (s : State) (q : Nat) : State := { s with loupe := { s.loupe with wdog := s.loupe.wdog.set q 0 } }

/-- Whether descriptors of a client are fetched and issued: for a paired client not before the takeover quarantine has ended, and not once a handover has begun (R426, R431). -/
def State.runs (s : State) (c : Nat) : Bool := s.serves c && !(s.paired c && (s.pair.takeover.isSome || s.pair.leaving))

/-- The run of a descriptor. -/
def State.runOf (s : State) (k : DescKey) : Option Run :=
  match s.rcp.run with
  | some r => if r.key == k then some r else none
  | none => none

/-- The run replaced. -/
def State.setRun (s : State) (r : Run) : State := { s with rcp := { s.rcp with run := some r } }

/-- Whether a status is of a higher class than another (R245). -/
def worse (a b : Nat) : Bool := decide (b / 0x1000 < a / 0x1000)

/-- An instance of a run has failed: no further instance starts, and the status of the highest class is kept (R245). -/
def State.failRun (s : State) (r : Run) (status detail : Nat) : State :=
  if worse status r.status then s.setRun { r with failed := true, status := status, detail := detail } else s.setRun { r with failed := true }

/-- A requester of the run of a descriptor loses its tile; its instance fails when it looks again. -/
def State.noteAbort (s : State) (k : DescKey) (requester : Nat) : State :=
  match s.runOf k with
  | some r => s.setRun { r with aborted := r.aborted ++ [requester] }
  | none => s

/-- The units let go of a descriptor that has ended: its channels, its expert instance and its sequences. -/
def State.dropUnits (s : State) (k : DescKey) : State :=
  { s with
    rcp := { s.rcp with channels := s.rcp.channels.filter fun c => c.key != k }
    exd := { s.exd with work := s.exd.work.filter fun x => x.key != k }
    attn := s.attn.filter fun a => a.key != k }

/-- A descriptor ends with a status, and its completion is due. A success becomes 0x1002 where a stall was resumed, or 0x1001 where a granule was reconstructed (R120, Table QU-7). An internal status raises a queue event. -/
def State.finishDesc (s : State) (d : Desc) (status result detail : Nat) : State :=
  let st := if status = 0 then (if d.resumed then 0x1002 else if d.rebuilt then 0x1001 else 0) else status
  let s := s.dropUnits d.key
  let s := s.setDesc { d with phase := .ended, status := st, result := result, detail := detail }
  if st = 0xF001 || st = 0xF002 then
    s.raise 0x0302 5 d.key.q (leBytes 2 d.client ++ [BitVec.ofNat 8 (d.key.j % 8), 0] ++ leBytes 4 d.key.seq ++ leBytes 2 st)
  else s

/-- Work of a descriptor ends with a status: the descriptor ends, or where it is a run its instance fails and the run goes on to its end (R245). -/
def State.endDesc (s : State) (d : Desc) (status result detail : Nat) : State :=
  match s.runOf d.key with
  | some r => (s.setDesc d).failRun r status detail
  | none => s.finishDesc d status result detail

/-- What an access to pool memory gave: it is held, it failed with a status, or the bytes, whether a granule was rebuilt, and the mirror ranges to wait for. -/
inductive Got where
  | held
  | fail (status done : Nat)
  | ok (data : List Byte) (rebuilt : Bool) (ids : List Nat)
deriving DecidableEq, Repr

/-- The lines of a byte range. -/
def rangeLines (pa n : Nat) : List Nat := (linePieces pa n).map (·.1)

/-- The status of an access whose line was refused by its bank, or has a data error (R144, R156). -/
def lineFail (status : Nat) : Nat := if status = 2 then 0xF002 else 0x6001

/-- A read of pool memory for the access named by a key: it waits for a loss event of its lines, and then gives status lost (R338); a disabled slab is counted and refused (R132); a lost granule is a data error (R144). -/
def State.poolRead (s : State) (env : Env) (via : Via) (key : List Nat) (pa n : Nat) : State × Got :=
  if !s.inSlabs pa n then (s.slabViolation (s.firstOutside pa n), .fail 0x8004 0)
  else
    match (rangeLines pa n).find? fun l => s.coh.losses.any fun x => x.lines.contains l with
    | some l =>
      if s.coh.lossWaits.contains (l, key) then (s, .held)
      else ({ s with coh := { s.coh with lossWaits := s.coh.lossWaits ++ [(l, key)] } }, .held)
    | none =>
      match (rangeLines pa n).find? fun l => s.coh.lossWaits.contains (l, key) with
      | some l => ({ s with coh := { s.coh with lossWaits := s.coh.lossWaits.filter fun w => w != (l, key) } }, .fail 0x6002 0)
      | none =>
        match s.readVia env via pa n with
        | none => (s, .held)
        | some (s', m) => if m.status = 0 then (s', .ok m.data m.rebuilt m.ids) else (s', .fail (lineFail m.status) m.done)

/-- A tile of an operation written to pool memory, as addresses with their bytes: held where a home cannot take it now or the mirror log is full (R135, R421). -/
def State.poolWriteTile (s : State) (env : Env) (via : Via) (tile : List (Nat × List Byte)) : State × Got :=
  match tile.find? fun p => !s.inSlabs p.1 p.2.length with
  | some p => (s.slabViolation (s.firstOutside p.1 p.2.length), .fail 0x8004 0)
  | none =>
    if tile.any fun p => s.rangeMirrorHeld p.1 p.2.length then (s, .held)
    else
      match s.writeTile env via tile with
      | none => (s, .held)
      | some (s', m) => if m.status = 0 then (s', .ok [] m.rebuilt m.ids) else (s', .fail (lineFail m.status) m.done)

/-- A write of pool memory at one address. -/
def State.poolWrite (s : State) (env : Env) (via : Via) (pa : Nat) (data : List Byte) : State × Got :=
  s.poolWriteTile env via [(pa, data)]

/-- The space of an address word (Table QU-1). -/
def spaceOf (w : Nat) : Nat := bitsAt w 48 2

/-- The address of an address word. -/
def addrOf (w : Nat) : Nat := w % 2 ^ 48

/-- A request of a client's traffic sent to its node under a tag (R71, R392). -/
def State.sendClient (s : State) (c opcode mclass addr aux : Nat) (payload : List Byte) (why : Purpose) : State :=
  let tc := s.fld (Reg.QUE_POL_RATE (c % 4) (c / 4)) Fld.QUE_POL_RATE_tc
  let p := s.originate c (s.fld (clientReg c) Fld.QUE_CLIENT_node) opcode mclass tc addr aux payload
  s.sendTracked (clientQuad c) p why

/-- The key of a ring access: its queue pair, count and kind. -/
def ringKey : Purpose → List Nat
  | .fetch q j seq _ => [q, j, seq, 1]
  | .completion q j seq => [q, j, seq, 2]
  | .event q j seq => [q, j, seq, 3]
  | .operand q j seq piece => [q, j, seq, piece, 4]
  | .send run inst row => [run, inst, row, 0, 5]
  | .spill group row => [group, row, 6]
  | .mirror id off len => [id, off, len, 7]

/-- A ring access that a slab that is not enabled holds: counted once (R132). -/
def State.refuseRing (s : State) (key : List Nat) (pa : Nat) : State :=
  if s.pool.refused.contains key then s
  else State.slabViolation { s with pool := { s.pool with refused := s.pool.refused ++ [key] } } pa

/-- A ring access that has been served. -/
def State.freeRing (s : State) (key : List Nat) : State :=
  { s with pool := { s.pool with refused := s.pool.refused.filter (· != key) } }

/-- Bytes written for a queue pair to an address word of a ring base or event target, which bypasses translation (R71); false where the write is held (R132). DESIGN CHOICE: space 3 has no rule here, and the bytes go to the client's node as for space 2 (assumption 74). -/
def State.ringWrite (s : State) (env : Env) (c w : Nat) (data : List Byte) (why : Purpose) : State × Bool :=
  match spaceOf w with
  | 0 =>
    if !s.inSlabs (addrOf w) data.length then (s.refuseRing (ringKey why) (s.firstOutside (addrOf w) data.length), false)
    else
      match s.poolWrite env .lineCache (addrOf w) data with
      | (s', .ok _ _ _) => (s'.freeRing (ringKey why), true)
      | (s', .fail status _) => (s', status != 0x8004)
      | (s', .held) => (s', false)
  | 1 => if s.ilcActive then (s.emit (.ilcenWrite (addrOf w) data), true) else (s, false)
  | _ => (s.sendClient c opWrite 2 (addrOf w) 0 data why, true)

/-- k of a queue pair (R70). -/
def State.ringLog (s : State) (q j : Nat) : Nat := s.fld (Reg.QUE_QP_CFG q j) Fld.QUE_QP_CFG_ring_log2

/-- Completions written for a queue pair since it was enabled or reset. -/
def State.cqWritten (s : State) (q j : Nat) : Nat := mget (fun _ => 0) s.que.written (q * 1024 + j)

/-- The difference of two counts modulo 2^32. -/
def diff32 (a b : Nat) : Nat := (a % 2 ^ 32 + 2 ^ 32 - b % 2 ^ 32) % 2 ^ 32

/-- A doorbell counted in QUE_DB_CNT. -/
def State.countDoorbell (s : State) (q : Nat) (f : Field) : State := s.countSat (Reg.QUE_DB_CNT q) f 1

/-- A doorbell past its bound: counted, with a queue event (R74). -/
def State.invalidDoorbell (s : State) (c p value : Nat) : State :=
  (s.countDoorbell (c % 4) Fld.QUE_DB_CNT_invalid).raise 0x0301 5 (c % 4) (leBytes 2 c ++ [BitVec.ofNat 8 p, 0] ++ leBytes 4 value)

/-- The field of the tail, or of the completion head. -/
def State.setPtr (s : State) (q j : Nat) (tail : Bool) (v : Nat) : State :=
  if tail then s.setFld (Reg.QUE_QP_SQ_PTR q j) Fld.QUE_QP_SQ_PTR_tail v
  else s.setFld (Reg.QUE_QP_CQ_PTR q j) Fld.QUE_QP_CQ_PTR_head v

/-- The tail or the completion head of a queue pair. -/
def State.ptr (s : State) (q j : Nat) (tail : Bool) : Nat :=
  if tail then s.fld (Reg.QUE_QP_SQ_PTR q j) Fld.QUE_QP_SQ_PTR_tail else s.fld (Reg.QUE_QP_CQ_PTR q j) Fld.QUE_QP_CQ_PTR_head

/-- Where the pair area begins (R422). -/
def State.pairArea (s : State) : Nat := s.fld Reg.PAI_JOURNAL Fld.PAI_JOURNAL_base

/-- PA of the queue record of a queue pair (R422). -/
def State.queueRecordAt (s : State) (q j : Nat) : Nat := s.pairArea + 2 ^ 26 + (q * 1024 + j) * 64

/-- PA of the journal slot of a descriptor (R422). -/
def State.journalAt (s : State) (q j seq : Nat) : Nat := s.pairArea + ((q * 1024 + j) * 64 + seq % 64) * 256

/-- The queue record of a queue pair with a tail and a completion head (R422). -/
def queueRecBytes (tail head : Nat) : List Byte := leBytes 4 tail ++ leBytes 4 head ++ List.replicate 56 0

/-- The latest value accepted for a tail or head: one still held for the partner, or the one in force. -/
def State.latestPtr (s : State) (q j : Nat) (tail : Bool) : Nat :=
  match (s.pair.doorbells.filter fun d => d.q == q && d.j == j && d.tail == tail).getLast? with
  | some d => d.value
  | none => s.ptr q j tail

/-- A doorbell takes effect: at once, or for a paired client after the partner has acknowledged its queue record (R423). -/
def State.acceptDoorbell (s : State) (c j : Nat) (tail : Bool) (v : Nat) : State :=
  let q := c % 4
  if s.paired c then
    let rec' := if tail then queueRecBytes v (s.latestPtr q j false) else queueRecBytes (s.latestPtr q j true) v
    let (s, _, ids) := s.writePool [] (s.queueRecordAt q j) rec' false
    match ids with
    | [] => s.setPtr q j tail v
    | id :: _ => { s with pair := { s.pair with doorbells := s.pair.doorbells ++ [⟨id, q, j, tail, v⟩] } }
  else s.setPtr q j tail v

/-- A doorbell handled by R74, with the checks of R92 and R412. For a paired client the current value is the last one taken, also while it waits for the partner (R423). DESIGN CHOICE: a doorbell of a queue pair that is not enabled is ignored and counted as stale, as during a reset (assumption 68). -/
def State.ring (s : State) (c p : Nat) (tail : Bool) (value : Nat) : State :=
  let q := c % 4
  let j := c / 4 * 8 + p
  if !s.serves c then s.countDoorbell q Fld.QUE_DB_CNT_rejected
  else if !s.on (Reg.QUE_QP_CFG q j) Fld.QUE_QP_CFG_enable || s.on (Reg.QUE_QP_CTL q j) Fld.QUE_QP_CTL_busy then
    s.countDoorbell q Fld.QUE_DB_CNT_stale
  else if 2 ^ 32 ≤ value then s.invalidDoorbell c p value
  else
    let d := diff32 value (s.latestPtr q j tail)
    if d = 0 || 2 ^ 31 ≤ d then s.countDoorbell q Fld.QUE_DB_CNT_stale
    else
      let past := if tail then decide (2 ^ s.ringLog q j < diff32 value (s.ptr q j false))
        else decide (diff32 (s.cqWritten q j) (s.latestPtr q j false) < d)
      if past then s.invalidDoorbell c p value else s.acceptDoorbell c j tail value

/-- The doorbell at an offset of a doorbell page: queue pair and kind (Table QU-2). -/
def doorbellAt (off : Nat) : Option (Nat × Bool) :=
  if off % 8 != 0 then none
  else if off < 0x40 then some (off / 8, true)
  else if 0x100 ≤ off && off < 0x140 then some ((off - 0x100) / 8, false)
  else none

/-- Whether a byte of a doorbell page belongs to a decoded offset (Table QU-2). -/
def doorbellByte (b : Nat) : Bool := b < 0x40 || (0x100 ≤ b && b < 0x140)

/-- The phase bit of a completion (R79). -/
def State.phaseOf (s : State) (k : DescKey) : Nat := 1 - k.seq / 2 ^ s.ringLog k.q k.j % 2

/-- The 32 bytes of a completion (Table QU-4). -/
def State.completionBytes (s : State) (d : Desc) (status result detail : Nat) : List Byte :=
  leBytes 2 (d.u 2 2) ++ leBytes 2 status ++ leBytes 4 d.key.seq ++ leBytes 8 result ++ leBytes 8 detail ++
  leBytes 1 d.op ++ leBytes 1 (d.key.j % 8) ++ List.replicate 5 0 ++ leBytes 1 (s.phaseOf d.key)

/-- The 256 bytes of a journal slot (Table PF-4). -/
def journalBytes (d : Desc) (cpl : List Byte) (state target : Nat) (new old : List Byte) : List Byte :=
  padTo 64 d.bytes ++ padTo 32 cpl ++ leBytes 4 d.key.seq ++ leBytes 1 state ++ List.replicate 3 0 ++ leBytes 8 d.issueNt ++
  leBytes 8 target ++ List.replicate 8 0 ++ padTo 32 new ++ padTo 32 old ++ List.replicate 64 0

/-- A journal slot of a paired client written as an M2 write (R423): the ids to wait for. -/
def State.journal (s : State) (d : Desc) (cpl : List Byte) (state target : Nat) (new old : List Byte) : State × List Nat :=
  let (s, _, ids) := s.writePool [] (s.journalAt d.key.q d.key.j d.key.seq) (journalBytes d cpl state target new old) false
  (s, ids)

/-- ILCEN_DOORBELL_WRITE: an Ilcen write to a doorbell page (R72). Undecoded offsets are ignored; a decoded one takes one aligned 8-byte write. -/
def ilcenDoorbellWriteEff (c : Client) (off : Fin 4096) (data : List Byte) (s : State) : State :=
  if !s.ilcActive then s
  else if !(List.range data.length).any (fun i => doorbellByte (off + i)) then s
  else
    match doorbellAt off with
    | some (p, tail) =>
      if data.length != 8 || (s.sealed && s.isTenant c) then s.countDoorbell (c % 4) Fld.QUE_DB_CNT_rejected
      else s.ring c p tail (ofLE data)
    | none => s.countDoorbell (c % 4) Fld.QUE_DB_CNT_rejected

def execIlcenDoorbellWrite (c : Client) (off : Fin 4096) (data : List Byte) (s : State) : Result :=
  .next (ilcenDoorbellWriteEff c off data s)

/-- DOORBELL: a packet at the local port (R73). -/
def doorbellEff (port : Fin 36) (p : Packet) (s : State) : State :=
  if s.workStopped || p.opcode != opDoorbell then s
  else
    let s := s.takeEjected port p
    let (s, ok) := s.arrives p
    if !ok then s
    else
      let (s, ok) := s.police port p
      if !ok then s
      else
        let c := p.client % 512
        let r := s.reg (clientReg c)
        if getF r Fld.QUE_CLIENT_enable = 1 && getF r Fld.QUE_CLIENT_fabric_db = 1 && p.src == getF r Fld.QUE_CLIENT_node then
          match doorbellAt (leAt p.payload 0 2) with
          | some (n, tail) => s.ring c n tail (leAt p.payload 8 8)
          | none => s
        else s.countDoorbell (c % 4) Fld.QUE_DB_CNT_rejected

def execDoorbell (port : Fin 36) (p : Packet) (s : State) : Result := .next (doorbellEff port p s)

/-- The descriptors of a queue pair in the queue engine, oldest first. -/
def State.qpDescs (s : State) (q j : Nat) : List Desc := s.que.descs.filter fun d => d.key.q.val == q && d.key.j.val == j

/-- Descriptors issued and not completed of a queue pair (QUE_QP_CQ_PTR.inflight). -/
def State.inflight (s : State) (q j : Nat) : Nat := ((s.qpDescs q j).filter fun d => d.phase != .fetched).length

/-- Descriptors issued and not completed of a quadrant (R87). -/
def State.quadInflight (s : State) (q : Nat) : Nat :=
  (s.que.descs.filter fun d => d.key.q.val == q && d.phase != .fetched).length

/-- How many descriptors a turn of a queue pair would fetch now; 0 where it has no pending work (R76, R87, R92, R503). -/
def State.turnSize (s : State) (q j : Nat) : Nat :=
  let fetched := s.fld (Reg.QUE_QP_SQ_PTR q j) Fld.QUE_QP_SQ_PTR_fetched
  let size := 2 ^ s.ringLog q j
  if !s.on (Reg.QUE_QP_CFG q j) Fld.QUE_QP_CFG_enable || s.on (Reg.QUE_QP_CTL q j) Fld.QUE_QP_CTL_busy ||
      s.on (Reg.QUE_QP_CTL q j) Fld.QUE_QP_CTL_fetch_error || !s.runs (clientOf q j) ||
      (s.que.fetches.any fun f => f.q == q && f.j == j) || ((s.qpDescs q j).any fun d => d.phase == .fetched) then 0
  else
    min (min 8 (diff32 (s.ptr q j true) fetched)) (min (size - fetched % size) (size - min size (diff32 fetched (s.ptr q j false))))

/-- The queue pair whose turn is next: in ascending index after the last one served, among those with pending work and turns left; a new pass, and then a new round, begins when none is left (R87). -/
def State.nextTurn (s : State) (q : Nat) : Option (Nat × Round) :=
  let r := s.que.rounds.getD q ⟨none, []⟩
  let work := (List.range 1024).filter fun j => decide (0 < s.turnSize q j)
  let left := work.filter fun j => decide (mget (fun _ => 0) r.used j < s.fld (Reg.QUE_QP_CFG q j) Fld.QUE_QP_CFG_weight)
  let use (used : SMap Nat) (j : Nat) : Option (Nat × Round) :=
    some (j, ⟨some j, mset (fun _ => 0) used j (mget (fun _ => 0) used j + 1)⟩)
  match left.find? (fun j => match r.last with | some l => decide (l < j) | none => true), left, work with
  | some j, _, _ => use r.used j
  | none, j :: _, _ => use r.used j
  | none, [], j :: _ => use [] j
  | none, [], [] => none

/-- FETCH_TURN: the next queue pair takes its turn and its descriptors are asked for (R87). -/
def fetchTurnEff (q : Quad) (s : State) : State :=
  if !s.engineUp q || s.hung q || 4096 ≤ s.quadInflight q then s
  else
    match s.nextTurn q with
    | none => s
    | some (j, r) =>
      let n := s.turnSize q j
      let seq := s.fld (Reg.QUE_QP_SQ_PTR q j) Fld.QUE_QP_SQ_PTR_fetched
      let base := (s.reg (Reg.QUE_QP_SQ_BASE q j)).toNat
      let addr := addrOf base + seq % 2 ^ s.ringLog q j * 64
      let s := { s with que := { s.que with rounds := s.que.rounds.set q r, fetches := s.que.fetches ++ [⟨q, j, seq, n, none⟩] } }
      match spaceOf base with
      | 0 => s
      | 1 => s.emit (.ilcenRead addr (64 * n))
      | _ => s.sendClient (clientOf q j) opRead 0 addr (64 * n) [] (.fetch q j seq n)

def execFetchTurn (q : Quad) (s : State) : Result := .next (fetchTurnEff q s)

/-- A ring fetch that met a data error: fetching stops for the queue pair, with a queue event (R503). -/
def State.fetchFail (s : State) (f : Fetch) (code : Nat) : State :=
  let s := { s with que := { s.que with fetches := s.que.fetches.erase f } }
  let s := s.setFld (Reg.QUE_QP_CTL f.q f.j) Fld.QUE_QP_CTL_fetch_error 1
  s.raise 0x0303 5 f.q (leBytes 2 (clientOf f.q f.j) ++ [BitVec.ofNat 8 (f.j % 8), 0] ++ leBytes 4 f.seq ++ [BitVec.ofNat 8 code])

/-- A descriptor just fetched. -/
def newDesc (key : DescKey) (bytes : List Byte) : Desc :=
  { key := key, bytes := bytes, phase := .fetched, issueNt := 0, order := 0, snap := [], pages := [], progress := 0, written := 0
    delivered := false, asked := false, waits := [], rebuilt := false, resumed := false, status := 0, result := 0, detail := 0
    pieces := [], journal := 0 }

/-- The bytes of a fetch become descriptors that wait for issue. -/
def State.fetchDone (s : State) (q : Quad) (j : Fin 1024) (f : Fetch) (bytes : List Byte) : State :=
  let new := (List.range f.n).map fun i => newDesc ⟨q, j, (f.seq + i) % 2 ^ 32⟩ (slice bytes (64 * i) 64)
  let s := { s with que := { s.que with fetches := s.que.fetches.erase f, descs := s.que.descs ++ new } }
  s.setFld (Reg.QUE_QP_SQ_PTR q j) Fld.QUE_QP_SQ_PTR_fetched (f.seq + f.n)

/-- FETCH_DATA: the descriptors of a fetch arrive: read from the pool, answered over Ilcen, or brought by a READ_DATA packet (R83, R503). -/
def fetchDataEff (q : Quad) (j : Fin 1024) (env : Env) (s : State) : State :=
  match s.que.fetches.find? fun f => f.q == q.val && f.j == j.val with
  | none => s
  | some f =>
    if !s.engineUp q then s
    else
      let base := (s.reg (Reg.QUE_QP_SQ_BASE q j)).toNat
      let addr := addrOf base + f.seq % 2 ^ s.ringLog q j * 64
      match spaceOf base with
      | 0 =>
        let key := ringKey (.fetch q j f.seq f.n)
        if !s.inSlabs addr (64 * f.n) then s.refuseRing key addr
        else
          match s.poolRead env .lineCache key addr (64 * f.n) with
          | (s', .held) => s'
          | (s', .ok d _ _) => (s'.freeRing key).fetchDone q j f d
          | (s', .fail st _) => (s'.freeRing key).fetchFail f (if st = 0x6002 then 2 else 0)
      | 1 =>
        if !s.ilcActive then s
        else if env.extFail then s.fetchFail f 0 else s.fetchDone q j f env.ext
      | _ =>
        match f.data with
        | some d => s.fetchDone q j f d
        | none => s

def execFetchData (q : Quad) (j : Fin 1024) (env : Env) (s : State) : Result := .next (fetchDataEff q j env s)

end Sys2Proof.Machine
end

