-- ==== Sys2Proof/Machine/Translation.lean ====
section
/-! DEFINITION. Segments and translation: the checks of Table SG-2, tiles, the bitmap caches, and translation faults (R96 to R122). -/

namespace Sys2Proof.Machine

open Sys2Proof

/-- Word b of the on-chip entry of a segment of a client (Table SG-7). -/
def State.segWord (s : State) (c seg b : Nat) : Nat := (s.reg (Reg.SEG_ENTRY (c % 4) (c / 4) seg b)).toNat

/-- The on-chip entry of a segment of a client (Table SG-1). -/
def State.segEnt (s : State) (c seg : Nat) : SegEnt :=
  ⟨seg, s.segWord c seg 0, s.segWord c seg 1, s.segWord c seg 2, s.segWord c seg 3, s.segWord c seg 4,
    s.segWord c seg 5 % 256, s.segWord c seg 6 % 2 ^ 32⟩

/-- Whether an entry is valid, writable, and waits on faults (Table SG-1). -/
def SegEnt.valid (e : SegEnt) : Bool := e.flags.testBit 0
def SegEnt.canWrite (e : SegEnt) : Bool := e.flags.testBit 1
def SegEnt.faultWait (e : SegEnt) : Bool := e.flags.testBit 2
def SegEnt.sealed (e : SegEnt) : Bool := e.flags.testBit 3

/-- Whether a client-virtual address lies in a segment (R97). -/
def SegEnt.holds (e : SegEnt) (va : Nat) : Bool := e.valid && decide (e.va ≤ va) && decide (va < e.va + e.len)

/-- The pool address of a client-virtual address in a segment (R97). -/
def SegEnt.paOf (e : SegEnt) (va : Nat) : Nat := e.pa + (va - e.va)

/-- The valid segments of a client. -/
def State.validSegs (s : State) (c : Nat) : List SegEnt := ((List.range 8).map (s.segEnt c)).filter SegEnt.valid

/-- The segment of a snapshot that an address lies in. -/
def segOf (snap : List SegEnt) (va : Nat) : Option SegEnt := snap.find? fun e => e.holds va

/-- The first byte of row r of a tile. -/
def Tile.row (t : Tile) (r : Nat) : Nat := t.va + r * t.stride

/-- The last byte of a tile (R106). -/
def Tile.last (t : Tile) : Nat := t.row (t.rows - 1) + t.rowLen - 1

/-- Bytes of a tile. -/
def Tile.size (t : Tile) : Nat := t.rows * t.rowLen

/-- A page is 2 MiB. -/
def pageSize : Nat := 2 ^ 21

/-- The pages of a tile in a segment with the first byte of the tile in each, in fetch order: row 0 first and ascending addresses within a row (R109). -/
def tilePages (e : SegEnt) (t : Tile) : List (Nat × Nat) :=
  (List.range t.rows).flatMap fun r =>
    let lo := t.row r - e.va
    (List.range ((lo + t.rowLen + pageSize - 1) / pageSize - lo / pageSize)).map fun i =>
      let p := lo / pageSize + i
      (p, e.va + max lo (p * pageSize))

/-- The lease entry of a client and lease ID in its queue engine (R307). -/
def State.leaseOf (s : State) (c id : Nat) : Option Nat :=
  (List.range 256).find? fun e =>
    s.fld (Reg.SHR_LEASE1 (c % 4) e) Fld.SHR_LEASE1_state != 0 &&
    s.fld (Reg.SHR_LEASE1 (c % 4) e) Fld.SHR_LEASE1_client == c && (s.reg (Reg.SHR_LEASE0 (c % 4) e)).toNat == id

/-- The lease check of a segment against an issue instant: 0, or the status (R309). -/
def State.leaseCheck (s : State) (c : Nat) (e : SegEnt) (issueNt : Nat) : Nat :=
  if e.lease = 0 then 0
  else
    match s.leaseOf c e.lease with
    | none => 0x4002
    | some n =>
      let w := s.reg (Reg.SHR_LEASE1 (c % 4) n)
      let st := getF w Fld.SHR_LEASE1_state
      if (st = 1 || st = 2) && issueNt < getF w Fld.SHR_LEASE1_expiry_ms * 1000000 then 0 else 0x4001

/-- Whether a tile of a client touches a tenant slab that the client may not reach (R447). -/
def State.sealedAgainst (s : State) (c : Nat) (e : SegEnt) (t : Tile) : Bool :=
  s.sealed && !s.isTenant c && (List.range t.rows).any fun r => s.touchesTenant (e.paOf (t.row r)) t.rowLen

/-- The detail of a class 2 completion: an address, and a record or 0xFF (R121). -/
def faultDetail (va record : Nat) : Nat := va % 2 ^ 48 + record * 2 ^ 48

/-- The first and the last byte of a range, the set of bytes that an operand addresses (R106). -/
def rangeFirst : List Tile → Nat
  | [] => 0
  | t :: ts => ts.foldl (fun a x => min a x.va) t.va
def rangeLast (ts : List Tile) : Nat := ts.foldl (fun a x => max a x.last) 0

/-- Checks 1 to 5 of Table SG-2 on a range: the segment, or the status and detail of the first check that fails. The lease of a segment checked before is not checked again (R309). -/
def State.rangeCheck (s : State) (c : Nat) (snap : List SegEnt) (issueNt : Nat) (leased : List Nat) (ts : List Tile) : Except (Nat × Nat) SegEnt :=
  match segOf snap (rangeFirst ts) with
  | none => .error (0x2001, faultDetail (rangeFirst ts) 0xFF)
  | some e =>
    if !e.holds (rangeLast ts) then .error (0x2003, faultDetail (e.va + e.len) 0xFF)
    else if (ts.any fun t => t.write) && !e.canWrite then .error (0x3001, 0)
    else if ts.any fun t => s.sealedAgainst c e t then .error (0xA001, 0)
    else
      let l := if leased.contains e.seg then 0 else s.leaseCheck c e issueNt
      if l != 0 then .error (l, 0) else .ok e

/-- A line of the bitmap cache of a quadrant. -/
def State.bmcLine (s : State) (q c seg gen idx : Nat) : Option BmcLine :=
  (s.que.bmc.getD q []).find? fun l => l.client == c && l.seg == seg && l.gen == gen && l.idx == idx

/-- The bitmap cache of a quadrant replaced. -/
def State.setBmc (s : State) (q : Nat) (l : List BmcLine) : State := { s with que := { s.que with bmc := s.que.bmc.set q l } }

/-- A line put into the bitmap cache, in place of the least recently used line of a full set (R112). -/
def State.bmcPut (s : State) (q : Nat) (l : BmcLine) : State :=
  let setOf (x : BmcLine) : Nat := Config.bmcSet x.client x.seg x.gen x.idx % 256
  let c := (s.que.bmc.getD q []).filter fun x => !(x.client == l.client && x.seg == l.seg && x.gen == l.gen && x.idx == l.idx)
  let same := c.filter fun x => setOf x == setOf l
  let c := match (if same.length < 8 then none else same.getLast?) with
    | some v => c.erase v
    | none => c
  s.setBmc q (l :: c)

/-- Bitmap lines dropped. -/
def State.bmcDrop (s : State) (q : Nat) (p : BmcLine → Bool) : State := s.setBmc q ((s.que.bmc.getD q []).filter fun l => !p l)

/-- A bitmap line looked up for a descriptor: counted, and made the most recently used; a miss asks for it, while fewer than 16 fetches are outstanding (R112). A check that waits on the line, or goes on after its fetch, is not counted again. -/
def State.bmcLook (s : State) (k : DescKey) (e : SegEnt) (idx : Nat) : State × Option (List Byte) :=
  let q := k.q.val
  let c := keyClient k
  match s.bmcLine q c e.seg e.gen idx with
  | some l =>
    let s := if l.woken.contains k then s else s.countWrap (Reg.SEG_BMC_CNT q) Fld.SEG_BMC_CNT_hits 1
    (s.bmcPut q { l with woken := l.woken.filter (· != k) }, some l.data)
  | none =>
    let same (f : BmcFill) : Bool := f.q == q && f.client == c && f.seg == e.seg && f.gen == e.gen && f.idx == idx
    match s.que.fills.find? same with
    | some f =>
      if f.waiters.contains k then (s, none)
      else
        let s := s.countWrap (Reg.SEG_BMC_CNT q) Fld.SEG_BMC_CNT_misses 1
        let fills := s.que.fills.map fun (x : BmcFill) => if same x then { x with waiters := x.waiters ++ [k] } else x
        ({ s with que := { s.que with fills := fills } }, none)
    | none =>
      if (s.que.fills.filter fun f => f.q == q).length < 16 then
        let s := s.countWrap (Reg.SEG_BMC_CNT q) Fld.SEG_BMC_CNT_misses 1
        ({ s with que := { s.que with fills := s.que.fills ++ [⟨q, c, e.seg, e.gen, idx, e.bitmap, [k]⟩] } }, none)
      else (s, none)

/-- The present bit of a page in the 64 bytes of its bitmap line (R97). -/
def pageBit (line : List Byte) (page : Nat) : Bool := (leAt line (page / 8 % 64) 1).testBit (page % 8)

/-- What the pages of a tile gave. -/
inductive Pages where
  | present
  | wait
  | absent (page va : Nat)
deriving DecidableEq, Repr

/-- The present bits of the pages of a tile looked up: every line that is missing is asked for (R109, R112). `known` are pages already found present. -/
def State.lookPages (s : State) (k : DescKey) (e : SegEnt) (t : Tile) (known : List Nat) : State × Pages :=
  let pages := (tilePages e t).filter fun p => !known.contains p.1
  let idxs := (pages.map fun p => p.1 / 512).eraseDups
  let (s, lines) := idxs.foldl (fun (a : State × List (Nat × Option (List Byte))) i =>
    let (s, l) := a.1.bmcLook k e i
    (s, a.2 ++ [(i, l)])) (s, [])
  if lines.any fun l => l.2.isNone then (s, .wait)
  else
    let bitOf (p : Nat) : Bool := match lines.find? fun l => l.1 == p / 512 with
      | some (_, some d) => pageBit d p
      | _ => false
    match pages.find? fun p => !bitOf p.1 with
    | some p => (s, .absent p.1 p.2)
    | none => (s, .present)

/-- Pages found present by a stream of a descriptor, the last 16 kept (R110). -/
def Desc.notePages (d : Desc) (requester seg : Nat) (pages : List Nat) : Desc :=
  let mine := (d.pages.filter fun p => p.1 == requester) ++
    ((pages.filter fun p => !d.pages.contains (requester, seg, p)).eraseDups.map fun p => (requester, seg, p))
  { d with pages := (d.pages.filter fun p => p.1 != requester) ++ mine.drop (mine.length - 16) }

/-- The pages of a segment that a stream of a descriptor has found present (R110). -/
def Desc.known (d : Desc) (requester seg : Nat) : List Nat :=
  d.pages.filterMap fun p => if p.1 == requester && p.2.1 == seg then some p.2.2 else none

/-- The stalled tile of a stream. -/
def State.stalledTile (s : State) (k : DescKey) (requester : Nat) : Option StallTile :=
  s.que.tiles.find? fun t => t.key == k && t.requester == requester

/-- Whether a fault record is for a page under a generation (R115). A record that is resuming is still open to the tiles that stall on its page: DESIGN CHOICE: the spec says only "open", and the model joins every record that is not free (assumption 72). -/
def State.recordIs (s : State) (q r c : Nat) (e : SegEnt) (page : Nat) : Bool :=
  let w := s.reg (Reg.SEG_FAULT_REC0 q r)
  let w2 := s.reg (Reg.SEG_FAULT_REC2 q r)
  getF w Fld.SEG_FAULT_REC0_state != 0 && getF w Fld.SEG_FAULT_REC0_client == c && getF w Fld.SEG_FAULT_REC0_segment == e.seg &&
  getF w2 Fld.SEG_FAULT_REC2_generation == e.gen && getF w2 Fld.SEG_FAULT_REC2_page == page

/-- The translation-fault event of a record (R117). -/
def State.faultEvent (s : State) (q r c seg page : Nat) : State :=
  s.raise 0x0401 5 q ([BitVec.ofNat 8 q, BitVec.ofNat 8 r] ++ leBytes 2 c ++ [BitVec.ofNat 8 seg, 0, 0, 0] ++ leBytes 4 page)

/-- A fault record opened (R115, Table SG-6). -/
def State.openRecord (s : State) (q r c : Nat) (e : SegEnt) (page va : Nat) (write : Bool) : State :=
  let w := setF (setF (setF (setF (setF 0 Fld.SEG_FAULT_REC0_va va) Fld.SEG_FAULT_REC0_client c) Fld.SEG_FAULT_REC0_segment e.seg)
    Fld.SEG_FAULT_REC0_write (bit write)) Fld.SEG_FAULT_REC0_state 1
  let s := s.setReg (Reg.SEG_FAULT_REC0 q r) w
  let s := s.setReg (Reg.SEG_FAULT_REC1 q r) 0
  let s := s.setReg (Reg.SEG_FAULT_REC2 q r) (setF (setF 0 Fld.SEG_FAULT_REC2_generation e.gen) Fld.SEG_FAULT_REC2_page page)
  let s := s.setReg (Reg.SEG_FAULT_REC3 q r) (BitVec.ofNat 64 s.nt)
  let s := s.setFld (Reg.SEG_FAULT_OPEN q) Fld.SEG_FAULT_OPEN_open ((s.reg (Reg.SEG_FAULT_OPEN q)).toNat ||| 2 ^ r)
  (s.countSat (Reg.SEG_FAULT_CNT q) Fld.SEG_FAULT_CNT_opened 1).faultEvent q r c e.seg page

/-- A fault record freed. DESIGN CHOICE: its SEG_FAULT_OPEN bit stays 1 until here, also while it is resuming (assumption 73). -/
def State.freeRecord (s : State) (q r : Nat) : State :=
  let s := s.setFld (Reg.SEG_FAULT_REC0 q r) Fld.SEG_FAULT_REC0_state 0
  s.setReg (Reg.SEG_FAULT_OPEN q) (s.reg (Reg.SEG_FAULT_OPEN q) &&& ~~~ BitVec.ofNat 64 (2 ^ r))

/-- A stalled tile leaves its stall slot and record; a record without waiters is free (R118). -/
def State.releaseTile (s : State) (t : StallTile) : State :=
  let q := t.key.q.val
  let s := { s with que := { s.que with tiles := s.que.tiles.erase t } }
  match t.slot, t.record with
  | some n, some r =>
    let s := s.setReg (Reg.SEG_STALL q n) 0
    let s := s.setReg (Reg.SEG_FAULT_REC1 q r) (s.reg (Reg.SEG_FAULT_REC1 q r) &&& ~~~ BitVec.ofNat 64 (2 ^ n))
    if s.reg (Reg.SEG_FAULT_REC1 q r) = 0 then s.freeRecord q r else s
  | _, _ => s

/-- Every stalled tile of a descriptor released. -/
def State.releaseTiles (s : State) (k : DescKey) : State :=
  (s.que.tiles.filter fun t => t.key == k).foldl State.releaseTile s

/-- A descriptor ends on a failed tile: with the status where nothing was delivered, else with 0xF002 (R111). The other tiles of a run, whose instances in flight run to their end (R245), stay where they are. -/
def State.endTile (s : State) (k : DescKey) (status detail : Nat) : State :=
  match s.desc k with
  | none => s
  | some d =>
    if d.phase = .ended then s
    else
      let s := if d.delivered then s.endDesc d 0xF002 0 0 else s.endDesc d status 0 detail
      if (s.desc k).any fun x => x.phase == .ended then s.releaseTiles k else s

/-- A tile that found a page not present stalls: it joins the open record of the page or opens one, and waits without one where the stall slots or records are used up (R115, R116). Where neither a slot nor a record is free and nothing was delivered, the spec gives two outcomes. DESIGN CHOICE: the model takes 0x9003 (assumption 71). -/
def State.stall (s : State) (d : Desc) (requester : Nat) (t : Tile) (e : SegEnt) (page va : Nat) : State :=
  let q := d.key.q.val
  let c := d.client
  let s := s.setDesc { d with resumed := true }
  let joined := (List.range 64).find? fun r => s.recordIs q r c e page
  let free := (List.range 64).find? fun r => s.fld (Reg.SEG_FAULT_REC0 q r) Fld.SEG_FAULT_REC0_state == 0
  let slot := (List.range 64).find? fun n => !s.on (Reg.SEG_STALL q n) Fld.SEG_STALL_valid
  let wait : StallTile := ⟨d.key, requester, t, e, page, va, none, none⟩
  if joined.isNone && free.isNone && !d.delivered then s.endDesc { d with resumed := true } 0x9003 0 0
  else
    match slot, joined.or free with
    | some n, some r =>
      let s := if joined.isSome then s.countSat (Reg.SEG_FAULT_CNT q) Fld.SEG_FAULT_CNT_joined 1
        else s.openRecord q r c e page va t.write
      let s := s.setReg (Reg.SEG_FAULT_REC1 q r) (s.reg (Reg.SEG_FAULT_REC1 q r) ||| BitVec.ofNat 64 (2 ^ n))
      let w := setF (setF (setF (setF (setF 0 Fld.SEG_STALL_valid 1) Fld.SEG_STALL_record r) Fld.SEG_STALL_qp d.key.j)
        Fld.SEG_STALL_requester requester) Fld.SEG_STALL_seq d.key.seq
      let s := s.setReg (Reg.SEG_STALL q n) w
      { s with que := { s.que with tiles := s.que.tiles ++ [{ wait with slot := some n, record := some r }] } }
    | _, _ => { s with que := { s.que with tiles := s.que.tiles ++ [wait] } }

/-- What a tile check gave: the segment; or the tile waits; or the descriptor has ended. -/
inductive Checked where
  | ok (e : SegEnt)
  | wait
  | ended
deriving DecidableEq, Repr

/-- Whether an opcode reads operands, or what its operands' lengths rest on, from memory as it issues (R106, R223, R272, R289, R285). Its snapshot holds every segment of its client (R107), and its own command completes its issue. -/
def readsAddresses (op : Nat) : Bool := op == 0x10 || op == 0x11 || op == 0x12 || op == 0x13

/-- Whether the issue of a descriptor is not yet complete: what it reads at issue has not been read. -/
def Desc.issuing (d : Desc) : Bool := d.phase == .issued && readsAddresses d.op && d.progress == 0

/-- A tile of a started descriptor checked before any of its bytes moves (R109 to R111, R115), or of one that reads operands as it issues (R223). -/
def State.checkTile (s : State) (k : DescKey) (requester : Nat) (t : Tile) : State × Checked :=
  match s.desc k with
  | none => (s, .ended)
  | some d =>
    if d.phase != .started && !d.issuing then (s, .ended)
    else if (s.stalledTile k requester).isSome then (s, .wait)
    else
      match s.rangeCheck d.client d.snap d.issueNt d.leased [t] with
      | .error (status, detail) => (s.endTile k status detail, .ended)
      | .ok e =>
        let (s, r) := s.lookPages k e t (d.known requester e.seg)
        match r with
        | .present => (s.setDesc (d.notePages requester e.seg ((tilePages e t).map (·.1))), .ok e)
        | .wait => (s, .wait)
        | .absent page va =>
          let s := s.stall d requester t e page va
          (s, if (s.stalledTile k requester).isSome then .wait else .ended)

/-- TILE_CHECK: an engine has a tile checked (R109); a stream may ask for up to 4 tiles ahead of the one it moves (R110). -/
def tileCheckEff (k : DescKey) (requester va rowLen rows stride : Nat) (write : Bool) (s : State) : State :=
  if !s.engineUp k.q || rowLen = 0 || rows = 0 || 256 < rows || 2 ^ 18 < rows * rowLen then s
  else (s.checkTile k requester ⟨va, rowLen, rows, stride, write⟩).1

def execTileCheck (k : DescKey) (requester va rowLen rows stride : Nat) (write : Bool) (s : State) : Result :=
  .next (tileCheckEff k requester va rowLen rows stride write s)

/-- A bitmap line that could not be read ends every descriptor whose check waits on it (R112): 0x8004 for a disabled slab, 0x6001 for a lost granule with the bytes written as detail. -/
def State.endWaiter (s : State) (status : Nat) (k : DescKey) : State :=
  match s.desc k with
  | none => s
  | some d =>
    if d.phase = .ended then s
    else if status = 0x8004 then (s.endTile k 0x8004 0).noteAbort k 999
    else
      let s := s.endDesc d status 0 d.written
      (if (s.desc k).any fun x => x.phase == .ended then s.releaseTiles k else s).noteAbort k 999

/-- BITMAP_LINE_FILL: a bitmap line fetch returns (R112). -/
def bitmapLineFillEff (q : Quad) (c : Client) (seg : Fin 8) (gen line : Nat) (env : Env) (s : State) : State :=
  match s.que.fills.find? fun f => f.q == q.val && f.client == c.val && f.seg == seg.val && f.gen == gen && f.idx == line with
  | none => s
  | some f =>
    if !s.engineUp q then s
    else
      match s.poolRead env .lineCache [q, c, seg, gen, line, 2] (f.bitmap + 64 * line) 64 with
      | (s', .held) => s'
      | (s', .ok d _ _) =>
        let s' := { s' with que := { s'.que with fills := s'.que.fills.erase f } }
        s'.bmcPut q ⟨c, seg, gen, line, d, f.waiters⟩
      | (s', .fail st _) =>
        let s' := { s' with que := { s'.que with fills := s'.que.fills.erase f } }
        f.waiters.foldl (fun s k => s.endWaiter st k) s'

def execBitmapLineFill (q : Quad) (c : Client) (seg : Fin 8) (gen line : Nat) (env : Env) (s : State) : Result :=
  .next (bitmapLineFillEff q c seg gen line env s)

/-- A tile that passes after it stalled: it leaves its slot and record, and its stream knows its pages (R110, R118). -/
def State.passTile (s : State) (t : StallTile) : State :=
  let s := s.releaseTile t
  match s.desc t.key with
  | some d => s.setDesc (d.notePages t.requester t.ent.seg ((tilePages t.ent t.tile).map (·.1)))
  | none => s

/-- The pages that the stream of a stalled tile knows. -/
def State.knownOf (s : State) (t : StallTile) : List Nat := ((s.desc t.key).map fun d => d.known t.requester t.ent.seg).getD []

/-- FAULT_RECHECK: a tile that waits without a stall slot or record checks its pages again (R116). -/
def faultRecheckEff (k : DescKey) (requester : Nat) (s : State) : State :=
  match s.stalledTile k requester, s.desc k with
  | some t, some d =>
    if t.slot.isSome || !s.engineUp k.q then s
    else
      let (s, r) := s.lookPages k t.ent t.tile (s.knownOf t)
      match r with
      | .present => s.passTile t
      | .wait => s
      | .absent page va => ({ s with que := { s.que with tiles := s.que.tiles.erase t } }).stall d requester t.tile t.ent page va
  | _, _ => s

def execFaultRecheck (k : DescKey) (requester : Nat) (s : State) : Result := .next (faultRecheckEff k requester s)

/-- The waiters of a record. -/
def State.waitersOf (s : State) (q r : Nat) : List StallTile :=
  s.que.tiles.filter fun t => t.key.q.val == q && t.record == some r

/-- A waiter ends as aborted: 0x2002 with the record, or 0xF002 once its descriptor has delivered (R120). The tiles of a run that wait on other records go on waiting. -/
def State.abortTile (s : State) (t : StallTile) : State :=
  ((s.endTile t.key 0x2002 (faultDetail t.va (t.record.getD 0xFF))).releaseTile t).noteAbort t.key t.requester

/-- Every waiter of a record ends (R118, R119). -/
def State.abortRecord (s : State) (q r : Nat) : State :=
  let s := s.countSat (Reg.SEG_FAULT_CNT q) Fld.SEG_FAULT_CNT_ended 1
  ((s.waitersOf q r).foldl State.abortTile s).freeRecord q r

/-- A write of SEG_FAULT_RESOLVE: resume or abort an open record; anything else is ignored and logged (R118). -/
def faultResolveWrite (path : Path) (q : Nat) (value : Word) (s : State) : State :=
  let off := Reg.SEG_FAULT_RESOLVE q
  let r := getF value Fld.SEG_FAULT_RESOLVE_index
  let w := s.reg (Reg.SEG_FAULT_REC0 q r)
  let action := getF value Fld.SEG_FAULT_RESOLVE_action
  if action = 0 || action = 3 || getF w Fld.SEG_FAULT_REC0_state != 1 then s.logViol path 4 off
  else if action = 2 then s.abortRecord q r
  else
    let page := s.fld (Reg.SEG_FAULT_REC2 q r) Fld.SEG_FAULT_REC2_page
    let gen := s.fld (Reg.SEG_FAULT_REC2 q r) Fld.SEG_FAULT_REC2_generation
    let c := getF w Fld.SEG_FAULT_REC0_client
    let seg := getF w Fld.SEG_FAULT_REC0_segment
    let s := s.bmcDrop q fun l => l.client == c && l.seg == seg && l.gen == gen && l.idx == page / 512
    s.setFld (Reg.SEG_FAULT_REC0 q r) Fld.SEG_FAULT_REC0_state 2

def execSegFaultResolveResume (path : Path) (q : Quad) (value : Word) (s : State) : Result :=
  .next (faultResolveWrite path q (setF value Fld.SEG_FAULT_RESOLVE_action 1) s)

def execSegFaultResolveAbort (path : Path) (q : Quad) (value : Word) (s : State) : Result :=
  .next (faultResolveWrite path q (setF value Fld.SEG_FAULT_RESOLVE_action 2) s)

/-- A bitmap line that could not be read again ends a waiter of its record (R112, R118). -/
def State.failWaiter (s : State) (status : Nat) (t : StallTile) : State := (s.endWaiter status t.key).releaseTile t

/-- Whether every bitmap line that a stalled tile needs is cached. -/
def State.linesCached (s : State) (t : StallTile) : Bool :=
  let known := s.knownOf t
  (((tilePages t.ent t.tile).filter fun p => !known.contains p.1).map fun p => p.1 / 512).all fun i =>
    (s.bmcLine t.key.q (keyClient t.key) t.ent.seg t.ent.gen i).isSome

/-- A waiter checked again after a resume: it is released, stays, or leaves the record for another page (R118). -/
def State.recheckWaiter (s : State) (page : Nat) (t : StallTile) : State :=
  let (s, r) := s.lookPages t.key t.ent t.tile (s.knownOf t)
  match r with
  | .present => s.passTile t
  | .absent p va =>
    if p = page then s
    else
      let s := s.releaseTile t
      match s.desc t.key with
      | some d => s.stall d t.requester t.tile t.ent p va
      | none => s
  | .wait => s

/-- FAULT_RESUME_DONE: the line of a resuming record has been read again, and its waiters are checked (R118). While a waiter's tile needs a further line that is not cached, that line is asked for and the record goes on resuming. -/
def faultResumeDoneEff (q : Quad) (r : Fin 64) (env : Env) (s : State) : State :=
  let w := s.reg (Reg.SEG_FAULT_REC0 q r)
  let page := s.fld (Reg.SEG_FAULT_REC2 q r) Fld.SEG_FAULT_REC2_page
  if getF w Fld.SEG_FAULT_REC0_state != 2 || !s.engineUp q then s
  else
    match s.waitersOf q r with
    | [] => s.freeRecord q r
    | t :: ts =>
      match s.poolRead env .lineCache [q, r, page, 3] (t.ent.bitmap + 64 * (page / 512)) 64 with
      | (s', .held) => s'
      | (s', .fail st _) =>
        ((t :: ts).foldl (fun s x => s.failWaiter st x) s').freeRecord q r
      | (s', .ok d _ _) =>
        let c := getF w Fld.SEG_FAULT_REC0_client
        let s' := s'.bmcPut q ⟨c, t.ent.seg, t.ent.gen, page / 512, d, []⟩
        let lacking := (t :: ts).filter fun x => !s'.linesCached x
        if !lacking.isEmpty then lacking.foldl (fun (s : State) x => (s.lookPages x.key x.ent x.tile (s.knownOf x)).1) s'
        else
        let s' := s'.setFld (Reg.SEG_FAULT_REC0 q r) Fld.SEG_FAULT_REC0_state 1
        let s' := (t :: ts).foldl (fun s x => s.recheckWaiter page x) s'
        if (s'.waitersOf q r).isEmpty || s'.fld (Reg.SEG_FAULT_REC2 q r) Fld.SEG_FAULT_REC2_page != page then s' else s'.faultEvent q r c t.ent.seg page

def execFaultResumeDone (q : Quad) (r : Fin 64) (env : Env) (s : State) : Result := .next (faultResumeDoneEff q r env s)

/-- FAULT_TIMEOUT: an open record is older than timeout_ms (R119). -/
def faultTimeoutEff (q : Quad) (r : Fin 64) (s : State) : State :=
  let ms := s.fld (Reg.SEG_CTL q) Fld.SEG_CTL_timeout_ms
  if s.workStopped || ms = 0 || s.fld (Reg.SEG_FAULT_REC0 q r) Fld.SEG_FAULT_REC0_state != 1 ||
      s.nt < (s.reg (Reg.SEG_FAULT_REC3 q r)).toNat + ms * 1000000 then s
  else s.abortRecord q r

def execFaultTimeout (q : Quad) (r : Fin 64) (s : State) : Result := .next (faultTimeoutEff q r s)

/-- A write of SEG_BMC_INV: the client and segments, and with go their lines dropped (Table SG-5). -/
def bmcInvWrite (path : Path) (q : Nat) (value : Word) (s : State) : State :=
  let off := Reg.SEG_BMC_INV q
  let s := s.writeFields path off value
  if getF value Fld.SEG_BMC_INV_go = 1 then
    let c := getF value Fld.SEG_BMC_INV_client
    if s.on off Fld.SEG_BMC_INV_busy || c % 4 != q then s.logViol path 4 off
    else
      let every := getF value Fld.SEG_BMC_INV_all_segments == 1
      let s := s.bmcDrop q fun l => l.client == c && (every || l.seg == getF value Fld.SEG_BMC_INV_segment)
      s.setFld off Fld.SEG_BMC_INV_busy 1
  else s

def execSegBmcInv (path : Path) (q : Quad) (value : Word) (s : State) : Result :=
  .next (bmcInvWrite path q (setF value Fld.SEG_BMC_INV_go 1) s)

def execSegBmcInvDone (q : Quad) (s : State) : Result := .next (s.setFld (Reg.SEG_BMC_INV q) Fld.SEG_BMC_INV_busy 0)

end Sys2Proof.Machine
end

