-- ==== Sys2Proof/Machine/QueueRows.lean ====
section
/-! DEFINITION. NOP, FENCE and SEG_SYNC, queue-pair reset and client retirement (R81, R86, R92, R93, R100 to R105). -/

namespace Sys2Proof.Machine

open Sys2Proof

/-- Whether the Settings of every quadrant accept work (FAC_CTL.enable, Table FA-8). -/
def State.settingsAccept (s : State) : Bool := (List.range 4).all fun q => s.on (Reg.FAC_CTL q) Fld.FAC_CTL_enable

/-- The started descriptor of a key, where its opcode is as given and its engine runs. -/
def State.jobOf (s : State) (k : DescKey) (op : Nat) : Option Desc :=
  match s.desc k with
  | some d => if d.phase == .started && d.op == op && s.engineUp k.q then some d else none
  | none => none

/-- The descriptor of a key whose issue is to be completed, where its opcode is as given and its engine runs (R106). -/
def State.issuingOf (s : State) (k : DescKey) (op : Nat) : Option Desc :=
  match s.desc k with
  | some d => if d.issuing && d.op == op && s.engineUp k.q && !s.hung k.q then some d else none
  | none => none

/-- A read of a descriptor's control data or of KV data: what it met is noted, and nothing is delivered by it (R15, R111, R120). -/
def State.noteRead (s : State) (k : DescKey) (rebuilt : Bool) : State :=
  match s.desc k with
  | some d => s.setDesc { d with rebuilt := d.rebuilt || rebuilt }
  | none => s

/-- NOP completes with result 0 (Table QU-5). -/
def nopEff (k : DescKey) (s : State) : State :=
  match s.jobOf k 0x00 with
  | some d => s.endDesc d 0 0 0
  | none => s

def execNop (k : DescKey) (s : State) : Result := .next (nopEff k s)

/-- Issue stopped for the client of a descriptor (R86). -/
def State.holdClient (s : State) (d : Desc) : State :=
  if s.que.fences.any fun f => f.key == d.key then s
  else { s with que := { s.que with fences := s.que.fences ++ [⟨d.client, d.order, d.key⟩] } }

/-- Whether every descriptor of the client that issued before this one has completed (R86). -/
def State.earlierDone (s : State) (d : Desc) : Bool :=
  !s.que.descs.any fun x => x.client == d.client && x.phase != .fetched && decide (x.order < d.order)

/-- FENCE: issue stops for its client, and the fence waits (R86). -/
def fenceEff (k : DescKey) (s : State) : State :=
  match s.jobOf k 0x04 with
  | some d => (s.holdClient d).setDesc { d with progress := 1 }
  | none => s

def execFence (k : DescKey) (s : State) : Result := .next (fenceEff k s)

/-- FENCE_COMPLETION: every earlier descriptor of the client has completed (R86). -/
def fenceCompletionEff (k : DescKey) (s : State) : State :=
  match s.jobOf k 0x04 with
  | some d => if d.progress = 1 && s.earlierDone d then s.endDesc d 0 0 0 else s
  | none => s

def execFenceCompletion (k : DescKey) (s : State) : Result := .next (fenceCompletionEff k s)

/-- The target client and the segment of a SEG_SYNC (Table QU-5). -/
def syncClient (d : Desc) : Nat := d.u 10 2
def syncSeg (d : Desc) : Nat := d.u 8 1

/-- Bytes of the usable pool (R100). -/
def State.usable' (s : State) : Nat := s.slabCount * 2 ^ 30

/-- The last byte plus one of a segment's bitmap (R97). -/
def bitmapEnd (e : SegEnt) : Nat := e.bitmap + cdiv (e.len / pageSize) 512 * 64

/-- Whether two entries overlap as client-virtual ranges. -/
def segsOverlap (a b : SegEnt) : Bool := decide (a.va < b.va + b.len) && decide (b.va < a.va + a.len)

/-- Whether a sealed Bezel refuses a load (R447). -/
def State.sealRefusesLoad (s : State) (c : Nat) (e old : SegEnt) : Bool :=
  s.bezel == 1 &&
  ((s.touchesTenant e.pa e.len && !(e.sealed && s.isTenant c)) ||
   (old.valid && old.sealed && (e.va != old.va || e.pa != old.pa || !e.sealed)))

/-- The status of a SEG_SYNC load whose master entry has been read: 0 where it is accepted (R100, R447). -/
def State.loadStatus (s : State) (c seg : Nat) (m : List Byte) : Nat :=
  let w (i : Nat) : Nat := leAt m (8 * i) 8
  let e : SegEnt := ⟨seg, w 0, w 1, w 2, w 3, w 4, leAt m 40 1, 0⟩
  if !e.valid then 0
  else if 2 ^ 48 ≤ w 0 || 2 ^ 44 ≤ w 2 || 2 ^ 44 ≤ w 3 || 16 ≤ leAt m 40 1 || leAt m 41 7 != 0 || leAt m 52 12 != 0 then 0x8002
  else if e.va % pageSize != 0 || e.pa % pageSize != 0 || e.bitmap % 64 != 0 then 0x8003
  else if e.len % pageSize != 0 || e.len < pageSize || 2 ^ 44 < e.len || 2 ^ 48 < e.va + e.len || s.usable' < e.pa + e.len ||
      s.usable' < bitmapEnd e then 0x8004
  else if (s.validSegs c).any fun x => x.seg != seg && segsOverlap e x then 0x8004
  else if s.sealRefusesLoad c e (s.segEnt c seg) then 0xA001
  else 0

/-- The eight words to be installed from a master entry: all zero where it is not valid (R100). -/
def installWords (m : List Byte) : List Nat :=
  if (leAt m 40 1).testBit 0 then [leAt m 0 8, leAt m 8 8, leAt m 16 8, leAt m 24 8, leAt m 32 8, leAt m 40 1, 0, 0]
  else List.replicate 8 0

/-- A SEG_SYNC that waits for its installation. -/
def State.addSync (s : State) (d : Desc) (words : List Nat) : State :=
  let y : SegSync := ⟨d.key, d.order, syncClient d, syncSeg d, words, none⟩
  State.setDesc { s with que := { s.que with syncs := s.que.syncs ++ [y] } } { d with progress := 1 }

/-- SEG_SYNC_LOAD: the master entry is read over Ilcen and checked (R100). -/
def segSyncLoadEff (k : DescKey) (env : Env) (s : State) : State :=
  match s.jobOf k 0x06 with
  | some d =>
    if d.u 9 1 != 0 || d.progress != 0 || !s.ilcActive then s
    else
      let s := s.emit (.ilcenRead (addrOf (d.u 16 8)) 64)
      if env.extFail then s.endDesc d 0x6002 0 0
      else
        let st := s.loadStatus (syncClient d) (syncSeg d) (padTo 64 env.ext)
        if st = 0 then s.addSync d (installWords (padTo 64 env.ext)) else s.endDesc d st 0 0
  | none => s

def execSegSyncLoad (k : DescKey) (env : Env) (s : State) : Result := .next (segSyncLoadEff k env s)

/-- SEG_SYNC_INVALIDATE: an entry of zeros waits for its installation (R100, R101). -/
def segSyncInvalidateEff (k : DescKey) (s : State) : State :=
  match s.jobOf k 0x06 with
  | some d => if d.u 9 1 != 1 || d.progress != 0 then s else s.addSync d (List.replicate 8 0)
  | none => s

def execSegSyncInvalidate (k : DescKey) (s : State) : Result := .next (segSyncInvalidateEff k s)

/-- SHR_LEASE.segs of the entries of a client: the valid segments that name each lease (Table SH-6). -/
def State.noteSegs (s : State) (c : Nat) : State :=
  (List.range 256).foldl (fun (s : State) e =>
    let w := s.reg (Reg.SHR_LEASE1 (c % 4) e)
    if getF w Fld.SHR_LEASE1_state != 0 && getF w Fld.SHR_LEASE1_client == c then
      let id := (s.reg (Reg.SHR_LEASE0 (c % 4) e)).toNat
      let m := (s.validSegs c).foldl (fun n x => if x.lease = id then n + 2 ^ x.seg else n) 0
      s.setFld (Reg.SHR_LEASE1 (c % 4) e) Fld.SHR_LEASE1_segs m
    else s) s

/-- An entry installed in one step: the generation rises by one and the bitmap lines of older generations are dropped (R101). -/
def State.installEntry (s : State) (c seg : Nat) (words : List Nat) : State :=
  let gen := ((s.segEnt c seg).gen + 1) % 2 ^ 32
  let s := (List.range 8).foldl (fun (s : State) b =>
    s.setReg (Reg.SEG_ENTRY (c % 4) (c / 4) seg b) (BitVec.ofNat 64 (if b = 6 then gen else words.getD b 0))) s
  (s.bmcDrop (c % 4) fun l => l.client == c && l.seg == seg && l.gen != gen).noteSegs c

/-- The SEG_SYNC of a key. -/
def State.syncOf (s : State) (k : DescKey) : Option SegSync := s.que.syncs.find? fun y => y.key == k

/-- Whether an earlier SEG_SYNC of the same segment is still to be installed (R105). -/
def State.earlierSync (s : State) (d : Desc) : Bool :=
  s.que.descs.any fun x => x.op == 0x06 && syncClient x == syncClient d && syncSeg x == syncSeg d &&
    (x.phase == .issued || x.phase == .started) && decide (x.order < d.order) &&
    !(match s.syncOf x.key with
      | some y => y.gen.isSome
      | none => false)

/-- SEG_SYNC_INSTALL: an accepted entry is installed, in issue order (R101, R105). -/
def segSyncInstallEff (k : DescKey) (s : State) : State :=
  match s.jobOf k 0x06, s.syncOf k with
  | some d, some y =>
    if y.gen.isSome || s.earlierSync d then s
    else
      let s := s.installEntry y.client y.seg y.words
      let y' := { y with gen := some (s.segEnt y.client y.seg).gen }
      { s with que := { s.que with syncs := s.que.syncs.map fun x => if x == y then y' else x } }
  | _, _ => s

def execSegSyncInstall (k : DescKey) (s : State) : Result := .next (segSyncInstallEff k s)

/-- SEG_SYNC_COMPLETION: no descriptor holds a snapshot of an older generation any more (R102). -/
def segSyncCompletionEff (k : DescKey) (s : State) : State :=
  match s.jobOf k 0x06, s.syncOf k with
  | some d, some y =>
    match y.gen with
    | none => s
    | some g =>
      let older (e : SegEnt) : Bool := e.seg == y.seg && decide (0 < diff32 g e.gen) && decide (diff32 g e.gen < 2 ^ 31)
      if s.que.descs.any fun x => x.client == y.client && x.phase != .fetched && x.snap.any older then s
      else { s with que := { s.que with syncs := s.que.syncs.erase y } }.endDesc d 0 g 0
  | _, _ => s

def execSegSyncCompletion (k : DescKey) (s : State) : Result := .next (segSyncCompletionEff k s)

/-- The READs of a queue pair's fetches, after these were dropped: what waits is not sent, and what is on its way is answered into nothing (R92). -/
def Router.dropFetches (r : Router) (q j : Nat) : Router :=
  let mine (p : Purpose) : Bool := match p with
    | .fetch q' j' _ _ => q' == q && j' == j
    | _ => false
  { r with
    tags := r.tags.map fun (t : Tag) => match t.purpose with
      | .fetch q' j' seq n => if q' == q && j' == j then { t with purpose := .fetch q' j' (seq % 2 ^ 32 + 2 ^ 32) n } else t
      | _ => t
    waiting := r.waiting.filter fun w => !mine w.2.2.1 }

/-- Whether a WRITE of a completion of a queue pair is not yet acknowledged (R92). -/
def State.cplOpen (s : State) (q j : Nat) : Bool :=
  let mine (p : Purpose) : Bool := match p with
    | .completion q' j' seq => q' == q && j' == j && decide (seq < 2 ^ 32)
    | _ => false
  (s.router.tags.any fun t => mine t.purpose) || s.router.waiting.any fun w => mine w.2.2.1

/-- A queue pair is reset: nothing more is fetched, unissued descriptors are discarded, unstarted ones end with 0xF001, and stalled tiles are aborted (R92, R119). -/
def State.startReset (s : State) (q j : Nat) : State :=
  let mine (k : DescKey) : Bool := k.q.val == q && k.j.val == j
  let s := s.setFld (Reg.QUE_QP_CTL q j) Fld.QUE_QP_CTL_busy 1
  let s : State := { s with
    que := { s.que with
      descs := s.que.descs.filter fun (d : Desc) => !(mine d.key && d.phase == .fetched)
      fetches := s.que.fetches.filter fun f => !(f.q == q && f.j == j)
      zeroing := s.que.zeroing ++ [RingZero.mk q j false] }
    router := s.router.dropFetches q j
    pool := { s.pool with refused := s.pool.refused.filter fun k => !(k.length == 4 && k.take 2 == [q, j]) }
    pair := { s.pair with doorbells := s.pair.doorbells.filter fun d => !(d.q == q && d.j == j) } }
  let s := ((s.qpDescs q j).filter fun d => d.phase == .issued).foldl (fun (s : State) d => s.endDesc d 0xF001 0 0) s
  (s.que.tiles.filter fun (t : StallTile) => mine t.key).foldl State.abortTile s

/-- A write of QUE_QP_CTL: reset of an enabled queue pair that is not already being reset (R92). DESIGN CHOICE: any other reset is ignored and logged with kind 4 (assumption 69). -/
def qpCtlWrite (path : Path) (q j : Nat) (value : Word) (s : State) : State :=
  let off := Reg.QUE_QP_CTL q j
  if getF value Fld.QUE_QP_CTL_reset = 1 then
    if s.on off Fld.QUE_QP_CTL_busy || !s.on (Reg.QUE_QP_CFG q j) Fld.QUE_QP_CFG_enable then s.logViol path 4 off
    else s.startReset q j
  else s

def execQpReset (path : Path) (q : Quad) (j : Fin 1024) (value : Word) (s : State) : Result :=
  .next (qpCtlWrite path q j (setF value Fld.QUE_QP_CTL_reset 1) s)

/-- The completion ring of a queue pair zeroed, one 32-byte write for each slot; false where it is not yet done (R92). -/
def State.zeroRing (s : State) (env : Env) (q j : Nat) : State × Bool :=
  let base := (s.reg (Reg.QUE_QP_CQ_BASE q j)).toNat
  let n := 2 ^ s.ringLog q j
  let zero := List.replicate 32 (0 : Byte)
  match spaceOf base with
  | 0 =>
    if !s.inSlabs (addrOf base) (32 * n) then (s.refuseRing [q, j, 0, 8] (addrOf base), false)
    else
      match s.poolWrite env .lineCache (addrOf base) (List.replicate (32 * n) 0) with
      | (s', .held) => (s', false)
      | (s', _) => (s'.freeRing [q, j, 0, 8], true)
  | 1 =>
    if s.ilcActive then ((List.range n).foldl (fun (s : State) i => s.emit (.ilcenWrite (addrOf base + 32 * i) zero)) s, true)
    else (s, false)
  | _ =>
    let c := clientOf q j
    if s.que.zeroing.any fun z => z.q == q && z.j == j && z.sent then
      (s, (s.tagsFor fun p => match p with
        | .completion q' j' seq => q' == q && j' == j && decide (2 ^ 32 ≤ seq)
        | _ => false).isEmpty &&
        !(s.router.waiting.any fun w => match w.2.2.1 with
          | .completion q' j' seq => q' == q && j' == j && decide (2 ^ 32 ≤ seq)
          | _ => false))
    else
      let zs := s.que.zeroing.map fun (z : RingZero) => if z.q == q && z.j == j then { z with sent := true } else z
      let s := { s with que := { s.que with zeroing := zs } }
      ((List.range n).foldl (fun (s : State) i =>
        s.sendClient c opWrite 2 (addrOf base + 32 * i) 0 zero (.completion q j (2 ^ 32 + i))) s, false)

/-- QP_RESET_DONE: nothing is in flight and every completion WRITE is acknowledged; the ring is zeroed and the pointers are cleared (R92, R423). -/
def qpResetDoneEff (q : Quad) (j : Fin 1024) (env : Env) (s : State) : State :=
  if !s.on (Reg.QUE_QP_CTL q j) Fld.QUE_QP_CTL_busy || !(s.qpDescs q j).isEmpty || s.cplOpen q j || s.workStopped then s
  else
    let (s, done) := s.zeroRing env q j
    if !done then s
    else
      let s := (s.setReg (Reg.QUE_QP_SQ_PTR q j) 0).setReg (Reg.QUE_QP_CQ_PTR q j) 0
      let s := (s.setFld (Reg.QUE_QP_CTL q j) Fld.QUE_QP_CTL_busy 0).setFld (Reg.QUE_QP_CTL q j) Fld.QUE_QP_CTL_fetch_error 0
      let s := { s with que := { s.que with
        written := mset (fun _ => 0) s.que.written (q * 1024 + j) 0
        zeroing := s.que.zeroing.filter fun z => !(z.q == q.val && z.j == j.val) } }
      if s.paired (clientOf q j) then
        let s := (s.writePool env.ecc (s.queueRecordAt q j) (queueRecBytes 0 0) false).1
        (s.writePool env.ecc (s.journalAt q j 0) (List.replicate (64 * 256) 0) false).1
      else s

def execQpResetDone (q : Quad) (j : Fin 1024) (env : Env) (s : State) : Result := .next (qpResetDoneEff q j env s)

/-- The local indices of the queue pairs of a client. -/
def qpsOf (c : Nat) : List Nat := (List.range 8).map fun p => c / 4 * 8 + p

/-- A write of QUE_RETIRE: the client, which takes the write at once (R5), and with go its retirement unless one runs (R93); refused for a tenant client under a sealed Bezel (Table SE-7). DESIGN CHOICE: go for a client of another quadrant is ignored, and an ignored go is logged with kind 4 (assumption 70). -/
def retireWrite (path : Path) (q : Nat) (value : Word) (s : State) : State :=
  let off := Reg.QUE_RETIRE q
  if s.sealRefuses path off value then s.logViol path 7 off
  else
    let busy := s.on off Fld.QUE_RETIRE_busy
    let go := getF value Fld.QUE_RETIRE_go == 1
    let c := getF value Fld.QUE_RETIRE_client
    let s := s.writeFields path off value
    if go && (busy || c % 4 != q) then s.logViol path 4 off
    else
      if go then
        let s : State := { s.setFld off Fld.QUE_RETIRE_busy 1 with que := { s.que with retiring := s.que.retiring ++ [(q, c)] } }
        ((qpsOf c).filter fun j => s.on (Reg.QUE_QP_CFG q j) Fld.QUE_QP_CFG_enable && !s.on (Reg.QUE_QP_CTL q j) Fld.QUE_QP_CTL_busy).foldl
          (fun (s : State) j => s.startReset q j) s
      else s

def execRetire (path : Path) (q : Quad) (value : Word) (s : State) : Result :=
  .next (retireWrite path q (setF value Fld.QUE_RETIRE_go 1) s)

/-- RETIRE_DONE: the queue pairs are reset; the segments are invalidated, the incarnation rises and the client's tags go into quarantine (R93, R393). -/
def retireDoneEff (q : Quad) (s : State) : State :=
  let off := Reg.QUE_RETIRE q
  let c := ((s.que.retiring.find? fun x => x.1 == q.val).map (·.2)).getD (s.fld off Fld.QUE_RETIRE_client)
  if !s.on off Fld.QUE_RETIRE_busy || (qpsOf c).any fun j => s.on (Reg.QUE_QP_CTL q j) Fld.QUE_QP_CTL_busy then s
  else
    let s := (List.range 8).foldl (fun (s : State) seg => s.installEntry c seg (List.replicate 8 0)) s
    let s := s.setFld (clientReg c) Fld.QUE_CLIENT_incarnation (s.fld (clientReg c) Fld.QUE_CLIENT_incarnation + 1)
    let s := (s.router.tags.filter fun t => t.pkt.client == c).foldl (fun (s : State) t => s.releaseTag t.tag) s
    let s := { s with router := { s.router with waiting := s.router.waiting.filter fun w => w.2.1.client != c } }
    { s.setFld off Fld.QUE_RETIRE_busy 0 with que := { s.que with retiring := s.que.retiring.filter fun x => x.1 != q.val } }

def execRetireDone (q : Quad) (s : State) : Result := .next (retireDoneEff q s)

end Sys2Proof.Machine
end

