-- ==== Sys2Proof/Machine/Movers.lean ====
section
/-! DEFINITION. MOVE, FILL and ATOMIC (R148 to R150). -/

namespace Sys2Proof.Machine

open Sys2Proof

/-- The mover that runs a descriptor, once one is taken (R206). -/
def Desc.moverNo (d : Desc) : Nat := d.mover.getD 0

/-- The requester code of the mover that runs a descriptor (Table SG-7). -/
def moverCode (d : Desc) : Nat := d.moverNo / 4 * 8 + d.moverNo % 4

/-- What a mover works on: transfers of a run, and descriptors. -/
def State.moverLoad (s : State) (m : Nat) : Nat :=
  (s.rcp.transfers.filter fun t => t.mover == m).length + (s.que.descs.filter fun (x : Desc) => x.phase == .started && x.mover == some m).length

/-- One of several movers; which of them the spec leaves open. -/
def pickMover (n : Nat) (ms : List Nat) : Nat := ms.getD ((Config.moverOf n).val % ms.length) 0

/-- The least-loaded movers of a quadrant. -/
def State.idlest (s : State) (q : Nat) : List Nat :=
  let ms := (List.range 32).map (· + 32 * q)
  ms.filter fun m => ms.all fun x => decide (s.moverLoad m ≤ s.moverLoad x)

/-- The mover that the queue engine takes for a descriptor whose first source byte lies at an address: a free mover of the Setting whose stack holds it, if that lies in the quadrant, else the least-loaded of the quadrant (R206). -/
def State.moverFor? (s : State) (d : Desc) (src : Option Nat) : Nat :=
  let st := (src.bind fun va => segOf d.snap va).bind fun e => (s.mapPA (e.paOf (src.getD 0))).map (·.1)
  let near := match st with
    | some n => if n / 8 = d.key.q.val then ((List.range 4).map (· + 4 * n)).filter fun m => s.moverLoad m == 0 else []
    | none => []
  pickMover d.order (if near.isEmpty then s.idlest d.key.q else near)

/-- A descriptor with its mover: the one it has, or the one taken for it now. A FILL has no source, and takes the least-loaded mover of its quadrant. -/
def State.withMover (s : State) (d : Desc) (src : Option Nat) : State × Desc :=
  match d.mover with
  | some _ => (s, d)
  | none =>
    let d := { d with mover := some (s.moverFor? d src) }
    (s.setDesc d, d)

/-- The rows of a tile of an operation over rows × rowLen bytes: tile n covers rows from the first number on, as many as the second, and of each the bytes from the third on, as many as the fourth (R109). -/
def tileOf (rowLen rows n : Nat) : Nat × Nat × Nat × Nat :=
  if rowLen ≤ 2 ^ 18 then
    let g := min 256 (2 ^ 18 / rowLen)
    (n * g, min g (rows - n * g), 0, rowLen)
  else
    let per := cdiv rowLen (2 ^ 18)
    (n / per, 1, n % per * 2 ^ 18, min (2 ^ 18) (rowLen - n % per * 2 ^ 18))

/-- Tiles of such an operation. -/
def tileCount (rowLen rows : Nat) : Nat :=
  if rowLen ≤ 2 ^ 18 then cdiv rows (min 256 (2 ^ 18 / rowLen)) else rows * cdiv rowLen (2 ^ 18)

/-- The pieces of at most 8,192 bytes that a row is carried in over Quagen: position and length. -/
def rowPieces (len : Nat) : List (Nat × Nat) :=
  (List.range (cdiv len 8192)).map fun i => (8192 * i, min 8192 (len - 8192 * i))

/-- A WRITE of a descriptor's operand traffic sent in pieces to the client's node. The number tells the writes of one instance of a run from those of another. -/
def State.sendOperand (s : State) (d : Desc) (addr : Nat) (data : List Byte) (number : Nat) : State :=
  (rowPieces data.length).foldl (fun (s : State) p =>
    s.sendClient d.client opWrite 2 (addr + p.1) 0 (slice data p.1 p.2) (.operand d.key.q d.key.j d.key.seq number)) s

/-- The writes of a descriptor to its client's node, of those with some numbers, that have not been acknowledged: their packets (R84). -/
def State.operandWrites (s : State) (k : DescKey) (f : Nat → Bool) : List Packet :=
  let mine (p : Purpose) : Bool := match p with
    | .operand q j seq n => q == k.q.val && j == k.j.val && seq == k.seq && f n
    | _ => false
  ((s.router.tags.filter fun t => mine t.purpose && t.pkt.opcode == opWrite).map (·.pkt)) ++
  ((s.router.waiting.filter fun w => mine w.2.2.1 && w.2.1.opcode == opWrite).map (·.2.1))

/-- The READs of one source row in space 2, numbered from a first piece on (R391). -/
def State.askRow (s : State) (d : Desc) (addr len first : Nat) : State :=
  (rowPieces len).foldl (fun (s : State) p =>
    s.sendClient d.client opRead 0 (addr + p.1) p.2 [] (.operand d.key.q d.key.j d.key.seq (first + p.1 / 8192))) s

/-- The bytes of a source row in space 2 that READ_DATA packets have brought, from a position on; none while a piece is missing. -/
def rowFrom (d : Desc) (first start len : Nat) : Option (List Byte) :=
  (List.range ((start + len + 8191) / 8192 - start / 8192)).foldl (fun (a : Option (List Byte)) i =>
    match a, d.pieces.find? fun p => p.1 == first + start / 8192 + i with
    | some bs, some p => some (bs ++ p.2)
    | _, _ => none) (some []) |>.map fun bs => slice bs (start % 8192) len

/-- The two ends of a mover's work: where rows start and how far apart they are, as address words. -/
structure End where
  word : Nat
  stride : Nat
deriving DecidableEq, Repr

/-- The first byte of row r at an end. -/
def End.row (e : End) (r : Nat) : Nat := addrOf e.word + r * e.stride

/-- A copy in progress: the state, what is left of the bytes read over Ilcen, and whether the copy stops here for now. -/
structure Copy where
  s : State
  ext : List Byte
  stop : Bool
deriving DecidableEq, Repr

/-- The bytes of one tile read from the source, row by row; none where it has to wait, or the status it ends with. -/
def Copy.read (c : Copy) (env : Env) (d : Desc) (src : End) (e : Option SegEnt) (r0 n col len rowLen : Nat) : Copy × Except Nat (List Byte × Bool) :=
  (List.range n).foldl (fun (a : Copy × Except Nat (List Byte × Bool)) i =>
    match a.2 with
    | .error _ => a
    | .ok (bs, rebuilt) =>
      let at' := src.row (r0 + i) + col
      match spaceOf src.word with
      | 0 =>
        match e with
        | none => (a.1, .error 0)
        | some e =>
          match a.1.s.poolRead env .home [d.key.q, d.key.j, d.key.seq] (e.paOf at') len with
          | (s', .held) => ({ a.1 with s := s', stop := true }, .error 0)
          | (s', .fail st _) => ({ a.1 with s := s' }, .error st)
          | (s', .ok x b _) => ({ a.1 with s := s' }, .ok (bs ++ x, rebuilt || b))
      | 1 =>
        if !a.1.s.ilcActive then ({ a.1 with stop := true }, .error 0)
        else
          let s' := a.1.s.emit (.ilcenRead at' len)
          if env.extFail then ({ a.1 with s := s' }, .error 0x6002)
          else ({ a.1 with s := s', ext := a.1.ext.drop len }, .ok (bs ++ padTo len a.1.ext, rebuilt))
      | _ =>
        match rowFrom d ((r0 + i) * cdiv rowLen 8192) col len with
        | none => ({ a.1 with stop := true }, .error 0)
        | some x => (a.1, .ok (bs ++ x, rebuilt))) (c, .ok ([], false))

/-- The rows of one tile at its destination: address and bytes. -/
def tileRows (dst : End) (r0 n col len : Nat) (data : List Byte) : List (Nat × List Byte) :=
  (List.range n).map fun i => (dst.row (r0 + i) + col, slice data (i * len) len)

/-- The bytes of one tile written to the destination. The result counts the bytes written and gives the mirror ranges, or the status it ends with. -/
def Copy.write (c : Copy) (env : Env) (d : Desc) (dst : End) (e : Option SegEnt) (r0 n col len : Nat) (data : List Byte) :
    Copy × Except (Nat × Nat) (Nat × List Nat × Bool) :=
  let rows := tileRows dst r0 n col len data
  match spaceOf dst.word with
  | 0 =>
    match e with
    | none => (c, .error (0, 0))
    | some e =>
      match c.s.poolWriteTile env .home (rows.map fun x => (e.paOf x.1, x.2)) with
      | (_, .held) => ({ c with stop := true }, .error (0, 0))
      | (s', .fail st k) => ({ c with s := s' }, .error (st, k))
      | (s', .ok _ b ids) => ({ c with s := s' }, .ok (n * len, ids, b))
  | 1 =>
    if !c.s.ilcActive then ({ c with stop := true }, .error (0, 0))
    else ({ c with s := rows.foldl (fun (s : State) x => s.emit (.ilcenWrite x.1 x.2)) c.s }, .ok (n * len, [], false))
  | _ => ({ c with s := rows.foldl (fun (s : State) x => s.sendOperand d x.1 x.2 0) c.s }, .ok (n * len, [], false))

/-- A descriptor that meets a data error, or a disabled slab, while it moves bytes (R91, R132). -/
def State.moveFail (s : State) (k : DescKey) (status done : Nat) : State :=
  match s.desc k with
  | none => s
  | some d =>
    if status = 0x8004 then
      (if d.delivered || 0 < done then s.endDesc { d with delivered := true } 0xF002 0 0 else s.endDesc d 0x8004 0 0)
    else s.endDesc d status 0 (d.written + done)

/-- A tile of an end in space 0 checked before it moves. -/
def Copy.check (c : Copy) (k : DescKey) (requester : Nat) (x : End) (r0 n col len : Nat) (write : Bool) : Copy × Option SegEnt :=
  if spaceOf x.word != 0 then (c, none)
  else
    match c.s.checkTile k requester ⟨x.row r0 + col, len, n, x.stride, write⟩ with
    | (s, .ok e) => ({ c with s := s }, some e)
    | (s, _) => ({ c with s := s, stop := true }, none)

/-- One tile of a copy: checked at both ends, read, and written; or, for a FILL, written from a pattern. -/
def Copy.tile (c : Copy) (env : Env) (k : DescKey) (src : Option End) (dst : End) (rowLen rows : Nat) (pattern : List Byte) : Copy :=
  match c.s.desc k with
  | none => { c with stop := true }
  | some d =>
    if c.stop || d.phase != .started then { c with stop := true }
    else
      let (r0, n, col, len) := tileOf rowLen rows d.progress
      let req := moverCode d
      let (c, se) := match src with
        | some x => c.check k req x r0 n col len false
        | none => (c, none)
      if c.stop then c
      else
        let (c, de) := c.check k req dst r0 n col len true
        if c.stop then c
        else
          let (c1, got) := match src with
            | some x => c.read env d x se r0 n col len rowLen
            | none => (c, .ok ((List.range len).map fun i => pattern.getD ((col + i) % 8) 0, false))
          if c1.stop then { c with s := { c.s with coh := { c.s.coh with lossWaits := c1.s.coh.lossWaits } }, stop := true }
          else
            match got with
            | .error st => { c1 with s := c1.s.moveFail k st 0, stop := true }
            | .ok (data, rebuilt) =>
              let (c2, put) := c1.write env d dst de r0 n col len data
              if c2.stop then { c with stop := true }
              else
                match put with
                | .error (st, done) => { c2 with s := c2.s.moveFail k st done, stop := true }
                | .ok (done, ids, rebuilt') =>
                  match c2.s.desc k with
                  | none => { c2 with stop := true }
                  | some d =>
                    let s := c2.s.setDesc { d with
                      progress := d.progress + 1, written := d.written + done, delivered := true
                      waits := d.waits ++ ids, rebuilt := d.rebuilt || rebuilt || rebuilt' }
                    { c2 with s := s.observe 2 d.moverNo 0x042 done d.work [] }

/-- Tiles copied one after the other until the copy has to stop or none is left. -/
def Copy.run (env : Env) (k : DescKey) (src : Option End) (dst : End) (rowLen rows : Nat) (pattern : List Byte) : Nat → Copy → Copy
  | 0, c => c
  | n + 1, c => if c.stop then c else Copy.run env k src dst rowLen rows pattern n (c.tile env k src dst rowLen rows pattern)

/-- The mover's work for a descriptor: the tiles that are left, and the end of the descriptor with the bytes moved as its result. -/
def State.moveRows (s : State) (env : Env) (d : Desc) (src : Option End) (dst : End) (rowLen rows : Nat) (pattern : List Byte) : State :=
  let count := tileCount rowLen rows
  let c := Copy.run env d.key src dst rowLen rows pattern (count - d.progress) ⟨s, env.ext, false⟩
  match c.s.desc d.key with
  | some d => if d.phase == .started && count ≤ d.progress then c.s.endDesc d 0 (rowLen * rows) 0 else c.s
  | none => c.s

/-- The rows and the ends of a MOVE; strides are ignored for one row (Table QU-5). -/
def moveRowLen (d : Desc) : Nat := d.u 24 4
def moveRowCount (d : Desc) : Nat := d.u 28 4
def moveSrc (d : Desc) : End := ⟨d.u 8 8, if moveRowCount d = 1 then 0 else d.u 32 8⟩
def moveDst (d : Desc) : End := ⟨d.u 16 8, if moveRowCount d = 1 then 0 else d.u 40 8⟩

/-- MOVE copies rows between spaces (R148). A source in space 2 is asked for first, and its bytes are moved when they have come. -/
def moveEff (k : DescKey) (env : Env) (s : State) : State :=
  match s.jobOf k 0x01 with
  | none => s
  | some d =>
    let src := moveSrc d
    let len := moveRowLen d
    let rows := moveRowCount d
    let (s, d) := s.withMover d (if spaceOf src.word = 0 then some (addrOf src.word) else none)
    if spaceOf src.word = 2 && !d.asked then
      (List.range rows).foldl (fun (s : State) r => s.askRow d (src.row r) len (r * cdiv len 8192)) (s.setDesc { d with asked := true })
    else s.moveRows env d (some src) (moveDst d) len rows []

def execMove (k : DescKey) (env : Env) (s : State) : Result := .next (moveEff k env s)

/-- FILL writes its pattern over len bytes (R149). -/
def fillEff (k : DescKey) (env : Env) (s : State) : State :=
  match s.jobOf k 0x02 with
  | none => s
  | some d =>
    let (s, d) := s.withMover d none
    s.moveRows env d none ⟨d.u 8 8, 0⟩ (d.u 24 8) 1 (slice d.bytes 16 8)

def execFill (k : DescKey) (env : Env) (s : State) : Result := .next (fillEff k env s)

/-- Bytes that an ATOMIC op works on: 4 for ADD32 and FADD32, 8 for the others (Table QU-5). -/
def atomicSize (op : Nat) : Nat := if op = 0 || op = 2 then 4 else 8

/-- The value that an ATOMIC stores, none where it stores nothing (R150). -/
def atomicNew (op old operand compare : Nat) : Option Nat :=
  if op = 0 then some ((old + operand) % 2 ^ 32)
  else if op = 1 then some ((old + operand) % 2 ^ 64)
  else if op = 2 then some (fadd32 old (operand % 2 ^ 32))
  else if op = 3 then some operand
  else if old = compare then some operand
  else none

/-- A line held busy at its home while an ATOMIC or PUBLISH of a paired client is journalled (R423). -/
def State.holdLine (s : State) (line : Nat) : State :=
  let t : Txn := { req := ⟨.agent 15, 0, .recall, line, 0, []⟩, kind := .inv, waiting := [(99, 0)], heldBack := [], got := none, forwarded := false
                   wbWait := [], evicted := [], dropped := false }
  { s with coh := { s.coh with txns := s.coh.txns ++ [t] } }

/-- Such a line released. -/
def State.freeLine (s : State) (line : Nat) : State :=
  { s with coh := { s.coh with txns := s.coh.txns.filter fun t => !(t.req.line == line && t.waiting == [(99, 0)]) } }

/-- The update that a journal slot records: its target, the new and the old bytes of the slot, and the bytes that it stores with their address (R422, R423). -/
structure Applying where
  target : Nat
  new : List Byte
  old : List Byte
  place : Nat
  data : List Byte
deriving DecidableEq, Repr

/-- An update kept in the pieces of its descriptor while it is journalled. -/
def Applying.pieces (a : Applying) : List (Nat × List Byte) := [(a.target, a.new), (a.place, a.data), (0, a.old)]

/-- The update that a descriptor keeps. -/
def Desc.applying (d : Desc) : Applying :=
  let (p, q) := (d.pieces.getD 0 (0, []), d.pieces.getD 1 (0, []))
  ⟨p.1, p.2, (d.pieces.getD 2 (0, [])).2, q.1, q.2⟩

/-- The last two steps of an operation that a paired client's journal records: the write in place once state 2 is acknowledged, and state 3 once the write is (R423). -/
def State.applyJournalled (s : State) (env : Env) (k : DescKey) (count : State → State) : State :=
  match s.desc k with
  | none => s
  | some d =>
    let a := d.applying
    let cpl := s.completionBytes d (if d.rebuilt then 0x1001 else 0) d.result 0
    let s1 := if d.progress = 1 && !s.mirrorOpen d.waits then
        let (s, _, ids) := if a.data.isEmpty then (s, (⟨false, false⟩ : PoolSeen), []) else s.writePool env.ecc a.place a.data true
        s.setDesc { d with progress := 2, waits := ids, written := a.data.length, delivered := true }
      else s
    match s1.desc k with
    | none => s1
    | some d =>
      if d.progress = 2 && !s1.mirrorOpen d.waits then
        let (s2, ids) := s1.journal d cpl 3 a.target a.new a.old
        (count (s2.freeLine (a.target / 64))).endDesc { d with waits := ids } 0 d.result 0
      else s1

/-- The first step of such an operation: slot state 2, with the line held busy at its home (R423). -/
def State.startJournalled (s : State) (d : Desc) (a : Applying) : State :=
  let cpl := s.completionBytes d (if d.rebuilt then 0x1001 else 0) d.result 0
  let (s, ids) := s.journal d cpl 2 a.target a.new a.old
  (s.holdLine (a.target / 64)).setDesc { d with progress := 1, waits := ids, pieces := a.pieces }

/-- ATOMIC at the stack port, after its home has recalled the line (R150). For a paired client the journal's steps surround it (R423). -/
def atomicEff (k : DescKey) (env : Env) (s : State) : State :=
  match s.jobOf k 0x03 with
  | none => s
  | some d =>
    let op := d.u 16 1
    let n := atomicSize op
    let va := addrOf (d.u 8 8)
    let line (pa : Nat) : Nat := pa / 64
    if d.progress != 0 then s.applyJournalled env k id
    else
      match s.checkTile k (256 + k.q.val) ⟨va, n, 1, 0, true⟩ with
      | (s, .wait) => s
      | (s, .ended) => s
      | (s, .ok e) =>
        let pa := e.paOf va
        if !s.inSlabs pa n then (s.slabViolation (s.firstOutside pa n)).moveFail k 0x8004 0
        else if s.rangeMirrorHeld pa n || s.paWriteHeld pa then s
        else
          match s.serve env ⟨.agent 15, 0, .recall, line pa, 0, []⟩ with
          | none => s
          | some (s, _) =>
            let (s, bs, seen) := s.readPool env.ecc pa n
            match s.desc k with
            | none => s
            | some d =>
              if seen.lost then s.endDesc d 0x6001 0 0
              else
                let old := ofLE bs
                let new := atomicNew op old (d.u 24 8) (d.u 32 8)
                let d := { d with rebuilt := d.rebuilt || seen.rebuilt, result := old }
                let newBytes := match new with
                  | some v => leBytes n v
                  | none => []
                if s.paired d.client then
                  let s := s.startJournalled d ⟨pa, if newBytes.isEmpty then bs else newBytes, bs, pa, newBytes⟩
                  s.applyJournalled env k id
                else if newBytes.isEmpty then s.endDesc d 0 old 0
                else
                  let (s, seen', ids) := s.writePool (s.mended env (line pa) seen.rebuilt).ecc pa newBytes true
                  if seen'.lost then s.endDesc d 0x6001 0 0
                  else s.endDesc { d with waits := ids, written := n, delivered := true, rebuilt := d.rebuilt || seen'.rebuilt } 0 old 0

def execAtomic (k : DescKey) (env : Env) (s : State) : Result := .next (atomicEff k env s)

end Sys2Proof.Machine
end

