-- ==== Sys2Proof/Machine/Recipe.lean ====
section
/-! DEFINITION. The recipe image: its header, slots and operations, and the load checks of Table RC-7 (R218 to R228, R239, R243). -/

namespace Sys2Proof.Machine

open Sys2Proof

/-- A slot descriptor (Table RC-2). -/
structure Slot where
  kind : Nat
  fmtCode : Nat
  dens : Nat
  dist : Nat
  ks : Nat
  rows : Nat
  cols : Nat
  pitch : Nat
  outer : Int
  inner : Int
  bind : Nat
  base : Nat
deriving DecidableEq, Repr

/-- An operation (Table RC-4). -/
structure Op where
  code : Nat
  flags : Nat
  opId : Nat
  dst : Nat
  src0 : Nat
  src1 : Nat
  layerSel : Nat
  params : List Byte
deriving DecidableEq, Repr

/-- A recipe (Table RC-1). -/
structure Recipe where
  maxBatch : Nat
  minM : Nat
  fillSlots : Nat
  primSlots : Nat
  fillRing : Nat
  primRing : Nat
  param : Nat
  slots : List Slot
  ops : List Op
deriving DecidableEq, Repr

/-- The slot descriptor at a byte of an image. -/
def slotAt (b : List Byte) (i : Nat) : Slot :=
  { kind := leAt b i 1, fmtCode := leAt b (i + 1) 1 % 16, dens := leAt b (i + 1) 1 / 16 % 4, dist := leAt b (i + 2) 1, ks := leAt b (i + 3) 1
    rows := leAt b (i + 4) 4, cols := leAt b (i + 8) 4, pitch := leAt b (i + 12) 4, outer := signedOf 32 (leAt b (i + 16) 4)
    inner := signedOf 32 (leAt b (i + 20) 4), bind := leAt b (i + 24) 2, base := leAt b (i + 28) 4 }

/-- The operation at a byte of an image. -/
def opAt (b : List Byte) (i : Nat) : Op :=
  { code := leAt b i 1, flags := leAt b (i + 1) 1, opId := leAt b (i + 2) 2, dst := leAt b (i + 4) 1, src0 := leAt b (i + 5) 1
    src1 := leAt b (i + 6) 1, layerSel := leAt b (i + 7) 1, params := slice b (i + 8) 8 }

/-- Slots and operations that an image's header gives. -/
def imageSlots (b : List Byte) : Nat := leAt b 6 1
def imageOps (b : List Byte) : Nat := leAt b 8 2

/-- Bytes of an image. -/
def imageSize (b : List Byte) : Nat := 64 + 32 * imageSlots b + 16 * imageOps b

/-- The recipe that an image holds. -/
def recipeOf (b : List Byte) : Recipe :=
  { maxBatch := leAt b 10 2, minM := leAt b 12 1, fillSlots := leAt b 13 1, primSlots := leAt b 14 1, fillRing := leAt b 16 2
    primRing := leAt b 18 2, param := leAt b 20 2, slots := (List.range (imageSlots b)).map fun j => slotAt b (64 + 32 * j)
    ops := (List.range (imageOps b)).map fun i => opAt b (64 + 32 * imageSlots b + 16 * i) }

/-- Parameter bytes of an operation, from byte 8 of its encoding on. -/
def Op.p (o : Op) (byte n : Nat) : Nat := leAt o.params (byte - 8) n

/-- Flags of an operation: stochastic rounding, hold, and the fill context. -/
def Op.sr (o : Op) : Bool := o.flags.testBit 1
def Op.hold (o : Op) : Bool := o.flags.testBit 2
def Op.fill (o : Op) : Bool := o.flags.testBit 3

/-- An unused slot. -/
def noSlot : Slot := ⟨0, 0, 0, 0, 0, 0, 0, 0, 0, 0, 0, 0⟩

/-- The slot that a slot byte names: none where bit 6 is set (R224). -/
def Recipe.slot? (r : Recipe) (b : Nat) : Option Slot := if b / 64 % 2 = 1 then none else r.slots[b % 64]?

/-- The slot that a slot byte names, or an unused slot. -/
def Recipe.slot (r : Recipe) (b : Nat) : Slot := (r.slot? b).getD noSlot

/-- The format of a slot. -/
def Slot.fmt (s : Slot) : Fmt := (fmtOf s.fmtCode).getD .fp32

/-- Whether a slot is home or sliced ACT. -/
def Slot.home (s : Slot) : Bool := s.kind == 2 && s.dist == 0
def Slot.sliced (s : Slot) : Bool := s.kind == 2 && s.dist == 1

/-- The bytes of an ACT row of a width in a format: R174 or unscaled, rounded up to a multiple of 32 (R221). -/
def actRowBytes (f : Fmt) (w : Nat) : Nat := roundUp 32 (rowBytes f w)

/-- Elements of one stored row of an ACT slot: a whole row, or a slice. -/
def Slot.width (s : Slot) : Nat := if s.dist = 1 then s.cols / s.ks else s.cols

/-- Bytes of one stored row of an ACT slot. -/
def Slot.rowLen (s : Slot) : Nat := actRowBytes s.fmt s.width

/-- A window range in 32-byte words: first word and count. -/
abbrev WRange := Nat × Nat

/-- Whether two window ranges share a word. -/
def wOverlap (a b : WRange) : Bool := decide (0 < a.2) && decide (0 < b.2) && decide (a.1 < b.1 + b.2) && decide (b.1 < a.1 + a.2)

/-- The window range of an ACT or SCRATCH slot; empty for the others (R221). -/
def Slot.range (s : Slot) : WRange :=
  if s.kind = 2 then (s.bind, s.rows * s.rowLen / 32) else if s.kind = 4 then (s.bind, s.cols / 32) else (0, 0)

/-- The range of the ring of a context (R194, R218), and of the parameter area. -/
def Recipe.ringRange (r : Recipe) (fill : Bool) : WRange :=
  if fill then (r.fillRing, r.fillSlots * 288) else (r.primRing, r.primSlots * 288)
def Recipe.ringSlots (r : Recipe) (fill : Bool) : Nat := if fill then r.fillSlots else r.primSlots
def Recipe.paramRange (r : Recipe) : WRange := (r.param, 2048)

/-- The stored values per row of a tile in a rate class, and the array's products per cycle: classes 0 (4-bit), 1 (8-bit) and 2 (BF16) (Tables FA-1 and FA-3). -/
def classValues (c : Nat) : Nat := if c = 0 then 128 else if c = 1 then 64 else 16
def classRate (c : Nat) : Nat := if c = 0 then 8192 else if c = 1 then 4096 else 1024

/-- The rate class of a pairing: that of the wider operand (R190). -/
def rateClass (w a : Fmt) : Nat := if w = .bf16 || a = .bf16 then 2 else if fmtBits w ≤ 4 && fmtBits a ≤ 4 then 0 else 1

/-- Positions of one weight tile (Table FA-3). -/
def tilePositions (dens c : Nat) : Nat := if c = 2 then 16 else max 1 (classValues c / beadCount dens) * 64

/-- ms of a WEIGHT slot, the rows and positions of one shard, and the bytes of one shard (R222). -/
def Slot.ms (s : Slot) : Nat := 32 / s.ks
def Slot.shardRows (s : Slot) : Nat := s.rows / s.ms
def Slot.shardCols (s : Slot) : Nat := s.cols / s.ks
def Slot.shardSize (s : Slot) : Nat := s.shardRows * s.pitch

/-- Bytes of a TENSOR row (R220). -/
def Slot.tensorRow (s : Slot) : Nat := rowBytes s.fmt s.cols

/-- What Table RC-5 asks of a slot byte. -/
inductive Need where
  | none
  | weight
  | tensor
  | home
  | sliced
  | act
  | homeOrTensor
  | optHome
  | optTensor
deriving DecidableEq, Repr

/-- Whether a slot byte names what is asked (load check 6). -/
def Recipe.meets (r : Recipe) (b : Nat) : Need → Bool
  | .none => b / 64 % 2 == 1
  | .weight => (r.slot b).kind == 1
  | .tensor => (r.slot b).kind == 3
  | .home => (r.slot b).home
  | .sliced => (r.slot b).sliced
  | .act => (r.slot b).kind == 2
  | .homeOrTensor => (r.slot b).home || (r.slot b).kind == 3
  | .optHome => b / 64 % 2 == 1 || (r.slot b).home
  | .optTensor => b / 64 % 2 == 1 || (r.slot b).kind == 3

/-- The destination and the sources of an operation code (Table RC-5), none where the code is not listed. ACT takes a second source for every function of two. -/
def needsOf (o : Op) : Option (Need × Need × Need) :=
  match o.code with
  | 0x01 => some (.homeOrTensor, .weight, .sliced)
  | 0x02 => some (.act, .home, if o.p 8 1 = 2 || o.p 8 1 = 3 then .optHome else .home)
  | 0x03 => some (.act, .home, .optTensor)
  | 0x04 => some (.home, .home, .tensor)
  | 0x05 => some (.home, .home, .none)
  | 0x06 => some (.home, .home, .none)
  | 0x07 => some (.act, .home, .none)
  | 0x08 => some (.home, .sliced, .none)
  | 0x09 => some (.home, .home, .home)
  | 0x0A => some (.act, .tensor, .none)
  | 0x0B => some (.tensor, .home, .none)
  | 0x0C => some (.act, .home, .home)
  | 0x0D => some (.home, .home, .home)
  | 0x0E => some (.tensor, .homeOrTensor, .none)
  | 0x10 => some (.none, .none, .none)
  | 0x11 => some (.none, .none, .none)
  | 0x12 => some (.none, .home, .none)
  | 0x13 => some (.home, .none, .none)
  | _ => none

/-- The parameter bytes that an operation uses, as a mask of the bits that may be 1 in each of bytes 8 to 15 (Table RC-5). -/
def paramMasks (code : Nat) : List Nat :=
  match code with
  | 0x01 => [255, 1, 255, 255, 0, 0, 0, 0]
  | 0x02 => [255, 0, 0, 0, 0, 0, 0, 0]
  | 0x03 => [255, 0, 0, 0, 255, 255, 255, 255]
  | 0x04 => [255, 255, 255, 255, 255, 255, 0, 0]
  | 0x05 => [255, 255, 0, 0, 255, 255, 255, 255]
  | 0x06 => [255, 255, 255, 0, 0, 0, 0, 0]
  | 0x08 => [1, 0, 0, 0, 255, 255, 255, 255]
  | 0x09 => [255, 1, 0, 0, 0, 0, 0, 0]
  | 0x0A => [255, 0, 0, 0, 0, 0, 0, 0]
  | 0x0B => [255, 0, 0, 0, 0, 0, 0, 0]
  | 0x0C => [255, 255, 255, 255, 3, 255, 0, 0]
  | 0x0D => [255, 127, 255, 255, 255, 1, 0, 0]
  | 0x10 => [255, 255, 255, 1, 255, 255, 0, 0]
  | 0x12 => [255, 255, 255, 255, 0, 0, 0, 0]
  | 0x13 => [0, 0, 255, 255, 0, 0, 0, 0]
  | _ => [0, 0, 0, 0, 0, 0, 0, 0]

/-- The first index of a list whose element fails a test. -/
def firstBad {α : Type} (ok : α → Bool) (l : List α) : Option Nat := l.findIdx? fun x => !ok x

/-- Whether the reserved bytes and the fields that do not apply to its kind are 0 in the slot descriptor at a byte (load check 4). -/
def slotClean (b : List Byte) (i : Nat) : Bool :=
  let z (start n : Nat) : Bool := leAt b (i + start) n == 0
  let fm := leAt b (i + 1) 1
  match leAt b i 1 with
  | 0 => z 1 31
  | 1 => fm < 64 && z 2 1 && z 26 2
  | 2 => fm < 16 && z 12 12 && z 26 6 && (leAt b (i + 2) 1 == 1 || z 3 1)
  | 3 => fm < 16 && z 2 2 && z 26 2
  | 4 => z 1 7 && z 12 12 && z 26 6
  | _ => false

/-- Whether the reserved bits of an operation are 0 (load check 4). -/
def opClean (o : Op) : Bool :=
  o.flags < 16 && o.dst < 128 && o.src0 < 128 && o.src1 < 128 &&
  ((o.params.zip (paramMasks o.code)).all fun p => p.1.toNat &&& (255 - p.2) == 0)

/-- The scratch slot of EXPERT (Table RC-5). -/
def Recipe.scratch (r : Recipe) (o : Op) : Slot := r.slot (o.p 9 1)

/-- Whether the destination of an operation overlaps a source, or is the same slot as src0, other than as R226 allows. -/
def Recipe.badOverlap (r : Recipe) (o : Op) : Bool :=
  let same := o.dst == o.src0 && (o.code == 2 || o.code == 3 || o.code == 4 || o.code == 7)
  let covers (b : Nat) : Bool := match r.slot? o.dst, r.slot? b with
    | some d, some x => wOverlap d.range x.range
    | _, _ => false
  (covers o.src0 && !same) || covers o.src1 || (o.dst == o.src0 && o.dst / 64 % 2 == 0 && !same)

/-- Load check 6 for one operation. -/
def Recipe.slotsOk (r : Recipe) (o : Op) : Bool :=
  match needsOf o with
  | none => false
  | some (d, a, b) =>
    r.meets o.dst d && r.meets o.src0 a && r.meets o.src1 b && !r.badOverlap o && (o.code != 0x0D || (r.scratch o).kind == 4)

/-- Whether the slot that a byte names, if it names one, has one of the formats. -/
def Recipe.isFmt (r : Recipe) (b : Nat) (fs : List Fmt) : Bool :=
  match r.slot? b with
  | none => true
  | some s => fs.contains s.fmt

/-- Load check 7 for one operation: MATMUL by R190 and R179, and the formats that Table RC-5 names. -/
def Recipe.fmtsOk (r : Recipe) (o : Op) : Bool :=
  let f32 (b : Nat) : Bool := r.isFmt b [.fp32]
  match o.code with
  | 0x01 =>
    let w := r.slot o.src0
    pairingOk w.dens w.fmt (r.slot o.src1).fmt && (w.fmt != .bf16 || w.dens == 0) && (w.ks == 1 || (r.slot o.dst).kind == 3 || f32 o.dst)
  | 0x03 => f32 o.src0 && r.isFmt o.src1 [.bf16]
  | 0x04 => f32 o.dst && f32 o.src0 && f32 o.src1
  | 0x05 => r.isFmt o.dst [.fp32, .bf16] && f32 o.src0
  | 0x06 => f32 o.dst && f32 o.src0
  | 0x08 => f32 o.dst && f32 o.src0
  | 0x09 => f32 o.dst && f32 o.src0 && f32 o.src1
  | 0x0C => f32 o.src0 && f32 o.src1
  | 0x0D => f32 o.dst && r.isFmt o.src0 [.bf16, .e2m1s, .e2m3s, .e3m2s, .e4m3s, .e5m2s] && f32 o.src1
  | 0x0E => f32 o.dst && r.isFmt o.src0 [.bf16, .fp32]
  | _ => true

/-- Whether a K split is one of those of Table RC-2. -/
def ksOk (k : Nat) : Bool := [1, 2, 4, 8, 16, 32].contains k

/-- The shape of a slot (load check 8). -/
def Slot.shapeOk (s : Slot) : Bool :=
  match s.kind with
  | 1 => ksOk s.ks && s.pitch % 32 == 0 && s.bind < 64
  | 2 => s.dist ≤ 1 && (s.dist == 0 || (ksOk s.ks && s.cols % s.ks == 0)) && (!fmtScaled s.fmt || s.width % 32 == 0)
  | 3 => s.bind < 64
  | 4 => s.cols % 32 == 0
  | _ => true

/-- Load check 8 for one operation. -/
def Recipe.shapeOk (r : Recipe) (o : Op) : Bool :=
  let d := r.slot o.dst
  let a := r.slot o.src0
  let b := r.slot o.src1
  match o.code with
  | 0x01 =>
    b.cols == a.cols && b.ks == a.ks && o.p 10 2 % 64 == 0 && o.p 10 2 + a.rows ≤ d.cols && a.cols % a.ks == 0 &&
    a.cols / a.ks % 64 == 0 && a.rows % (32 / a.ks) == 0 && a.shardSize % 256 == 0
  | 0x02 => o.p 8 1 ≤ 5 && d.cols == a.cols && ((r.slot? o.src1).isNone || b.cols == a.cols)
  | 0x03 => o.p 8 1 ≤ 1 && d.cols == a.cols && ((r.slot? o.src1).isNone || b.cols == a.cols)
  | 0x04 =>
    let hd := o.p 8 2
    let rot := o.p 10 2
    hd % 2 == 0 && 0 < hd && hd ≤ 256 && rot % 2 == 0 && rot ≤ hd && o.p 12 2 * hd ≤ a.cols && d.cols == a.cols && rot / 2 ≤ b.cols
  | 0x05 => 0 < o.p 8 2 && a.cols % o.p 8 2 == 0 && d.cols == a.cols
  | 0x06 => 0 < o.p 8 2 && a.cols % o.p 8 2 == 0 && 1 ≤ o.p 10 1 && o.p 10 1 ≤ 64 && d.cols == a.cols / o.p 8 2 * (2 * o.p 10 1)
  | 0x07 => d.cols == a.cols
  | 0x08 => a.ks == 1 && d.cols == a.cols
  | 0x09 => 1 ≤ o.p 8 1 && o.p 8 1 ≤ 8 && a.cols == o.p 8 1 * d.cols && b.cols == o.p 8 1
  | 0x0A => o.p 8 1 ≤ 2 && d.cols == a.cols
  | 0x0B => o.p 8 1 ≤ 2 && d.cols == a.cols
  | 0x0C =>
    let hd := o.p 13 1 * 8
    o.p 8 2 ≤ 256 && o.p 10 1 ≤ 64 && o.p 11 1 ≤ 4 && 1 ≤ o.p 13 1 && o.p 13 1 ≤ 32 && o.p 13 1 % 4 == 0 && a.cols % hd == 0 &&
    b.cols % (2 * hd) == 0 && 0 < b.cols && a.cols / hd % (b.cols / (2 * hd)) == 0 && d.cols == a.cols
  | 0x0D => 1 ≤ o.p 8 1 && o.p 8 1 ≤ 8 && o.p 12 1 ≤ 1
  | 0x10 => 1 ≤ o.p 8 2 && o.p 8 2 ≤ 4096 && 1 ≤ o.p 10 1
  | 0x12 => o.p 8 1 < 64 && o.p 9 1 ≤ 7
  | _ => true

/-- The loops that enclose operation i, outermost first: the index of each LOOP. -/
def Recipe.loopsAt (r : Recipe) (i : Nat) : List Nat :=
  (List.range r.ops.length).filter fun l =>
    match r.ops[l]? with
    | some o => o.code == 0x10 && decide (l < i) && decide (i ≤ l + o.p 10 1)
    | none => false

/-- Load check 9 for operation i: bodies nest two deep, lie within the body around them, hold one LOOP and no SEND or RECV, and one loop is the layer loop (R239). -/
def Recipe.loopOk (r : Recipe) (i : Nat) (o : Op) : Bool :=
  let around := r.loopsAt i
  if o.code = 0x10 then
    let stop := i + o.p 10 1
    around.length ≤ 1 && stop < r.ops.length &&
    (around.all fun l => match r.ops[l]? with
      | some x => stop ≤ l + x.p 10 1
      | none => true) &&
    ((List.range r.ops.length).filter fun j => (r.loopsAt j).contains i && (r.ops[j]?.map Op.code) == some 0x10).length ≤ 1 &&
    (!(o.p 11 1).testBit 0 || (r.ops.filter fun x => x.code == 0x10 && (x.p 11 1).testBit 0).length ≤ 1)
  else (o.code != 0x12 && o.code != 0x13) || around.isEmpty

/-- Every window range of a recipe but those of the rings and the parameter area. -/
def Recipe.slotRanges (r : Recipe) : List WRange := r.slots.map Slot.range

/-- The tiles of one row block of a shard in a rate class. -/
def Slot.rowTiles (w : Slot) (a : Fmt) : Nat := cdiv w.shardCols (tilePositions w.dens (rateClass w.fmt a))

/-- Load check 10 for slot j: its range lies within the windows and clear of rings and parameter area. -/
def Recipe.placeOk (r : Recipe) (s : Slot) : Bool :=
  s.range.1 + s.range.2 ≤ r.minM * 8192 && !wOverlap s.range (r.ringRange true) && !wOverlap s.range (r.ringRange false) &&
  !wOverlap s.range r.paramRange

/-- Load check 10 for the header: rings and parameter area lie within the windows and apart. -/
def Recipe.frameOk (r : Recipe) : Bool :=
  let inside (x : WRange) : Bool := x.2 == 0 || x.1 + x.2 ≤ r.minM * 8192
  inside (r.ringRange true) && inside (r.ringRange false) && inside r.paramRange && !wOverlap (r.ringRange true) (r.ringRange false) &&
  !wOverlap (r.ringRange true) r.paramRange && !wOverlap (r.ringRange false) r.paramRange

/-- Load check 10 for one operation: the destination of a RECV overlaps no other range, and a hold fits its ring (R228). -/
def Recipe.planOk (r : Recipe) (o : Op) : Bool :=
  if o.code = 0x13 then
    r.slots.zipIdx.all fun x => x.2 == o.dst % 64 || !wOverlap (r.slot o.dst).range x.1.range
  else if o.code = 0x01 && o.hold then (r.slot o.src0).rowTiles (r.slot o.src1).fmt ≤ r.ringSlots o.fill
  else true

/-- The load checks 1 to 4 of Table RC-7 that an image's header alone decides: 0, or the first that fails. -/
def headerCheck (b : List Byte) : Nat :=
  let r := recipeOf b
  let ring (n : Nat) : Bool := n == 0 || (2 ≤ n && n ≤ 32)
  if leAt b 0 4 != 0x50434552 then 1
  else if leAt b 4 2 != 1 then 2
  else if imageSlots b = 0 || 64 < imageSlots b || imageOps b = 0 || 256 < imageOps b || r.maxBatch = 0 || 4096 < r.maxBatch ||
      r.minM = 0 || 8 < r.minM || !ring r.fillSlots || !ring r.primSlots then 3
  else if leAt b 7 1 != 0 || leAt b 15 1 != 0 || leAt b 22 42 != 0 then 4
  else 0

/-- The load checks 1 to 11 of Table RC-7 on an image: 0, or the first that fails, with the operation or slot it concerns. -/
def loadCheck (b : List Byte) : Nat × Nat :=
  let r := recipeOf b
  let ops (n : Nat) (ok : Op → Bool) : Option (Nat × Nat) := (firstBad ok r.ops).map fun i => (n, i)
  let slots (n : Nat) (ok : Slot → Bool) : Option (Nat × Nat) := (firstBad ok r.slots).map fun i => (n, i)
  if headerCheck b != 0 then (headerCheck b, 0)
  else
    (([ (firstBad (fun j => slotClean b (64 + 32 * j)) (List.range r.slots.length)).map fun i => (4, i)
      , ops 4 opClean
      , ops 5 fun o => (needsOf o).isSome
      , ops 6 r.slotsOk
      , slots 7 fun s => s.kind == 0 || s.kind == 4 || (fmtOf s.fmtCode).isSome
      , ops 7 r.fmtsOk
      , slots 8 Slot.shapeOk
      , ops 8 r.shapeOk
      , (firstBad (fun i => match r.ops[i]? with
          | some o => r.loopOk i o
          | none => true) (List.range r.ops.length)).map fun i => (9, i)
      , if r.frameOk then none else some (10, 0)
      , slots 10 r.placeOk
      , ops 10 r.planOk
      , slots 11 fun s => s.kind != 1 || (s.base % 8192 == 0 && s.outer % 8192 == 0 && s.inner % 8192 == 0) ] :
      List (Option (Nat × Nat))).filterMap id).headD (0, 0)

end Sys2Proof.Machine
end

