-- ==== Sys2Proof/Machine/Vector.lean ====
section
/-! DEFINITION. The functions of the vector unit: each is the exactly rounded FP32 result, moved by at most the ulp of Table NF-8 (R187, R191). Real values are computed in fixed point with 640 fraction bits. -/

namespace Sys2Proof.Machine

open Sys2Proof

/-- Fraction bits of the fixed-point values. -/
def fixBits : Nat := 640

/-- 1 in fixed point. -/
def fixOne : Nat := 2 ^ fixBits

/-- π, ln 2 and √(2π) in fixed point. -/
def fixPi : Nat := 0x3243f6a8885a308d313198a2e03707344a4093822299f31d0082efa98ec4e6c89452821e638d01377be5466cf34e90c6cc0ac29b7c97c50dd3f84d5b5b54709179216d5d98979fb1bd1310ba698dfb5ac
def fixLn2 : Nat := 0xb17217f7d1cf79abc9e3b39803f2f6af40f343267298b62d8a0d175b8baafa2be7b876206debac98559552fb4afa1b10ed2eae35c138214427573b291169b8253e96ca16224ae8c51acbda11317c387e
def fixSqrt2Pi : Nat := 0x281b263fec4e0b2caf9483f5ce459dc5f19f3ea6416000b50dc2f412ddeeb948b5068337b65698726847d560b8818fb98307f0f37d42a17c1c2b86baec9ffa598c96223241bdcb90c5ace95432c9127f5

/-- A finite value in fixed point, as an integer. -/
def toFix (s : Bool) (m : Nat) (e : Int) : Int :=
  let k := e + fixBits
  let v := if 0 ≤ k then m * 2 ^ k.toNat else m / 2 ^ (-k).toNat
  if s then -(v : Int) else v

/-- A fixed-point integer as a value. -/
def ofFix (x : Int) : Num := .fin (decide (x < 0)) x.natAbs (-(fixBits : Int))

/-- The sum of the series whose term n + 1 is term n × num / den(n), over a number of terms. -/
def series (num : Int) (den : Nat → Nat) : Nat → Nat → Int → Int → Int
  | 0, _, _, acc => acc
  | fuel + 1, n, t, acc => series num den fuel (n + 1) (t * num / (fixOne : Int) / (den n : Int)) (acc + t)

/-- e^x in fixed point, for x in fixed point. -/
def fixExp (x : Int) : Nat :=
  let k := x / (fixLn2 : Int)
  let r := x % (fixLn2 : Int)
  let t := (series r (fun n => n + 1) 140 0 fixOne 0).toNat
  if 0 ≤ k then t * 2 ^ k.toNat else t / 2 ^ (-k).toNat

/-- ln of m × 2^e in fixed point, for m > 0. -/
def fixLn (m : Nat) (e : Int) : Int :=
  let l := Nat.log2 m
  let y := m * 2 ^ (fixBits - l)
  let z : Int := ((y : Int) - fixOne) * fixOne / ((y : Int) + fixOne)
  let z2 := z * z / (fixOne : Int)
  let s := (List.range 220).foldl (fun (a : Int × Int) n => (a.1 * z2 / (fixOne : Int), a.2 + a.1 / ((2 * n + 1 : Nat) : Int))) (z, 0)
  ((l : Int) + e) * fixLn2 + 2 * s.2

/-- sin x and cos x in fixed point. -/
def fixSin (x : Int) : Int :=
  let r := x % (2 * fixPi : Int)
  let r2 := r * r / (fixOne : Int)
  series (-r2) (fun n => (2 * n + 2) * (2 * n + 3)) 160 0 r 0

def fixCos (x : Int) : Int :=
  let r := x % (2 * fixPi : Int)
  let r2 := r * r / (fixOne : Int)
  series (-r2) (fun n => (2 * n + 1) * (2 * n + 2)) 160 0 fixOne 0

/-- 1 / (1 + e^-x) in fixed point. -/
def fixSigmoid (x : Int) : Int :=
  let e := fixExp (-(x.natAbs : Int))
  if 0 ≤ x then (fixOne * fixOne / (fixOne + e) : Nat) else (e * fixOne / (fixOne + e) : Nat)

/-- tanh x in fixed point. -/
def fixTanh (x : Int) : Int :=
  let e := fixExp (2 * (x.natAbs : Int))
  let t : Int := ((e - fixOne) * fixOne / (e + fixOne) : Nat)
  if 0 ≤ x then t else -t

/-- The normal distribution function in fixed point: one half plus the density times x + x³/3 + x⁵/15 + …. -/
def fixPhi (x : Int) : Int :=
  let x2 := x * x / (fixOne : Int)
  let d : Int := (fixExp (-(x2 / 2)) * fixOne / fixSqrt2Pi : Nat)
  fixOne / 2 + d * series x2 (fun n => 2 * n + 3) 400 0 x 0 / (fixOne : Int)

/-- The functions of Table NF-8, and the quotient and square root that operations are defined with. -/
inductive VecFn where
  | recip | rsqrt | exp | exp2 | log | log2 | sin | cos | tanh | sigmoid | silu | gelu | div
deriving DecidableEq, Repr

/-- The maximum error of a function, in ulp; that of sin and cos grows beyond 2^20 (Table NF-8). The quotient is held to the bound of the reciprocal. -/
def vecUlp (f : VecFn) (x : Num) : Nat :=
  match f with
  | .recip => 1
  | .rsqrt => 1
  | .div => 1
  | .exp => 2
  | .exp2 => 2
  | .log => 2
  | .log2 => 2
  | .sin => if (Num.fin false 1 20).lt x.abs then 4 else 2
  | .cos => if (Num.fin false 1 20).lt x.abs then 4 else 2
  | _ => 4

/-- Whether x < n, for an integer n. -/
def belowInt (x : Num) (n : Int) : Bool := x.lt (Num.ofInt n)

/-- A value before its rounding to FP32, or a special case whose result is exact. -/
inductive VecOut where
  | special (x : Num)
  | real (x : Num)
deriving DecidableEq, Repr

/-- The exact real result of a function of one finite value, or its special case (Table NF-8). -/
def vecReal (f : VecFn) (s : Bool) (m : Nat) (e : Int) : VecOut :=
  let x := toFix s m e
  let v := Num.fin s m e
  match f with
  | .recip => if m = 0 then .special (.inf s) else .real (.fin s (2 ^ 400 / m) (-400 - e))
  | .rsqrt =>
    if m = 0 then .special (.inf s)
    else if s then .special .nan
    else
      let k := (e % 2).toNat
      .real (.fin false (Nat.sqrt (2 ^ 800 / (m * 2 ^ k))) (-400 - (e - k) / 2))
  | .exp => if belowInt v (-110) then .special .zero else if belowInt v 90 then .real (ofFix (fixExp x)) else .special (.inf false)
  | .exp2 =>
    if belowInt v (-160) then .special .zero
    else if belowInt v 130 then .real (ofFix (fixExp (x * fixLn2 / (fixOne : Int)))) else .special (.inf false)
  | .log => if m = 0 then .special (.inf true) else if s then .special .nan else .real (ofFix (fixLn m e))
  | .log2 =>
    if m = 0 then .special (.inf true) else if s then .special .nan
    else .real (ofFix (fixLn m e * (fixOne : Int) / (fixLn2 : Int)))
  | .sin => if m = 0 then .special v else .real (ofFix (fixSin x))
  | .cos => .real (ofFix (fixCos x))
  | .tanh =>
    if m = 0 then .special v
    else if belowInt v (-20) then .special (.ofInt (-1)) else if belowInt v 20 then .real (ofFix (fixTanh x)) else .special (.ofNat 1)
  | .sigmoid =>
    if belowInt v (-110) then .special .zero else if belowInt v 110 then .real (ofFix (fixSigmoid x)) else .special (.ofNat 1)
  | .silu =>
    if m = 0 then .special v
    else if belowInt v (-130) then .special (.fin true 0 0)
    else if belowInt v 130 then .real ((ofFix (fixSigmoid x)).mul v) else .special v
  | .gelu =>
    if m = 0 then .special v
    else if v.le (.ofInt (-10)) then .special (.fin true 0 0)
    else if belowInt v 10 then .real ((ofFix (fixPhi x)).mul v) else .special v
  | .div => .special v

/-- The result for an infinity (Table NF-8). -/
def vecInf (f : VecFn) (s : Bool) : Num :=
  match f with
  | .recip => .fin s 0 0
  | .rsqrt => if s then .nan else .zero
  | .exp => if s then .zero else .inf false
  | .exp2 => if s then .zero else .inf false
  | .log => if s then .nan else .inf false
  | .log2 => if s then .nan else .inf false
  | .tanh => .ofInt (if s then -1 else 1)
  | .sigmoid => if s then .zero else .ofNat 1
  | .silu => if s then .fin true 0 0 else .inf false
  | .gelu => if s then .fin true 0 0 else .inf false
  | .sin => .nan
  | .cos => .nan
  | .div => .inf s

/-- The number of a function, for its deviations. -/
def vecCode (f : VecFn) : Nat :=
  match f with
  | .recip => 0
  | .rsqrt => 1
  | .exp => 2
  | .exp2 => 3
  | .log => 4
  | .log2 => 5
  | .sin => 6
  | .cos => 7
  | .tanh => 8
  | .sigmoid => 9
  | .silu => 10
  | .gelu => 11
  | .div => 12

/-- An FP32 word moved by the deviation of a function within its bound; zero, infinities and NaN stay. -/
def deviate (f : VecFn) (args : List Nat) (bound w : Nat) : Nat :=
  let c := w % 2 ^ 31
  if c = 0 || 0x7F800000 ≤ c then w
  else
    let d := Config.ulp (vecCode f) args % (2 * bound + 1)
    w - c + min (c + d - bound) 0x7F7FFFFF

/-- A function of the vector unit on one FP32 word (R191). -/
def vec (f : VecFn) (w : Nat) : Nat :=
  match of32 w with
  | .nan => 0x7FC00000
  | .inf s => to32 (vecInf f s)
  | .fin s m e =>
    match vecReal f s m e with
    | .special x => to32 x
    | .real x => deviate f [w] (vecUlp f (.fin s m e)) (to32 x)

/-- The quotient of two FP32 words. -/
def fdiv32 (a b : Nat) : Nat :=
  match of32 a, of32 b with
  | .fin sa ma ea, .fin sb mb eb =>
    if mb = 0 then (if ma = 0 then 0x7FC00000 else to32 (.inf (sa != sb)))
    else deviate .div [a, b] (vecUlp .div .zero) (to32 (.fin (sa != sb) (ma * 2 ^ 400 / mb) (ea - eb - 400)))
  | x, .inf s => (match x with
    | .fin sx _ _ => to32 (.fin (sx != s) 0 0)
    | _ => 0x7FC00000)
  | .inf s, .fin sb _ _ => to32 (.inf (s != sb))
  | _, _ => 0x7FC00000

/-- FP32 negation. -/
def fneg32 (a : Nat) : Nat := to32 (of32 a).neg

/-- FP32 subtraction with one rounding (R187). -/
def fsub32 (a b : Nat) : Nat := fadd32 a (fneg32 b)

/-- FP32 fused multiply-add with one rounding (R187). -/
def ffma32 (a b c : Nat) : Nat := to32 (((of32 a).mul (of32 b)).add (of32 c))

/-- a × b + c: one fused operation, or a product rounded and then a sum, where the spec does not say. -/
def fmadd32 (op a b c : Nat) : Nat := if Config.fuses op then ffma32 a b c else fadd32 (fmul32 a b) c

/-- The greater of two FP32 words; a NaN wins. -/
def fmax32 (a b : Nat) : Nat := to32 ((of32 a).max (of32 b))

/-- Whether a < b in a ranking in which NaN ranks below every number and −0 equals +0. -/
def rankLt (a b : Nat) : Bool :=
  match (of32 a).isNan, (of32 b).isNan with
  | true, true => false
  | true, false => true
  | false, true => false
  | false, false => (of32 a).lt (of32 b)

/-- FP32 values summed in an order that the spec does not fix: two partial sums meet, until one is left. -/
def fsumAny : Nat → List Nat → Nat
  | 0, xs => xs.getD 0 0
  | fuel + 1, xs =>
    if xs.length ≤ 1 then xs.getD 0 0
    else
      let i := Config.sumPick (2 * fuel) % xs.length
      let rest := xs.eraseIdx i
      let j := Config.sumPick (2 * fuel + 1) % rest.length
      fsumAny fuel (fadd32 (xs.getD i 0) (rest.getD j 0) :: rest.eraseIdx j)

/-- The sum of FP32 values in an order that the spec does not fix. -/
def fsum (xs : List Nat) : Nat := fsumAny xs.length xs

/-- An integer as an FP32 word. -/
def fofNat (n : Nat) : Nat := to32 (.ofNat n)

/-- The mean of FP32 values. -/
def fmean (xs : List Nat) : Nat := fdiv32 (fsum xs) (fofNat xs.length)

/-- A number inserted into an order, after those that it does not beat. -/
def insertRank (lt : Nat → Nat → Bool) (x : Nat) : List Nat → List Nat
  | [] => [x]
  | y :: ys => if lt y x then x :: y :: ys else y :: insertRank lt x ys

/-- Indices of a list of FP32 words in descending rank, ties to the lower index (R231, R235, R257). -/
def ranked (xs : List Nat) : List Nat :=
  let lt (i j : Nat) : Bool := rankLt (xs.getD i 0) (xs.getD j 0)
  (List.range xs.length).foldl (fun acc i => insertRank lt i acc) []

/-- exp(x - m) for each value, with m their maximum; and the softmax of a list (R231). -/
def fsoftmax (xs : List Nat) : List Nat :=
  let m := xs.foldl fmax32 (xs.getD 0 0)
  let es := xs.map fun x => vec .exp (fsub32 x m)
  let t := fsum es
  es.map fun e => fdiv32 e t

end Sys2Proof.Machine
end

