-- ==== Sys2Proof/Machine/Runs.lean ====
section
/-! DEFINITION. The run of a recipe: batch entries and homes, window and pool accesses of instances, and the order of instances (R214 to R223, R239, R240, R245). -/

namespace Sys2Proof.Machine

open Sys2Proof

/-- The recipe of a run. -/
def Run.recipe (r : Run) : Recipe := recipeOf r.image

/-- Bytes of the batch entry b (Table RC-3). -/
def batchAt (block : List Byte) (b i n : Nat) : Nat := leAt block (512 + 32 * b + i) n

/-- The home Setting of batch entry b. -/
def homeSt (block : List Byte) (b : Nat) : Nat := batchAt block b 16 1 % 32

/-- ρ: earlier batch entries with the same home (R221). -/
def rankOf (block : List Byte) (b : Nat) : Nat := ((List.range b).filter fun i => homeSt block i == homeSt block b).length

/-- Where the row of batch entry b of a home slot lies: Setting, Facet and first byte (R221). -/
def homePlace (block : List Byte) (sl : Slot) (b : Nat) : Nat × Nat × Nat :=
  let k := rankOf block b
  (homeSt block b, k % 8, sl.bind * 32 + k / 8 * sl.rowLen)

/-- Where the slice of batch entry b of a sliced slot lies in every Facet window of a Setting (R221). -/
def slicePlace (sl : Slot) (b : Nat) : Nat := sl.bind * 32 + b * sl.rowLen

/-- The batch size of a run (Table QU-5). -/
def Desc.batch (d : Desc) : Nat := d.u 10 2

/-- The binding entry that a slot names: the space, and the address for loop indices (R220). -/
def bindWord (block : List Byte) (i : Nat) : Nat := leAt block (8 * i) 8

def slotAddr (block : List Byte) (sl : Slot) (outer inner : Nat) : Nat :=
  (((addrOf (bindWord block sl.bind) : Nat) : Int) + sl.base + sl.outer * outer + sl.inner * inner).toNat % 2 ^ 48

def slotSpace (block : List Byte) (sl : Slot) : Nat := spaceOf (bindWord block sl.bind)

/-- The operation of an instance. -/
def Run.opOf (r : Run) (i : Inst) : Op := r.recipe.ops.getD i.op ⟨0, 0, 0, 0, 0, 0, 0, []⟩

/-- The layer ID of an instance (R240). -/
def layerId (d : Desc) (o : Op) (layer : Nat) : Nat :=
  if o.layerSel = 0xFF then (d.u 4 2 + layer) % 2 ^ 16 else (d.u 4 2 + o.layerSel) % 2 ^ 16

/-- What an instance shows to Loupe (R461). -/
def instWork (d : Desc) (o : Op) (layer : Nat) : Work := ⟨layerId d o layer, o.opId, some d.client, o.flags.testBit 0⟩

/-- The payload of the start and completion records of an instance (Table LP-1). -/
def instBytes (d : Desc) (o : Op) (i : Inst) : List Byte :=
  leBytes 2 (d.u 8 2) ++ leBytes 1 i.op ++ leBytes 1 o.code ++ leBytes 2 i.outer ++ leBytes 2 i.inner

/-- An instance replaced. -/
def Run.setInst (r : Run) (i : Inst) : Run := { r with insts := r.insts.map fun (x : Inst) => if x.n == i.n then i else x }

/-- An instance in flight, by its number. -/
def State.inst (s : State) (n : Nat) : Option (Run × Inst × Desc) :=
  match s.rcp.run with
  | none => none
  | some r =>
    match r.insts.find? (fun i => i.n == n), s.desc r.key with
    | some i, some d => some (r, i, d)
    | _, _ => none

/-- The instance that a command of the sequencer carries out: in flight, of the given operation, and not done. -/
def State.instOf (s : State) (n code : Nat) : Option (Run × Inst × Desc) :=
  match s.inst n with
  | some (r, i, d) => if (r.opOf i).code == code && !i.done && !s.workStopped then some (r, i, d) else none
  | none => none

/-- An instance changed. -/
def State.setInst (s : State) (i : Inst) : State :=
  match s.rcp.run with
  | some r => s.setRun (r.setInst i)
  | none => s

/-- The work of an instance on jobs, transfers, sums and packets taken away. -/
def State.dropWork (s : State) (n : Nat) : State :=
  { s with rcp := { s.rcp with
      jobs := s.rcp.jobs.filter fun j => j.inst != n
      transfers := s.rcp.transfers.filter fun t => t.inst != n
      sums := s.rcp.sums.filter fun x => x.inst != n
      sends := s.rcp.sends.filter fun x => x.inst != n } }

/-- An instance fails: it does no more, and the run starts no further instance (R245). -/
def State.failInst (s : State) (n status : Nat) : State :=
  match (s.dropWork n).inst n with
  | some (r, i, _) =>
    let s := (s.dropWork n).setRun (r.setInst { i with done := true, status := status })
    match s.rcp.run with
    | some r => s.failRun r status 0
    | none => s
  | none => s

/-- How far work has come: it goes on, it waits, or it fails with a status. -/
inductive Halt where
  | go | wait | fail (status : Nat)
deriving DecidableEq, Repr

/-- What decoders and arrays count of work in progress, when it has gone through (R196 to R198, R212). -/
inductive Tally where
  | granules (st n : Nat) (w : Work)
  | badMask (st pa bead : Nat)
  | pass (st f : Nat) (fill : Bool) (w : Work) (products rate skipped : Nat)
deriving DecidableEq, Repr

/-- A Bead with a wrong mask counted, observed and reported (R183, R196). -/
def State.badMask (s : State) (st pa bead : Nat) : State :=
  let s := s.countSat (Reg.FAC_DEC_CNT (st / 8) (st % 8)) Fld.FAC_DEC_CNT_bad_mask 1
  let s := s.observe 1 st 0x044 1 noWork (leBytes 6 pa ++ [BitVec.ofNat 8 bead])
  s.raiseLimited 0x0701 1 st [BitVec.ofNat 8 st]

/-- Granules that a stream decoder has read, counted and observed; the cycles it waited for port B on their way into a bank are a free amount (R212, Table LP-1). -/
def State.countGranules (s : State) (st n : Nat) (w : Work) : State :=
  let (c, s) := s.draw
  let s := s.countWrap (Reg.FAC_DEC_STALL (st / 8) (st % 8)) Fld.FAC_DEC_STALL_portb_wait (Config.free c)
  let s := s.countWrap (Reg.FAC_DEC_CNT (st / 8) (st % 8)) Fld.FAC_DEC_CNT_granules n
  s.observe 1 st 0x041 n w []

/-- The counters of a Facet after a pass of P products with some blocks skipped, in ceil(P / S) of whose cycles products were issued (R197, R198, R212, Table LP-1). -/
def State.countPass (s : State) (st f : Nat) (fill : Bool) (w : Work) (products rate skipped : Nat) : State :=
  let g := st % 8 * 8 + f
  let busy := cdiv products rate
  let s := s.countWrap (Reg.FAC_ARRAY_CNT (st / 8) g) Fld.FAC_ARRAY_CNT_busy busy
  let s := if fill then s.countWrap (Reg.FAC_FILL_CNT (st / 8) g) Fld.FAC_FILL_CNT_cycles busy else s
  let s := s.countWrap (Reg.FAC_SKIP_CNT (st / 8) g) Fld.FAC_SKIP_CNT_blocks skipped
  let s := s.observe 0 (st * 8 + f) 0x001 busy w []
  let s := if fill then s.observe 0 (st * 8 + f) 0x002 busy w [] else s
  (s.observe 0 (st * 8 + f) 0x003 products w []).observe 0 (st * 8 + f) 0x004 skipped w []

/-- A tally counted. -/
def State.tallied (s : State) : Tally → State
  | .granules st n w => s.countGranules st n w
  | .badMask st pa bead => s.badMask st pa bead
  | .pass st f fill w products rate skipped => s.countPass st f fill w products rate skipped

/-- Work in progress: the state, what is left of the bytes read over Ilcen, whether it goes on, what the banks' ECC finds in the words it reads, and what it will have counted. -/
structure Doing where
  s : State
  ext : List Byte
  halt : Halt
  bank : List (Nat × Nat × EccResult)
  tally : List Tally
deriving DecidableEq, Repr

/-- Work that begins with what a command brings. -/
def Doing.start (s : State) (env : Env) : Doing := ⟨s, env.ext, .go, env.banks, []⟩

/-- Whether work goes on. -/
def Doing.on (d : Doing) : Bool := d.halt == .go

/-- A step of work that is taken only while it goes on. -/
def Doing.next (d : Doing) (f : Doing → Doing) : Doing := if d.on then f d else d

/-- Something that work will have counted. -/
def Doing.note (d : Doing) (t : Tally) : Doing := d.next fun d => { d with tally := d.tally ++ [t] }

/-- The state of work that does not go on waiting, with what it has counted. -/
def Doing.counted (d : Doing) : State := d.tally.foldl State.tallied d.s

/-- The vector unit of a Facet used: what its registers hold afterwards is open (R202). -/
def State.useVector (s : State) (g : Nat) : State :=
  { s with fresh := s.fresh + 8192, rcp := { s.rcp with vector := mset (fun _ => 0) s.rcp.vector g s.fresh } }

/-- A lane of a vector register. DESIGN CHOICE: 0 until the unit has been used; afterwards a free value (assumption 80). -/
def State.vectorLane (s : State) (g r l : Nat) : Nat :=
  let base := mget (fun _ => 0) s.rcp.vector g
  if base = 0 then 0 else Config.free (base + 256 * r + l) % 2 ^ 32

/-- A range of an owner's window looked at before it is used: held banks make the work wait, and a refusal fails it with 0xF002 (R156). -/
def Doing.look (d : Doing) (st tag oa n : Nat) : Doing :=
  if !d.on then d
  else
    match d.s.windowVerdict st tag oa n with
    | (.ok, _) => d
    | (.held, _) => { d with halt := .wait }
    | (.refused k, b) => { d with s := d.s.bankFault st b tag k, halt := .fail 0xF002 }

/-- What ECC finds in the words that a byte range of a window touches. -/
def Doing.windowEcc (d : Doing) (st tag oa n : Nat) : List (Nat × EccResult) :=
  let owned := d.s.ownedBanks st tag
  (windowPieces oa n).flatMap fun p =>
    match windowWord owned p.1 with
    | none => []
    | some (bi, k) => (d.bank.filter fun b => b.1 == bi && b.2.1 == k).map fun b => (bi % 64, b.2.2)

/-- A range of an owner's window read: looked at, its corrections counted, and a double-bit error in a word fails the work with 0xF002 (R156, R165). -/
def Doing.readWin (d : Doing) (st tag oa n : Nat) : Doing × List Byte :=
  let d := d.look st tag oa n
  if !d.on then (d, [])
  else
    let found := d.windowEcc st tag oa n
    let s := d.s.countCorrected st (found.map (·.2))
    match found.find? fun x => eccFails x.2 with
    | some (b, _) => ({ d with s := s.bankUncorrectable st b tag, halt := .fail 0xF002 }, [])
    | none => ({ d with s := s }, s.readWindow st tag oa n)

/-- Bytes put into a window that has been looked at (R205). -/
def Doing.put (d : Doing) (st tag oa : Nat) (data : List Byte) : Doing :=
  d.next fun d => { d with s := d.s.writeWindow st tag oa data }

/-- A tile written into a slot of a ring and read from it by the Facet (R193, R194). -/
def Doing.throughRing (d : Doing) (st f ring slot : Nat) (tile : List Byte) : Doing × List Byte :=
  let oa := 32 * ring + 9216 * slot
  let d := (d.look st f oa tile.length).put st f oa tile
  d.readWin st f oa tile.length

/-- A tile of a descriptor in space 0 checked (R109). A requester whose tile was aborted fails. -/
def Doing.tile (d : Doing) (k : DescKey) (requester : Nat) (t : Tile) : Doing × Option SegEnt :=
  if !d.on then (d, none)
  else
    let gone := (d.s.runOf k).bind fun r => if r.aborted.contains requester || r.aborted.contains 999 then some r else none
    match gone with
    | some r =>
      ({ d with s := d.s.setRun { r with aborted := r.aborted.filter fun x => x != requester && x != 999 }, halt := .fail r.status }, none)
    | none =>
      match d.s.checkTile k requester t with
      | (s, .ok e) => ({ d with s := s }, some e)
      | (s, .wait) => ({ d with s := s, halt := .wait }, none)
      | (s, .ended) => ({ d with s := s, halt := .fail (((s.runOf k).map Run.status).getD 0xF002) }, none)

/-- A failed access of a descriptor: a disabled slab after bytes were delivered is an internal failure (R132). -/
def Doing.lose (d : Doing) (k : DescKey) (status : Nat) : Doing :=
  let late := status == 0x8004 && ((d.s.desc k).map Desc.delivered).getD false
  { d with halt := .fail (if late then 0xF002 else status) }

/-- A descriptor has delivered bytes, met a reconstructed granule, or waits for mirror ranges. -/
def State.noteWork (s : State) (k : DescKey) (rebuilt : Bool) (ids : List Nat) : State :=
  match s.desc k with
  | some d => s.setDesc { d with delivered := true, rebuilt := d.rebuilt || rebuilt, waits := d.waits ++ ids }
  | none => s

/-- Whether a READ of an operand of a descriptor is on its way. -/
def State.asking (s : State) (k : DescKey) (piece : Nat) : Bool :=
  let same (p : Purpose) : Bool := p == .operand k.q k.j k.seq piece
  (s.tagsFor same).length != 0 || s.router.waiting.any fun w => same w.2.2.1

/-- The tiles of at most 256 KiB that a range of an operand in space 0 is moved in: address and length (R109). -/
def tilePieces (addr len : Nat) : List (Nat × Nat) :=
  (List.range (cdiv len (2 ^ 18))).map fun i => (addr + i * 2 ^ 18, min (2 ^ 18) (len - i * 2 ^ 18))

/-- Bytes of an operand read by an engine: from the pool tile by tile after each is checked, over Ilcen, or from the client's node, piece by piece under numbers from a first one on (R71, R109). -/
def Doing.fetch (d : Doing) (env : Env) (k : DescKey) (requester : Nat) (via : Via) (space addr len piece : Nat) : Doing × List Byte :=
  if !d.on || len = 0 then (d, [])
  else
    match space with
    | 0 =>
      (tilePieces addr len).foldl (fun (a : Doing × List Byte) t =>
        match a.1.tile k requester ⟨t.1, t.2, 1, 0, false⟩ with
        | (d, none) => (d, [])
        | (d, some e) =>
          match d.s.poolRead env via [k.q, k.j, k.seq, requester, piece, t.1 - addr] (e.paOf t.1) t.2 with
          | (s, .held) => ({ d with s := s, halt := .wait }, [])
          | (s, .fail st _) => (Doing.lose { d with s := s } k st, [])
          | (s, .ok x b _) => ({ d with s := s.noteWork k b [] }, a.2 ++ x)) (d, [])
    | 1 =>
      if !d.s.ilcActive then ({ d with halt := .wait }, [])
      else
        let s := d.s.emit (.ilcenRead addr len)
        if env.extFail then ({ d with s := s, halt := .fail 0x6002 }, [])
        else ({ d with s := s.noteWork k false [], ext := d.ext.drop len }, padTo len d.ext)
    | _ =>
      match d.s.desc k with
      | none => ({ d with halt := .wait }, [])
      | some ds =>
        match rowFrom ds piece 0 len with
        | some x => ({ d with s := d.s.noteWork k false [] }, x)
        | none =>
          let s := (rowPieces len).zipIdx.foldl (fun (s : State) p =>
            if s.asking k (piece + p.2) || ds.pieces.any (fun x => x.1 == piece + p.2) then s
            else s.sendClient ds.client opRead 0 (addr + p.1.1) p.1.2 [] (.operand k.q k.j k.seq (piece + p.2))) d.s
          ({ d with s := s, halt := .wait }, [])

/-- Bytes of an operand written by an engine, to the pool tile by tile; the number is that of its writes to the client's node (R71, R109). -/
def Doing.store (d : Doing) (env : Env) (k : DescKey) (requester space addr : Nat) (data : List Byte) (number : Nat) : Doing :=
  if !d.on || data.isEmpty then d
  else
    match space with
    | 0 =>
      (tilePieces addr data.length).foldl (fun (d : Doing) t =>
        match d.tile k requester ⟨t.1, t.2, 1, 0, true⟩ with
        | (d, none) => d
        | (d, some e) =>
          match d.s.poolWrite env .home (e.paOf t.1) (slice data (t.1 - addr) t.2) with
          | (s, .held) => { d with s := s, halt := .wait }
          | (s, .fail st _) => Doing.lose { d with s := s } k st
          | (s, .ok _ b ids) => { d with s := s.noteWork k b ids }) d
    | 1 => if !d.s.ilcActive then { d with halt := .wait } else { d with s := (d.s.emit (.ilcenWrite addr data)).noteWork k false [] }
    | _ =>
      match d.s.desc k with
      | none => { d with halt := .wait }
      | some ds => { d with s := (d.s.sendOperand ds addr data number).noteWork k false [] }

/-- Rows taken one after the other from a first one on: how many were done before the work waits or fails. A row that waits keeps only what it asked for. -/
def Doing.rows (f : Nat → Doing → Doing) : Nat → Nat → Doing → Doing × Nat
  | 0, b, d => (d, b)
  | n + 1, b, d =>
    let d' := f b d
    if d'.on then Doing.rows f n (b + 1) d' else (d', b)

/-- The number of a piece that an instance reads from the client's node, for a batch row and a place in it. -/
def Inst.piece (i : Inst) (row place : Nat) : Nat := (i.n + 1) * 2 ^ 64 + row * 2 ^ 40 + place

/-- The number of the writes of an instance to the client's node, apart from those of the pieces it reads. -/
def Inst.number (i : Inst) : Nat := (i.n + 1) * 2 ^ 64 + 2 ^ 63

/-- Work that has to wait and is taken up again from its start: its writes are as if not made, and what it has asked for stays. -/
def State.backOff (s w : State) : State :=
  { s with coh := { s.coh with lossWaits := w.coh.lossWaits }, que := w.que, router := w.router, regs := w.regs, events := w.events
           loupe := w.loupe, out := w.out }

/-- The requester code of a mover of a Setting, and of its stream decoder (Table SG-7). -/
def moverReq (st n : Nat) : Nat := st * 8 + (Config.moverOf n).val % 4
def decoderReq (st : Nat) : Nat := st * 8 + 4

/-- The mover of a Setting that takes a transfer of an instance. -/
def moverFor (st n : Nat) : Nat := st * 4 + (Config.moverOf n).val % 4

/-- Bytes written to a WEIGHT or TENSOR destination counted, before the run has failed, for the detail of a failed run (R245). -/
def State.countBytes (s : State) (n : Nat) : State :=
  match s.rcp.run with
  | some r => if r.failed then s else s.setRun { r with bytes := r.bytes + n }
  | none => s

/-- What the work of an instance has come to: where it waits it is tried again, and where it fails the instance fails. `row` is the next batch row. -/
def Doing.settle (d : Doing) (n row : Nat) (finished : Bool) : State :=
  match d.halt with
  | .fail st => d.counted.failInst n st
  | .wait =>
    match d.counted.inst n with
    | some (_, i, _) => d.counted.setInst { i with row := row, begun := true }
    | none => d.counted
  | .go =>
    match d.counted.inst n with
    | some (_, i, _) => d.counted.setInst { i with row := row, begun := true, done := finished }
    | none => d.counted

/-- Stochastic-rounding numbers drawn for a row: one for each element (R188). -/
def State.drawRow (s : State) (n : Nat) : List Nat × State :=
  ((List.range n).map fun i => Config.free (s.fresh + i), { s with fresh := s.fresh + n })

/-- The values of a stored row as FP32 words (R176). -/
def rowWords (f : Fmt) (w : Nat) (bs : List Byte) : List Nat := (ofRow f w bs).map to32

/-- FP32 words stored as a row of a format, with its padding (R175, R221). -/
def wordsRow (f : Fmt) (rs : List Nat) (sr : Bool) (ws : List Nat) : List Byte :=
  let bs := toRow f rs sr (ws.map of32)
  padTo (roundUp 32 bs.length) bs

/-- A stored row with FP32 words put in from a column on: the blocks they touch are converted again, the others stay. -/
def putWords (f : Fmt) (w : Nat) (rs : List Nat) (sr : Bool) (row : List Byte) (col : Nat) (ws : List Nat) : List Byte :=
  let old := rowWords f w row
  let all := (List.range w).map fun i => if col ≤ i && i < col + ws.length then ws.getD (i - col) 0 else old.getD i 0
  let lo := col / 32 * 32
  let hi := min w (roundUp 32 (col + ws.length))
  let part := toRow f rs sr (((all.drop lo).take (hi - lo)).map of32)
  let bits := fmtBits f
  let vals := (hi - lo) * bits / 8
  let row := splice row (lo * bits / 8) (part.take vals)
  if fmtScaled f then splice row (w * bits / 8 + lo / 32) (slice part vals ((hi - lo + 31) / 32)) else row

/-- The window ranges that an operation reads and writes (R216). -/
def Recipe.reads (r : Recipe) (o : Op) : List WRange := [(r.slot o.src0).range, (r.slot o.src1).range]
def Recipe.writes (r : Recipe) (o : Op) : List WRange :=
  (r.slot o.dst).range ::
    (if o.code = 0x01 || o.code = 0x0C then [r.ringRange o.fill]
     else if o.code = 0x0D then [r.ringRange false, r.ringRange true, (r.scratch o).range] else [])

/-- The binding indices that an operation reads and writes through. -/
def Recipe.bindReads (r : Recipe) (o : Op) : List Nat :=
  (([o.src0, o.src1].filterMap r.slot?).filter fun s => s.kind == 1 || s.kind == 3).map (·.bind) ++ (if o.code = 0x12 then [o.p 8 1] else [])
def Recipe.bindWrites (r : Recipe) (o : Op) : List Nat :=
  (([o.dst].filterMap r.slot?).filter fun s => s.kind == 1 || s.kind == 3).map (·.bind)

/-- Whether an operation uses the parameter area: those that load a gain or frequencies into the windows. -/
def Recipe.usesParam (r : Recipe) (o : Op) : Bool := (o.code == 0x03 || o.code == 0x04) && (r.slot? o.src1).isSome

/-- Whether an instance of operation b must wait for an earlier one of operation a (R216). -/
def Recipe.depends (r : Recipe) (a b : Op) : Bool :=
  let meet (x y : List WRange) : Bool := x.any fun u => y.any fun v => wOverlap u v
  meet (r.writes a) (r.reads b ++ r.writes b) || meet (r.reads a) (r.writes b) ||
  ((r.bindWrites a).any fun i => (r.bindReads b ++ r.bindWrites b).contains i) ||
  ((r.bindReads a).any fun i => (r.bindWrites b).contains i) ||
  (r.usesParam a && r.usesParam b)

/-- The next position after an operation: loops whose body has ended go round again or are left (R239). -/
def settleLoops (ops : List Op) : List (Nat × Nat) → Nat → List (Nat × Nat) × Nat
  | [], pc => ([], pc)
  | (l, i) :: t, pc =>
    let o := ops.getD l ⟨0, 0, 0, 0, 0, 0, 0, []⟩
    if pc ≤ l + o.p 10 1 then ((l, i) :: t, pc)
    else if i + 1 < o.p 8 2 then ((l, i + 1) :: t, l + 1)
    else settleLoops ops t pc

/-- The run past the operation at its position. -/
def Run.advance (r : Run) : Run :=
  let (ls, pc) := settleLoops r.recipe.ops r.loops (r.pc + 1)
  { r with loops := ls, pc := pc }

/-- The indices of the outermost and of the inner loop, and the layer index (R220, R239). -/
def Run.outer (r : Run) : Nat := (r.loops.getLast?.map (·.2)).getD 0
def Run.inner (r : Run) : Nat := if r.loops.length = 2 then (r.loops.head?.map (·.2)).getD 0 else 0
def Run.layer (r : Run) : Nat :=
  ((r.loops.filterMap fun l =>
    match r.recipe.ops[l.1]? with
    | some o => if (o.p 11 1).testBit 0 then some (o.p 12 2 + l.2) else none
    | none => none).head?).getD 0

/-- A run that has no instance left and starts none ends (R245). -/
def State.endRun (s : State) : State :=
  match s.rcp.run with
  | none => s
  | some r =>
    if !r.insts.isEmpty || !(r.failed || r.recipe.ops.length ≤ r.pc) then s
    else
      let q := r.key.q.val
      let s := s.countWrap (Reg.RCP_CNT q) Fld.RCP_CNT_runs 1
      let s := { s with rcp := { s.rcp with run := none, channels := s.rcp.channels.filter fun c => c.key != r.key } }
      match s.desc r.key with
      | none => s
      | some d =>
        if r.failed then s.finishDesc d r.status 0 (if r.status / 0x1000 = 2 then r.detail else r.bytes)
        else s.finishDesc d 0 r.tokens 0

end Sys2Proof.Machine
end

