-- ==== Sys2Proof/Machine/Sequencer.lean ====
section
/-! DEFINITION. Recipes: the issue checks and the start of a run, the order of its instances, loops and barriers, and the loading of the recipe store (R214 to R217, R238, R239, R241 to R245). -/

namespace Sys2Proof.Machine

open Sys2Proof

/-- Where slot r of the recipe store lies (R241). -/
def State.storeAt (s : State) (slot : Nat) : Nat := s.fld (Reg.RCP_STORE 0) Fld.RCP_STORE_base + slot * 8192

/-- Whether a slot of the recipe store holds a recipe (R241). -/
def State.storeValid (s : State) (slot : Nat) : Bool := (s.fld (Reg.RCP_VALID 0 (slot / 64)) Fld.RCP_VALID_valid).testBit (slot % 64)

/-- The valid bit of a slot of the recipe store set or cleared. -/
def State.setStoreValid (s : State) (slot : Nat) (v : Bool) : State :=
  let off := Reg.RCP_VALID 0 (slot / 64)
  s.setFld off Fld.RCP_VALID_valid (withBits (s.fld off Fld.RCP_VALID_valid) (slot % 64) 1 (bit v))

/-- The loop indices with which operation i runs: of the outermost and of the inner loop around it. -/
def Recipe.loopPairs (r : Recipe) (i : Nat) : List (Nat × Nat) :=
  let count (l : Nat) : Nat := ((r.ops[l]?).map fun o => o.p 8 2).getD 1
  match r.loopsAt i with
  | [] => [(0, 0)]
  | [a] => (List.range (count a)).map fun o => (o, 0)
  | a :: b :: _ => (List.range (count a)).flatMap fun o => (List.range (count b)).map fun n => (o, n)

/-- The bytes of a WEIGHT or TENSOR slot from an address on, as a tile (R106, R220, R222). -/
def slotTile (sl : Slot) (addr : Nat) (write : Bool) : Tile :=
  if sl.kind = 1 then ⟨addr, 32 * sl.shardSize, 1, 0, write⟩ else ⟨addr, sl.tensorRow, sl.rows, sl.pitch, write⟩

/-- Whether a slot byte names slot n. -/
def namesSlot (b n : Nat) : Bool := b / 64 % 2 == 0 && b % 64 == n

/-- The loop indices with which slot n is used: those of every operation that names it, and 0 where none does (R220, R244). -/
def Recipe.pairsOf (r : Recipe) (n : Nat) : List (Nat × Nat) :=
  match r.ops.zipIdx.filter fun o => [o.1.dst, o.1.src0, o.1.src1].any fun b => namesSlot b n with
  | [] => [(0, 0)]
  | os => os.flatMap fun o => r.loopPairs o.2

/-- The ranges in space 0 of a run beside its binding block: of each WEIGHT and TENSOR slot the union of its bytes over all loop indices (R106, R244). -/
def Recipe.issueRanges (r : Recipe) (block : List Byte) : List (List Tile) :=
  (r.slots.zipIdx.filter fun x => (x.1.kind == 1 || x.1.kind == 3) && slotSpace block x.1 == 0).map fun x =>
    (r.pairsOf x.2).map fun p => slotTile x.1 (slotAddr block x.1 p.1 p.2) (r.ops.any fun o => namesSlot o.dst x.2)

/-- The tiles of a range that hold a byte. -/
def realTiles (ts : List Tile) : List Tile := ts.filter fun t => t.size != 0

/-- Check 6 of Table SG-2 for one tile of a range, where nothing before it has failed or waits. -/
def State.issuePages (s : State) (k : DescKey) (e : SegEnt) (t : Tile) (so : Option (Option (Nat × Nat))) : State × Option (Option (Nat × Nat)) :=
  match so with
  | some none =>
    match s.lookPages k e t [] with
    | (s, .present) => (s, some none)
    | (s, .wait) => (s, none)
    | (s, .absent _ va) => (s, some (some (0x2002, faultDetail va 0xFF)))
  | _ => (s, so)

/-- Checks 1 to 6 of Table SG-2 over several ranges, each the union of some tiles: done, still waiting for a bitmap line, or the status and detail of the first that fails. -/
def State.issueChecks (s : State) (k : DescKey) (d : Desc) (rs : List (List Tile)) : State × Option (Option (Nat × Nat)) :=
  (rs.map realTiles).foldl (fun (a : State × Option (Option (Nat × Nat))) ts =>
    match a.2, ts with
    | some none, [] => a
    | some none, t :: ts =>
      match a.1.rangeCheck d.client d.snap d.issueNt [] (t :: ts) with
      | .error e => (a.1, some (some e))
      | .ok e => if e.faultWait then a else (t :: ts).foldl (fun (a : State × Option (Option (Nat × Nat))) t => a.1.issuePages k e t a.2) a
    | _, _ => a) (s, some none)

/-- A descriptor with the segments of ranges whose leases have been checked at issue (R309). -/
def Desc.leasesOf (d : Desc) (rs : List (List Tile)) : Desc :=
  { d with leased := d.leased ++ ((rs.map realTiles).filterMap fun ts => if ts.isEmpty then none else (segOf d.snap (rangeFirst ts)).map SegEnt.seg) }

/-- The issue of a descriptor comes to its end: the checks of its remaining ranges, then a status of its own, 0 for none; where all is well it waits for its turn, with what it has read (R106, R309). -/
def State.endIssue (s : State) (d : Desc) (rs : List (List Tile)) (status : Nat) (pieces : List (Nat × List Byte)) : State :=
  match s.issueChecks d.key d rs with
  | (s, none) => s
  | (s, some (some (st, detail))) => s.endDesc d st 0 detail
  | (s, some none) =>
    if status != 0 then s.endDesc d status 0 0
    else
      match s.desc d.key with
      | none => s
      | some d => s.setDesc (Desc.leasesOf { d with progress := 1, delivered := false, pieces := pieces } rs)

/-- Whether a batch entry is outside Table RC-3 or R221 (R244). -/
def Recipe.entryBad (r : Recipe) (block : List Byte) (b : Nat) : Bool :=
  let temp := of32 (batchAt block b 20 2 * 65536)
  (r.slots.any fun s => s.home && s.rows ≤ rankOf block b / 8) || 2 ^ 20 ≤ batchAt block b 8 4 || 1024 < batchAt block b 18 2 ||
  temp.isNan || temp.lt .zero || 32 ≤ batchAt block b 16 1 || batchAt block b 17 1 != 0

/-- The index that GATHER and SCATTER take from a batch entry (R233). -/
def tensorIndex (block : List Byte) (which b : Nat) : Nat :=
  if which = 0 then batchAt block b 12 4 else if which = 1 then batchAt block b 8 4 else b

/-- Whether a range of the pool lies in wide slabs. -/
def State.inWide (s : State) (pa n : Nat) : Bool :=
  s.inSlabs pa n && (slabPieces pa n).all fun p => s.fld (slabReg (p.1 / 2 ^ 30)) Fld.STK_SLAB_mode == 2

/-- The conditions of R244 that refuse a run at issue, after the slot has been found valid. A WEIGHT in another space lies outside wide slabs. DESIGN CHOICE: a WEIGHT or TENSOR slot whose binding is no address word (space 3, or a reserved bit set) is refused too (assumption 75). -/
def State.runRefused (s : State) (d : Desc) (r : Recipe) (block : List Byte) : Bool :=
  let n := d.batch
  let each (p : Nat → Bool) : Bool := (List.range n).any p
  let wide (sl : Slot) (p : Nat × Nat) : Bool :=
    let a := slotAddr block sl p.1 p.2
    match segOf d.snap a with
    | some e => a % 8192 == 0 && s.inWide (e.paOf a) (32 * sl.shardSize)
    | none => false
  r.maxBatch < n || (r.slots.any fun s => s.sliced && decide (s.rows < n)) || each (r.entryBad block) ||
  (r.ops.any fun o => o.code == 0x0A && each fun b => decide ((r.slot o.src0).rows ≤ tensorIndex block (o.p 8 1) b)) ||
  ((List.range 256).any fun g => decide ((s.ownedBanks (g / 8) (g % 8)).length < r.minM)) ||
  (r.slots.zipIdx.any fun x => x.1.kind == 1 && (slotSpace block x.1 != 0 || !(r.pairsOf x.2).all (wide x.1))) ||
  (r.slots.any fun x => (x.kind == 1 || x.kind == 3) && decide (3 * 2 ^ 48 ≤ bindWord block x.bind)) ||
  (r.ops.any fun o => o.code == 0x13 && s.rcp.channels.any fun c => c.id == o.p 10 2)

/-- The channel that the RECV at place i of a recipe opens (R238). -/
def channelOf (k : DescKey) (r : Recipe) (block : List Byte) (n : Nat) (o : Op) (i : Nat) : Channel :=
  let sl := r.slot o.dst
  { id := o.p 10 2, key := k, op := i, fmt := sl.fmtCode, rowBytes := sl.rowLen, at' := (List.range n).map (homePlace block sl), got := [] }

/-- RECIPE_RUN: a descriptor that has issued: its binding block is read, the checks of its slots and of R244 are made, its channels open, and it waits for its turn. -/
def recipeRunEff (k : DescKey) (env : Env) (s : State) : State :=
  match s.desc k with
  | none => s
  | some d =>
    if d.phase != .issued || d.op != 0x10 || d.progress != 0 || !s.engineUp k.q || s.hung k.q then s
    else
      let w := d.u 16 8
      let n := d.batch
      let (w1, block) := Doing.fetch (Doing.start s env) env k (256 + k.q.val) .lineCache (spaceOf w) (addrOf w) (512 + 32 * n) 0
      match w1.halt with
      | .wait => w1.s
      | .fail st => match w1.s.desc k with
        | some d => if d.phase == .ended then w1.s else w1.s.endDesc d st 0 0
        | none => w1.s
      | .go =>
        let slot := d.u 8 2
        if !w1.s.storeValid slot then w1.s.endDesc d 0x9001 0 0
        else
          match w1.s.poolRead env .lineCache [k.q, k.j, k.seq, 9] (w1.s.storeAt slot) 8192 with
          | (s', .held) => s'
          | (s', .fail st _) => s'.endDesc d st 0 0
          | (s', .ok image rebuilt _) =>
            let s' := s'.noteRead k rebuilt
            let r := recipeOf image
            match s'.issueChecks k d (r.issueRanges block) with
            | (s', none) => s'
            | (s', some (some (st, detail))) => s'.endDesc d st 0 detail
            | (s', some none) =>
              if s'.runRefused d r block then s'.endDesc d 0x8004 0 0
              else
                let cs := (r.ops.zipIdx.filter fun o => o.1.code == 0x13).map fun o => channelOf k r block n o.1 o.2
                match s'.desc k with
                | none => s'
                | some d =>
                  State.setDesc { s' with rcp := { s'.rcp with channels := s'.rcp.channels ++ cs } }
                    (Desc.leasesOf { d with progress := 1, delivered := false, pieces := [(0, block)] } (r.issueRanges block))

def execRecipeRun (k : DescKey) (env : Env) (s : State) : Result := .next (recipeRunEff k env s)

/-- RECIPE_RUN_START: the sequencer has fetched the image, and the run begins (R214). -/
def recipeRunStartEff (k : DescKey) (env : Env) (s : State) : State :=
  match s.jobOf k 0x10 with
  | none => s
  | some d =>
    if s.rcp.run.isSome || !s.on (Reg.RCP_CTL k.q) Fld.RCP_CTL_enable then s
    else
      match s.poolRead env .lineCache [k.q, k.j, k.seq, 9] (s.storeAt (d.u 8 2)) 8192 with
      | (s', .held) => s'
      | (s', .fail st _) => s'.endDesc d st 0 0
      | (s', .ok image rebuilt _) =>
        (s'.noteRead k rebuilt).setRun
          { key := k, image := image, block := (d.pieces.getD 0 (0, [])).2, pc := 0, loops := [], next := 0, insts := []
            failed := false, status := 0, detail := 0, bytes := 0, tokens := 0, aborted := [] }

def execRecipeRunStart (k : DescKey) (env : Env) (s : State) : Result := .next (recipeRunStartEff k env s)

/-- The run whose sequencer may take its next operation, with that operation (R216, R473, R477). -/
def State.sequencer (s : State) : Option (Run × Desc × Op) :=
  match s.rcp.run with
  | none => none
  | some r =>
    if r.failed || s.workStopped || s.hung r.key.q then none
    else
      match r.recipe.ops[r.pc]?, s.desc r.key with
      | some o, some d => some (r, d, o)
      | _, _ => none

/-- Whether the units of an operation accept it: the Settings by FAC_CTL.enable, attention by ATN_CTL.enable, expert dispatch by EXD_CTL.enable (Tables FA-8, AT-9, EX-10). -/
def State.acceptsOp (s : State) (q code : Nat) : Bool :=
  s.settingsAccept && (code != 0x0C || s.on (Reg.ATN_CTL q) Fld.ATN_CTL_enable) && (code != 0x0D || s.on (Reg.EXD_CTL q) Fld.EXD_CTL_enable)

/-- INSTANCE_START: the next operation instance starts: its units accept it, fewer than 8 are in flight, and none of them is one it depends on (R216). -/
def instanceStartEff (s : State) : State :=
  match s.sequencer with
  | none => s
  | some (r, d, o) =>
    if o.code = 0x10 || o.code = 0x11 || !s.acceptsOp r.key.q o.code || 8 ≤ r.insts.length || r.insts.any fun i => r.recipe.depends (r.opOf i) o then s
    else
      let i : Inst := { n := r.next, op := r.pc, outer := r.outer, inner := r.inner, layer := r.layer, begun := false, row := 0
                        done := false, waits := [], nt := s.nt, status := 0 }
      let s := s.setRun { r.advance with next := r.next + 1, insts := r.insts ++ [i] }
      (s.observe 6 r.key.q 0x141 1 (instWork d o i.layer) (instBytes d o i)).feedWatchdog r.key.q

def execInstanceStart (s : State) : Result := .next (instanceStartEff s)

/-- INSTANCE_COMPLETE: every write of an instance is visible and every contribution acknowledged (R216). A failed instance ends here too. A run without instances left ends (R245). -/
def instanceCompleteEff (n : Nat) (s : State) : State :=
  match s.inst n with
  | none => s
  | some (r, i, d) =>
    if !i.done || s.workStopped || (s.rcp.jobs.any fun j => j.inst == n) || (s.rcp.transfers.any fun t => t.inst == n) ||
        (s.rcp.sums.any fun x => x.inst == n) || (s.rcp.sends.any fun x => x.inst == n) || s.mirrorOpen i.waits || s.mirrorOpen d.waits ||
        !(s.operandWrites r.key fun p => p / 2 ^ 64 == n + 1).isEmpty then s
    else
      let o := r.opOf i
      let s := s.setRun { r with insts := r.insts.filter fun x => x.n != n }
      let s := s.setDesc { d with pieces := d.pieces.filter fun p => p.1 / 2 ^ 64 != n + 1 }
      let s := s.observe 6 r.key.q 0x142 1 (instWork d o i.layer) (instBytes d o i ++ leBytes 2 i.status)
      (s.feedWatchdog r.key.q).endRun

def execInstanceComplete (n : Nat) (s : State) : Result := .next (instanceCompleteEff n s)

/-- LOOP: the run enters its body with index 0 (R239). -/
def loopEff (s : State) : State :=
  match s.sequencer with
  | some (r, _, o) => if o.code = 0x10 then s.setRun { r with loops := (r.pc, 0) :: r.loops, pc := r.pc + 1 } else s
  | none => s

def execLoop (s : State) : Result := .next (loopEff s)

/-- BARRIER: every earlier instance has completed; it completes at once (R217). -/
def barrierEff (s : State) : State :=
  match s.sequencer with
  | some (r, _, o) => if o.code = 0x11 && r.insts.isEmpty then (s.setRun r.advance).endRun else s
  | none => s

def execBarrier (s : State) : Result := .next (barrierEff s)

/-- A write of RCP_LOAD_CTL: the slot, which takes the write at once, and with go or unload a load or unload; while busy, these are ignored and logged (R242). -/
def rcpLoadWrite (path : Path) (value : Word) (s : State) : State :=
  let off := Reg.RCP_LOAD_CTL 0
  let go := getF value Fld.RCP_LOAD_CTL_go == 1
  let unload := getF value Fld.RCP_LOAD_CTL_unload == 1
  let busy := s.on off Fld.RCP_LOAD_CTL_busy
  let s := s.writeFields path off value
  if (go || unload) && busy then s.logViol path 4 off
  else
    let slot := getF value Fld.RCP_LOAD_CTL_slot
    if !go && !unload then s
    else
      let s := s.setFld off Fld.RCP_LOAD_CTL_busy 1
      let s := if go then s else s.setStoreValid slot false
      { s with rcp := { s.rcp with loading := some ⟨slot, (s.reg (Reg.RCP_LOAD_SRC 0)).toNat, go⟩ } }

def execRcpLoad (path : Path) (value : Word) (s : State) : Result := .next (rcpLoadWrite path (setF value Fld.RCP_LOAD_CTL_go 1) s)

def execRcpUnload (path : Path) (value : Word) (s : State) : Result := .next (rcpLoadWrite path (setF value Fld.RCP_LOAD_CTL_unload 1) s)

/-- A load ends with a result of Table RC-7. -/
def State.loadResult (s : State) (slot result index : Nat) : State :=
  let off := Reg.RCP_LOAD_STATUS 0
  let s := (s.setFld off Fld.RCP_LOAD_STATUS_result result).setFld off Fld.RCP_LOAD_STATUS_index index
  let s := (s.setFld off Fld.RCP_LOAD_STATUS_slot slot).setFld (Reg.RCP_LOAD_CTL 0) Fld.RCP_LOAD_CTL_busy 0
  { s with rcp := { s.rcp with loading := none } }

/-- The image that a load has read: checked, and copied into the store where every check holds (R242, R243). -/
def State.loadImage (s : State) (env : Env) (slot : Nat) (b : List Byte) : State :=
  let (result, index) := loadCheck b
  if result != 0 then s.loadResult slot result index
  else if !s.inSlabs (s.storeAt 0) (2 ^ 23) then s.loadResult slot 13 0
  else
    match s.poolWrite env .home (s.storeAt slot) (b.take (imageSize b)) with
    | (s', .ok _ _ _) => (s'.setStoreValid slot true).loadResult slot 0 0
    | (s', .held) => s'
    | (s', .fail _ _) => s'.loadResult slot 13 0

/-- RCP_LOAD_DONE: the load or unload ends (R242, R243). A header that can be read and fails one of the checks 1 to 4 is reported before a body that cannot. -/
def rcpLoadDoneEff (env : Env) (s : State) : State :=
  match s.rcp.loading with
  | none => s
  | some l =>
    if s.workStopped then s
    else if !l.load then { s.setFld (Reg.RCP_LOAD_CTL 0) Fld.RCP_LOAD_CTL_busy 0 with rcp := { s.rcp with loading := none } }
    else
      match spaceOf l.src with
      | 0 =>
        match s.poolRead env .lineCache [l.slot, l.src, 10] (addrOf l.src) 64 with
        | (s', .held) => s'
        | (s', .fail _ _) => s'.loadResult l.slot 12 0
        | (s', .ok h _ _) =>
          match s'.poolRead env .lineCache [l.slot, l.src, 11] (addrOf l.src) (min (imageSize h) 6208) with
          | (s', .held) => s'
          | (s', .fail _ _) => s'.loadResult l.slot (if headerCheck h = 0 then 12 else headerCheck h) 0
          | (s', .ok b _ _) => s'.loadImage env l.slot b
      | 1 =>
        if !s.ilcActive then s.loadResult l.slot 12 0
        else
          let s := s.emit (.ilcenRead (addrOf l.src) 6208)
          if env.extFail then s.loadResult l.slot 12 0 else s.loadImage env l.slot (padTo 6208 env.ext)
      | _ => s.loadResult l.slot 12 0

def execRcpLoadDone (env : Env) (s : State) : Result := .next (rcpLoadDoneEff env s)

end Sys2Proof.Machine
end

