-- ==== Sys2Proof/Machine/Facets.lean ====
section
/-! DEFINITION. MATMUL on the Facets: stream decoder, staging rings, passes, sweeps, mover transfers and mesh reductions (R192 to R208, R227, R228). -/

namespace Sys2Proof.Machine

open Sys2Proof

/-- The shape of a MATMUL: its weight and activation slots, rate class, positions per tile, tiles of a row block, row blocks of a shard, sweeps and tokens. -/
structure MatShape where
  w : Slot
  a : Slot
  cls : Nat
  per : Nat
  tiles : Nat
  blocks : Nat
  sweeps : Nat
  tokens : Nat
deriving DecidableEq, Repr

def matShape (r : Recipe) (o : Op) (batch : Nat) : MatShape :=
  let w := r.slot o.src0
  let a := r.slot o.src1
  let c := rateClass w.fmt a.fmt
  ⟨w, a, c, tilePositions w.dens c, w.rowTiles a.fmt, cdiv w.shardRows 64, cdiv batch 256, batch⟩

/-- Rows of row block rb of a shard, and tokens of a sweep. -/
def MatShape.rowsOf (m : MatShape) (rb : Nat) : Nat := min 64 (m.w.shardRows - 64 * rb)
def MatShape.tokensOf (m : MatShape) (sweep : Nat) : Nat := min 256 (m.tokens - 256 * sweep)

/-- Stored positions of a K tile, filler Beads among them (R181, R195, Table FA-3), and those of K tile t that lie within the operand. -/
def MatShape.posOf (m : MatShape) (_ : Nat) : Nat := m.per
def MatShape.realOf (m : MatShape) (t : Nat) : Nat := min m.per (m.w.shardCols - m.per * t)

/-- Accumulators at zero for a sweep. -/
def MatShape.zeroAcc (m : MatShape) (rb sweep : Nat) : List Nat := List.replicate (m.rowsOf rb * m.tokensOf sweep) 0

/-- MATMUL begins: every Facet of every Setting takes its row blocks of its Setting's shard, row block j going to Facet j mod 8 (R227). -/
def matmulEff (n : Nat) (s : State) : State :=
  match s.instOf n 0x01 with
  | none => s
  | some (r, i, d) =>
    if i.begun then s
    else
      let o := r.opOf i
      let m := matShape r.recipe o d.batch
      let jobs := (List.range 256).filterMap fun g =>
        let bs := (List.range m.blocks).filter fun b => b % 8 == g % 8
        match bs with
        | [] => none
        | b :: _ => some ({ inst := n, st := g / 8, f := g % 8, fill := o.fill, blocks := bs, rb := 0, sweep := 0, tile := 0, tok := 0, loaded := 0
                            slots := [], acc := m.zeroAcc b 0, full := false } : FacetJob)
      State.setInst { s with rcp := { s.rcp with jobs := s.rcp.jobs ++ jobs } } { i with begun := true, done := true }

def execMatmul (n : Nat) (s : State) : Result := .next (matmulEff n s)

/-- The job of a context of a Facet. -/
def State.jobAt (s : State) (st f : Nat) (fill : Bool) : Option FacetJob :=
  s.rcp.jobs.find? fun j => j.st == st && j.f == f && j.fill == fill

/-- A job replaced. -/
def State.setJob (s : State) (j : FacetJob) : State :=
  { s with rcp := { s.rcp with jobs := s.rcp.jobs.map fun (x : FacetJob) => if x.st == j.st && x.f == j.f && x.fill == j.fill then j else x } }

/-- A job with the shape of its operation. -/
def State.jobShape (s : State) (j : FacetJob) : Option (Run × Inst × Desc × Op × MatShape) :=
  match s.inst j.inst with
  | some (r, i, d) => some (r, i, d, r.opOf i, matShape r.recipe (r.opOf i) d.batch)
  | none => none

/-- The number of a K tile in a job's order of streaming: with hold each row block's tiles come once, else once for each sweep (R199, R228). -/
def tileSeq (m : MatShape) (hold : Bool) (rb sweep tile : Nat) : Nat :=
  if hold then rb * m.tiles + tile else (rb * m.sweeps + sweep) * m.tiles + tile

/-- The row block (by its place in the job) and K tile of a tile number. -/
def tileAt (m : MatShape) (hold : Bool) (t : Nat) : Nat × Nat :=
  if hold then (t / m.tiles, t % m.tiles) else (t / m.tiles / m.sweeps, t % m.tiles)

/-- The parts of row r of a K tile in its shard: first byte and length of values, masks and scales (Tables NF-5 and FA-2). -/
def tileParts (m : MatShape) (row t : Nat) : (Nat × Nat) × (Nat × Nat) × (Nat × Nat) :=
  let w := m.w
  let bits := fmtBits w.fmt
  let p0 := m.per * t
  let n := beadCount w.dens
  let g := row * w.pitch + p0 / 2048 * groupBytes w.dens w.fmt
  let j0 := p0 % 2048 / 64
  let b := cdiv (m.posOf t) 64
  let v := 32 * n * bits / 8
  if w.dens = 0 then
    ((g + p0 % 2048 * bits / 8, m.posOf t * bits / 8), (0, 0), (g + v + j0, if w.fmt = .bf16 then 0 else b))
  else ((g + j0 * n * bits / 8, b * n * bits / 8), (g + v + 8 * j0, 8 * b), (g + v + 256 + j0, b))

/-- The pieces of a range of shard bytes as addresses of Setting st's part of a WEIGHT operand (R222). -/
def shardPieces (base st j n : Nat) : List (Nat × Nat) :=
  (granulePieces j n).map fun p => (base + p.1 / 256 * 8192 + st * 256 + p.1 % 256, p.2)

/-- A number put into an ascending list without repeats. -/
def insertAsc (x : Nat) : List Nat → List Nat
  | [] => [x]
  | y :: t => if x < y then x :: y :: t else if x = y then y :: t else y :: insertAsc x t

/-- The granules in which byte ranges lie, in ascending order. -/
def granulesOf (ranges : List (Nat × Nat)) : List Nat :=
  ((ranges.flatMap fun r => granulePieces r.1 r.2).map fun p => p.1 / 256).foldl (fun l g => insertAsc g l) []

/-- Byte ranges read granule by granule in ascending order of address, and the bytes in the order of the ranges (R193). -/
def Doing.gather (d : Doing) (ranges : List (Nat × Nat)) (read : Doing → Nat → Doing × List Byte) : Doing × List Byte :=
  let (d, got) := (granulesOf ranges).foldl (fun (a : Doing × List (Nat × List Byte)) g =>
    let (d, x) := read a.1 (256 * g)
    (d, a.2 ++ [(g, x)])) (d, [])
  (d, (ranges.flatMap fun r => granulePieces r.1 r.2).flatMap fun p =>
    slice (((got.find? fun g => g.1 == p.1 / 256).map (·.2)).getD []) (p.1 % 256) p.2)

/-- The ranges of a tile in the order of its slot layout: values, masks and scales, row by row (Table FA-2). `addr` gives the places of a range of matrix bytes. -/
def tileRanges (m : MatShape) (addr : Nat → Nat → List (Nat × Nat)) (rb t : Nat) : List (Nat × Nat) :=
  let parts := (List.range (m.rowsOf rb)).map fun row => tileParts m (64 * rb + row) t
  (parts.flatMap fun p => addr p.1.1 p.1.2) ++ (parts.flatMap fun p => addr p.2.1.1 p.2.1.2) ++ parts.flatMap fun p => addr p.2.2.1 p.2.2.2

/-- Where the masks of a tile begin in its slot, and the bytes of the tile (Table FA-2). -/
def tileMasks (m : MatShape) (rb t : Nat) : Nat := m.rowsOf rb * (tileParts m 0 t).1.2
def tileBytes (m : MatShape) (rb t : Nat) : Nat :=
  let p := tileParts m 0 t
  m.rowsOf rb * (p.1.2 + p.2.1.2 + p.2.2.2)

/-- Masks of a tile whose count is not N, as row and Bead of the row. -/
def badMasks (dens rows beads : Nat) (masks : List Byte) : List (Nat × Nat) :=
  if dens = 0 then []
  else
    (List.range (rows * beads)).filterMap fun x =>
      if popCount (leAt masks (8 * x) 8) == beadCount dens then none else some (x / beads, x % beads)

/-- What the decoder counts of a tile: its granules, and each Bead with a wrong mask, by the address of the mask (R183, R196). -/
def tileTally (m : MatShape) (addr : Nat → Nat → List (Nat × Nat)) (paOf : Nat → Nat) (st rb t : Nat) (w : Work) (tile : List Byte) : List Tally :=
  let beads := cdiv (m.posOf t) 64
  let masks := slice tile (tileMasks m rb t) (m.rowsOf rb * (tileParts m 0 t).2.1.2)
  .granules st (granulesOf (tileRanges m addr rb t)).length w ::
    (badMasks m.w.dens (m.rowsOf rb) beads masks).map fun x =>
      let at' := (addr ((tileParts m (64 * rb + x.1) t).2.1.1 + 8 * x.2) 8).headD (0, 0)
      .badMask st (paOf at'.1) (m.per * t / 64 % 32 + x.2)

/-- The tile that the stream decoder of a Setting has begun and waits with (R193). -/
def State.setDecoding (s : State) (st f : Nat) (fill on : Bool) : State :=
  let others := s.rcp.decoding.filter fun x => x != (st, f, fill)
  { s with rcp := { s.rcp with decoding := if on then others ++ [(st, f, fill)] else others } }

/-- Whether the stream decoder of a Setting is at work on another tile than that of a context: it serves one at a time (R193). -/
def State.decoderElsewhere (s : State) (st f : Nat) (fill : Bool) : Bool :=
  s.rcp.decoding.any fun x => x.1 == st && x != (st, f, fill) && (s.jobAt st x.2.1 x.2.2).isSome

/-- DECODER_TILE: the stream decoder of a Setting reads the next tile of a Facet's context into a free slot of its ring, counts the masks, and marks the slot ready (R193 to R196). A decoder that finds no free slot waits; how many cycles it counts for that is open (R194, R212). -/
def decoderTileEff (st : Setting) (f : Fin 8) (fill : Bool) (env : Env) (s : State) : State :=
  match s.jobAt st f fill with
  | none => s
  | some j =>
    match s.jobShape j with
    | none => s
    | some (r, i, d, o, m) =>
      let n := r.recipe.ringSlots fill
      let last := tileSeq m o.hold j.blocks.length 0 0
      if s.workStopped || last ≤ j.loaded || s.decoderElsewhere st f fill then s
      else
        match (List.range n).find? fun x => !j.slots.any fun y => y.2 == x with
        | none =>
          let (c, s) := s.draw
          (s.countWrap (Reg.FAC_DEC_STALL (st / 8) (st % 8)) Fld.FAC_DEC_STALL_ring_full (Config.free c)).setDecoding st f fill true
        | some free =>
          let (bi, t) := tileAt m o.hold j.loaded
          let rb := j.blocks.getD bi 0
          let base := slotAddr r.block m.w i.outer i.inner
          let addr := shardPieces base st
          let (w, bytes) := (Doing.start s env).gather (tileRanges m addr rb t) fun w a => w.fetch env d.key (decoderReq st) .stack 0 a 256 0
          let oa := (r.recipe.ringRange fill).1 * 32 + free * 9216
          let w := (w.look st f oa bytes.length).put st f oa bytes
          match w.halt with
          | .wait => w.s.setDecoding st f fill true
          | .fail status => (w.s.setDecoding st f fill false).failInst j.inst status
          | .go =>
            let s := (w.s.setDecoding st f fill false).setJob { j with loaded := j.loaded + 1, slots := j.slots ++ [(j.loaded, free)] }
            let paOf (a : Nat) : Nat := (segOf d.snap a).elim 0 fun e => e.paOf a
            (tileTally m addr paOf st rb t (instWork d o i.layer) bytes).foldl State.tallied s

def execDecoderTile (st : Setting) (facet : Fin 8) (fill : Bool) (env : Env) (s : State) : Result :=
  .next (decoderTileEff st facet fill env s)

/-- Row r of a tile in its slot layout: its Beads, or its dense positions in runs of 64 (Table FA-2). -/
def tileRow (m : MatShape) (rows t : Nat) (tile : List Byte) (row : Nat) : List BeadVals :=
  let w := m.w
  let bits := fmtBits w.fmt
  let beads := cdiv (m.posOf t) 64
  if w.dens = 0 then
    let len := m.posOf t * bits / 8
    let v := rows * len
    (List.range beads).map fun j =>
      beadParts 0 w.fmt (min 64 (m.posOf t - 64 * j)) (slice tile (row * len + j * 64 * bits / 8) (64 * bits / 8)) 0
        (tile.getD (v + row * beads + j) 0).toNat
  else
    let bl := beadCount w.dens * bits / 8
    let v := rows * beads * bl
    (List.range beads).map fun j =>
      beadParts w.dens w.fmt 64 (slice tile ((row * beads + j) * bl) bl) (leAt tile (v + (row * beads + j) * 8) 8)
        (tile.getD (v + rows * beads * 8 + row * beads + j) 0).toNat

/-- One row of a tile met with one token: the accumulator after the blocks of the tile in ascending position, or runs of 8 for BF16 (R184, R186). DEDUCED: the positions of filler Beads meet activations of 0, which no skip leaves out (R197, assumption 81). -/
def tileDot (m : MatShape) (skip t : Nat) (acc : Nat) (beads : List BeadVals) (arow : List Byte) : Nat :=
  let p0 := m.per * t
  if m.a.fmt = .bf16 then
    (List.range (m.posOf t / 8)).foldl (fun acc g =>
      let ws := ((beads.flatMap (·.elems)).drop (8 * g)).take 8
      let as := (List.range 8).map fun x => if 8 * g + x < m.realOf t then ofElem .bf16 (unpackAt 16 arow (p0 + 8 * g + x)) else .zero
      blockMac acc 127 ws 127 as) acc
  else
    (List.range (m.posOf t / 32)).foldl (fun acc b =>
      match beads[b / 2]? with
      | none => acc
      | some bead =>
        let ws := (bead.elems.drop (32 * (b % 2))).take 32
        if m.realOf t ≤ 32 * b then blockMac acc bead.scale ws 127 (List.replicate 32 .zero)
        else
          let (sb, as) := actBlock m.a.fmt m.a.width arow (p0 / 32 + b)
          if skipBlock skip sb as then acc else blockMac acc bead.scale ws sb as) acc

/-- Blocks of a tile that are skipped for a token (R184). -/
def skippedBlocks (m : MatShape) (skip t : Nat) (arow : List Byte) : List Nat :=
  if m.a.fmt = .bf16 then []
  else
    (List.range (m.realOf t / 32)).filter fun b =>
      let (sb, as) := actBlock m.a.fmt m.a.width arow (m.per * t / 32 + b)
      skipBlock skip sb as

/-- Stored values of a row of a tile outside some blocks: the products it issues for a token (R197). -/
def rowProducts (beads : List BeadVals) (skipped : List Nat) : Nat :=
  (beads.zipIdx.map fun x => (x.1.elems.zipIdx.filter fun y => y.1.isSome && !skipped.contains (2 * x.2 + y.2 / 32)).length).foldl (· + ·) 0

/-- Whether the primary context of a Facet has a pass ready. -/
def State.primaryReady (s : State) (st f : Nat) : Bool :=
  match s.jobAt st f false with
  | none => false
  | some j =>
    match s.jobShape j with
    | none => false
    | some (_, _, _, o, m) => !j.full && j.slots.any fun x => x.1 == tileSeq m o.hold j.rb j.sweep j.tile

/-- Whether a Facet has primary work: a MATMUL, attention of its Setting in the primary context, or a routed group of its Setting (R201). DEDUCED: a sequence of an ATTN or ATTN_STEP counts as work of every Facet of its home Setting (assumption 82). -/
def State.primaryWork (s : State) (st f : Nat) : Bool :=
  (s.jobAt st f false).isSome ||
  (match s.attn with
    | some a => (List.range (a.list.length / 32)).any fun n => !a.finished.contains n && leAt a.list (32 * n + 16) 1 % 32 == st
    | none => false) ||
  (match s.rcp.run with
    | some r => r.insts.any fun i =>
        (r.opOf i).code == 0x0C && i.begun && !i.done && !(r.opOf i).fill &&
        ((s.desc r.key).elim false fun d => ((List.range d.batch).drop i.row).any fun b => homeSt r.block b == st)
    | none => false) ||
  (match s.exd.work with
    | some x => decide (4 ≤ x.phase) && x.groups.any fun g => g.st == st
    | none => false)

/-- Whether the fill context of a Facet may issue products: the primary context has no pass ready, and where FAC_CTL.fill is 0 no primary work is present (R201). -/
def State.fillRuns (s : State) (st f : Nat) : Bool :=
  !s.primaryReady st f && (s.on (Reg.FAC_CTL (st / 8)) Fld.FAC_CTL_fill || !s.primaryWork st f)

/-- Whether a context may run a pass now (R201). -/
def State.mayPass (s : State) (st f : Nat) (fill : Bool) : Bool := !fill || s.fillRuns st f

/-- One pass: a tile with the activations of a token tile. The accumulators of each token, row by row, the products issued and the blocks skipped (R184, R186, R197). -/
def passOf (m : MatShape) (skip t : Nat) (beads : List (List BeadVals)) (acts : List (List Byte)) (acc : List (List Nat)) :
    List (List Nat) × Nat × Nat :=
  let skips := acts.map (skippedBlocks m skip t)
  let products := (skips.map fun k => (beads.map fun b => rowProducts b k).foldl (· + ·) 0).foldl (· + ·) 0
  ((acc.zip acts).map fun x => (x.1.zip beads).map fun y => tileDot m skip t y.1 y.2 x.2, products, (skips.map List.length).foldl (· + ·) 0)

/-- The activations of a token over a tile read through port A: its values and its scales (R198). -/
def Doing.actsRead (w : Doing) (m : MatShape) (st f t at' : Nat) : Doing :=
  let bits := fmtBits m.a.fmt
  let w := (w.readWin st f (at' + m.per * t * bits / 8) (m.realOf t * bits / 8)).1
  if fmtScaled m.a.fmt then (w.readWin st f (at' + m.a.width * bits / 8 + m.per * t / 32) (m.realOf t / 32)).1 else w

/-- FACET_PASS: a Facet's context applies its current weight tile to the next token tile of its sweep; after the last one the tile's slot is freed, unless it is held for a further sweep (R194, R197 to R199, R228). -/
def facetPassEff (st : Setting) (f : Fin 8) (fill : Bool) (env : Env) (s : State) : State :=
  match s.jobAt st f fill with
  | none => s
  | some j =>
    match s.jobShape j with
    | none => s
    | some (r, i, d, o, m) =>
      let seq := tileSeq m o.hold j.rb j.sweep j.tile
      match j.slots.find? fun x => x.1 == seq with
      | none => s
      | some (_, slot) =>
        if s.workStopped || j.full || !s.mayPass st f fill then s
        else
          let rb := j.blocks.getD j.rb 0
          let rows := m.rowsOf rb
          let tokens := m.tokensOf j.sweep
          let here := min 32 (tokens - 32 * j.tok)
          let oa := (r.recipe.ringRange fill).1 * 32 + slot * 9216
          let actAt (x : Nat) : Nat := slicePlace m.a (256 * j.sweep + 32 * j.tok + x)
          let (w, tile) := (Doing.start s env).readWin st f oa (tileBytes m rb j.tile)
          let w := (List.range here).foldl (fun (w : Doing) x => w.actsRead m st f j.tile (actAt x)) w
          match w.halt with
          | .wait => w.s
          | .fail status => w.s.failInst j.inst status
          | .go =>
            let beads := (List.range rows).map (tileRow m rows j.tile tile)
            let acts := (List.range here).map fun x => w.s.readWindow st f (actAt x) m.a.rowLen
            let old := (List.range here).map fun x => (List.range rows).map fun row => j.acc.getD (row * tokens + 32 * j.tok + x) 0
            let (new, products, skipped) := passOf m (o.p 8 1) j.tile beads acts old
            let acc := (List.range (rows * tokens)).map fun x =>
              let tok := x % tokens
              if 32 * j.tok ≤ tok && tok < 32 * j.tok + here then (new.getD (tok - 32 * j.tok) []).getD (x / tokens) 0 else j.acc.getD x 0
            let tileDone := decide (tokens ≤ 32 * (j.tok + 1))
            let keep := o.hold && decide (j.sweep + 1 < m.sweeps)
            let j' : FacetJob := { j with
              acc := acc
              tok := if tileDone then 0 else j.tok + 1
              tile := if tileDone then j.tile + 1 else j.tile
              slots := if tileDone && !keep then j.slots.filter fun x => x.1 != seq else j.slots
              full := tileDone && decide (m.tiles ≤ j.tile + 1) }
            (w.s.setJob j').countPass st f fill (instWork d o i.layer) products (classRate m.cls) skipped

def execFacetPass (st : Setting) (facet : Fin 8) (turn : PassTurn) (s : State) : Result := .next (facetPassEff st facet turn.fill turn.env s)

/-- A partial on its way into the REDUCE of one element row: the sum is opened where it is the first (R208). -/
def State.contribute (s : State) (x : Sum) (from' : Nat) (vals : List Nat) : State :=
  if s.rcp.sums.any fun y => y.inst == x.inst && y.id == x.id then
    { s with rcp := { s.rcp with sums := s.rcp.sums.map fun (y : Sum) =>
        if y.inst == x.inst && y.id == x.id then { y with moving := y.moving ++ [(from', vals)] } else y } }
  else { s with rcp := { s.rcp with sums := s.rcp.sums ++ [{ x with moving := [(from', vals)] }] } }

/-- The results of a sweep handed on: to movers with ks = 1, to REDUCE with ks > 1 (R200, R227). -/
def State.sweepOut (s : State) (r : Run) (o : Op) (m : MatShape) (j : FacetJob) : State :=
  let ks := m.w.ks
  let mi := j.st / ks
  let rb := j.blocks.getD j.rb 0
  let tokens := m.tokensOf j.sweep
  let col := o.p 10 2 + mi * m.w.shardRows + 64 * rb
  let acc := (o.p 9 1).testBit 0
  let valsOf (t : Nat) : List Nat := (List.range (m.rowsOf rb)).map fun row => j.acc.getD (row * tokens + t) 0
  let putOf (t : Nat) : Put := .elems (256 * j.sweep + t) col acc (valsOf t)
  if ks = 1 then
    { s with rcp := { s.rcp with transfers := s.rcp.transfers ++ [⟨j.inst, moverFor j.st j.inst, (List.range tokens).map putOf⟩] } }
  else
    (List.range tokens).foldl (fun (s : State) t =>
      let b := 256 * j.sweep + t
      let dest := if (r.recipe.slot o.dst).kind = 3 then mi * ks + rb % ks else homeSt r.block b
      let expect := (List.range 4).map fun q => ((List.range ks).filter fun x => (mi * ks + x) / 8 == q).length
      s.contribute { inst := j.inst, id := (mi * m.blocks + rb) * 4096 + b, dest := dest, moving := [], expect := expect
                     stage := [none, none, none, none], joined := [], total := none, fin := .elems b col acc [] } j.st (valsOf t)) s

/-- SWEEP_END: the accumulators of a sweep are final; its results are handed on, and the job goes to its next sweep or row block, or ends (R199, R200). -/
def sweepEndEff (st : Setting) (f : Fin 8) (fill : Bool) (s : State) : State :=
  match s.jobAt st f fill with
  | none => s
  | some j =>
    match s.jobShape j with
    | none => s
    | some (r, _, _, o, m) =>
      if s.workStopped || !j.full then s
      else
        let s := s.sweepOut r o m j
        let nextRb := if j.sweep + 1 < m.sweeps then j.rb else j.rb + 1
        let nextSweep := if j.sweep + 1 < m.sweeps then j.sweep + 1 else 0
        if j.blocks.length ≤ nextRb then
          { s with rcp := { s.rcp with jobs := s.rcp.jobs.filter fun x => !(x.st == j.st && x.f == j.f && x.fill == j.fill) } }
        else
          s.setJob { j with rb := nextRb, sweep := nextSweep, tile := 0, tok := 0, full := false
                            acc := m.zeroAcc (j.blocks.getD nextRb 0) nextSweep }

def execSweepEnd (st : Setting) (facet : Fin 8) (fill : Bool) (s : State) : Result := .next (sweepEndEff st facet fill s)

/-- Where the padding of a stored row begins, and its length (R174). -/
def padOf (f : Fmt) (w : Nat) : Nat × Nat :=
  let n := w * fmtBits f / 8 + (if fmtScaled f then w / 32 else 0)
  (n, if fmtScaled f then rowBytes f w - n else 0)

/-- FP32 values put into columns of a row of an instance's destination: a home row in its window, or a TENSOR row in memory, read, added to where the operation accumulates, converted and written back (R175, R225, R227). The padding of a block-scaled row is written as zero (R174). -/
def Doing.elemsAt (w : Doing) (env : Env) (r : Run) (i : Inst) (d : Desc) (st : Nat) (row col : Nat) (acc : Bool) (vals : List Nat) : Doing :=
  let o := r.opOf i
  let sl := r.recipe.slot o.dst
  let addTo (old : List Nat) : List Nat := if acc then vals.zipIdx.map fun x => fadd32 (old.getD x.2 0) x.1 else vals
  if sl.kind = 3 then
    let space := slotSpace r.block sl
    let lo := col / 32 * 32
    let hi := min sl.cols (roundUp 32 (col + vals.length))
    let rowAt := slotAddr r.block sl i.outer i.inner + row * sl.pitch
    let bits := fmtBits sl.fmt
    let first := rowAt + lo * bits / 8
    let n := (hi - lo) * bits / 8
    let sAt := rowAt + sl.cols * bits / 8 + lo / 32
    let sLen := if fmtScaled sl.fmt then (hi - lo) / 32 else 0
    let whole := !acc && lo == col && hi == col + vals.length
    let req := moverReq st i.n
    let (w, a) := if whole then (w, []) else w.fetch env d.key req .home space first n (i.piece row (8 * lo))
    let (w, b) := if whole then (w, []) else w.fetch env d.key req .home space sAt sLen (i.piece row (8 * lo + 4))
    w.next fun w =>
      let (rs, s) := if o.sr then w.s.drawRow (hi - lo) else ([], w.s)
      let old := rowWords sl.fmt (hi - lo) (a ++ b)
      let bytes := putWords sl.fmt (hi - lo) rs o.sr (padTo (n + sLen) (a ++ b)) (col - lo) (addTo ((old.drop (col - lo)).take vals.length))
      let w := Doing.store { w with s := s } env d.key req space first (bytes.take n) i.number
      let w := w.store env d.key req space sAt (slice bytes n sLen) i.number
      let pad := padOf sl.fmt sl.cols
      let w := w.store env d.key req space (rowAt + pad.1) (List.replicate pad.2 0) i.number
      w.next fun w => { w with s := w.s.countBytes (n + sLen + pad.2) }
  else
    let (hs, hf, oa) := homePlace r.block sl row
    let (w, bytes) := w.readWin hs hf oa sl.rowLen
    w.next fun w =>
      let (rs, s) := if o.sr then w.s.drawRow sl.width else ([], w.s)
      let s := s.useVector (hs * 8 + hf)
      let old := (rowWords sl.fmt sl.width bytes).drop col |>.take vals.length
      let pad := padOf sl.fmt sl.width
      let row := putWords sl.fmt sl.width rs o.sr bytes col (addTo old)
      { w with s := (s.writeWindow hs hf oa (splice row pad.1 (List.replicate pad.2 0))).noteWork d.key false [] }

/-- The columns of a row that a MATMUL writes: first and end. -/
def outCols (r : Recipe) (o : Op) : Nat × Nat := (o.p 10 2, o.p 10 2 + (r.slot o.src0).rows)

/-- FP32 values put into columns of a row. In a block-scaled format a block is converted once, when every result of the operation in it has come (R175); those that come before wait in the instance. -/
def Doing.elems (w : Doing) (env : Env) (r : Run) (i : Inst) (d : Desc) (st : Nat) (row col : Nat) (acc : Bool) (vals : List Nat) : Doing :=
  let o := r.opOf i
  if !fmtScaled (r.recipe.slot o.dst).fmt then w.elemsAt env r i d st row col acc vals
  else
    match w.s.inst i.n with
    | none => w
    | some (_, now, _) =>
      let have' := (now.parts.filter fun p => p.1 == row).map (·.2) ++ vals.zipIdx.map fun v => (col + v.2, v.1)
      let (lo, hi) := outCols r.recipe o
      let span (b : Nat) : List Nat := (List.range 32).filterMap fun x => if lo ≤ 32 * b + x && 32 * b + x < hi then some (32 * b + x) else none
      let valAt (c : Nat) : Option Nat := (have'.find? fun p => p.1 == c).map (·.2)
      let full := ((List.range ((col + vals.length + 31) / 32)).drop (col / 32)).filter fun b => (span b).all fun c => (valAt c).isSome
      let w := full.foldl (fun (w : Doing) b => w.elemsAt env r i d st row ((span b).headD 0) acc ((span b).map fun c => (valAt c).getD 0)) w
      w.next fun w =>
        match w.s.inst i.n with
        | none => w
        | some (_, now, _) =>
          let left := (now.parts.filter fun p => p.1 != row) ++ (have'.filter fun p => !full.contains (p.1 / 32)).map fun p => (row, p.1, p.2)
          { w with s := w.s.setInst { now with parts := left } }

/-- One piece of a transfer at its destination. -/
def Doing.land (w : Doing) (env : Env) (r : Run) (i : Inst) (d : Desc) (st : Nat) : Put → Doing
  | .elems row col acc vals => w.elems env r i d st row col acc vals
  | .broadcast mask oa data =>
    let places := (List.range 256).filter fun g => mask.testBit (g / 8)
    let w := places.foldl (fun (w : Doing) g => w.look (g / 8) (g % 8) oa data.length) w
    places.foldl (fun (w : Doing) g => w.put (g / 8) (g % 8) oa data) w

/-- Bytes that a piece of a transfer moves. -/
def putBytes : Put → Nat
  | .broadcast _ _ data => data.length
  | .elems _ _ _ vals => 4 * vals.length

/-- The pieces of a transfer taken in order until one has to wait, which is then taken up again from its start: the pieces left and where the work stands. -/
def landAll (env : Env) (r : Run) (i : Inst) (d : Desc) (st : Nat) : List Put → Doing → Doing × List Put
  | [], w => (w, [])
  | p :: ps, w =>
    let w' := w.land env r i d st p
    if w'.on then landAll env r i d st ps w'
    else (if w'.halt = .wait then { w' with s := w.s.backOff w'.s, ext := w'.ext } else w', p :: ps)

/-- MOVER_TRANSFER_COMPLETE: every write of the oldest transfer of a mover becomes visible at its destination (R205, R207). -/
def moverTransferCompleteEff (mover : Fin 128) (env : Env) (s : State) : State :=
  match s.rcp.transfers.find? fun t => t.mover == mover.val with
  | none => s
  | some t =>
    match s.inst t.inst with
    | none => s
    | some (r, i, d) =>
      if s.workStopped then s
      else
        let (w, left) := landAll env r i d (mover / 4) t.puts (Doing.start s env)
        let others := w.s.rcp.transfers.erase t
        match w.halt with
        | .fail st => w.s.failInst t.inst st
        | .wait => { w.s with rcp := { w.s.rcp with transfers := { t with puts := left } :: others } }
        | .go =>
          State.observe { w.s with rcp := { w.s.rcp with transfers := others } } 2 mover 0x042
            ((t.puts.map putBytes).foldl (· + ·) 0) (instWork d (r.opOf i) i.layer) []

def execMoverTransferComplete (mover : Fin 128) (env : Env) (s : State) : Result := .next (moverTransferCompleteEff mover env s)

/-- Two vectors added lane by lane with FADD32; the first contribution is written and not added (R208). -/
def addLanes (old : Option (List Nat)) (new : List Nat) : List Nat :=
  match old with
  | none => new
  | some o => new.zipIdx.map fun x => fadd32 (o.getD x.2 0) x.1

/-- A sum replaced. -/
def State.setSum (s : State) (x : Sum) : State :=
  { s with rcp := { s.rcp with sums := s.rcp.sums.map fun (y : Sum) => if y.inst == x.inst && y.id == x.id then x else y } }

/-- Whether every partial of a quadrant has reached its stage. -/
def Sum.staged (x : Sum) (q : Nat) : Bool := x.expect.getD q 0 == 0 && !(x.moving.any fun m => m.1 / 8 == q)

/-- A sum that has met every contribution is handed to a mover of its destination, which puts it in its place. -/
def State.closeSum (s : State) (x : Sum) : State :=
  let whole := (List.range 4).all fun q => x.staged q && ((x.stage.getD q none).isNone || x.joined.contains q)
  if whole then
    let p : Put := match x.fin, x.total with
      | .elems row col acc _, some t => .elems row col acc t
      | p, _ => p
    { s with rcp := { s.rcp with
        sums := s.rcp.sums.filter fun y => !(y.inst == x.inst && y.id == x.id)
        transfers := s.rcp.transfers ++ [⟨x.inst, moverFor x.dest x.inst, [p]⟩] } }
  else s.setSum x

/-- REDUCE_CONTRIBUTION: a partial of a Setting (source 0 to 31) is added at the stage Setting of its quadrant, or the sum of a quadrant (source 32 + q) is added at the destination, and is acknowledged (R208). -/
def reduceContributionEff (n id : Nat) (source : Fin 36) (s : State) : State :=
  match s.rcp.sums.find? fun x => x.inst == n && x.id == id with
  | none => s
  | some x =>
    if s.workStopped then s
    else if source.val < 32 then
      match x.moving.find? fun m => m.1 == source.val with
      | none => s
      | some m =>
        let q := source.val / 8
        s.setSum { x with
          moving := x.moving.erase m
          expect := x.expect.set q (x.expect.getD q 0 - 1)
          stage := x.stage.set q (some (addLanes (x.stage.getD q none) m.2)) }
    else
      let q := source.val - 32
      match x.stage.getD q none with
      | none => s
      | some v =>
        if !x.staged q || x.joined.contains q then s
        else s.closeSum { x with joined := x.joined ++ [q], total := some (addLanes x.total v) }

def execReduceContribution (n sum : Nat) (source : Fin 36) (s : State) : Result := .next (reduceContributionEff n sum source s)

end Sys2Proof.Machine
end

