-- ==== Sys2Proof/Machine/VectorRows.lean ====
section
/-! DEFINITION. The operations of the vector units and movers, sampling, and the channels between nodes (R229 to R238). -/

namespace Sys2Proof.Machine

open Sys2Proof

/-- A home row loaded by the vector unit of its Facet as FP32 words (R202). -/
def Doing.rowIn (w : Doing) (block : List Byte) (sl : Slot) (b : Nat) : Doing × List Nat :=
  let (st, f, oa) := homePlace block sl b
  let (w, bytes) := w.readWin st f oa sl.rowLen
  if w.on then ({ w with s := w.s.useVector (st * 8 + f) }, rowWords sl.fmt sl.width bytes) else (w, [])

/-- The Settings that hold slice k, as a mask (R221). -/
def sliceMask (ks k : Nat) : Nat := ((List.range 32).filter fun s => s % ks == k).foldl (fun m s => m + 2 ^ s) 0

/-- A row of FP32 words converted to the destination's format and put in its place: in the home Facet, or broadcast slice by slice (R175, R207, R229). -/
def Doing.rowOut (w : Doing) (r : Run) (i : Inst) (d : Desc) (b : Nat) (ws : List Nat) : Doing :=
  w.next fun w =>
    let o := r.opOf i
    let sl := r.recipe.slot o.dst
    if sl.dist = 1 then
      let (rs, s) := if o.sr then w.s.drawRow ws.length else ([], w.s)
      let puts := (List.range sl.ks).map fun k =>
        Put.broadcast (sliceMask sl.ks k) (slicePlace sl b)
          (wordsRow sl.fmt (rs.drop (k * sl.width)) o.sr ((ws.drop (k * sl.width)).take sl.width))
      { w with s := { s with rcp := { s.rcp with transfers := s.rcp.transfers ++ [⟨i.n, moverFor (homeSt r.block b) i.n, puts⟩] } } }
    else
      let (st, f, oa) := homePlace r.block sl b
      let w := w.look st f oa sl.rowLen
      w.next fun w =>
        let (rs, s) := if o.sr then w.s.drawRow ws.length else ([], w.s)
        { w with s := (s.writeWindow st f oa (wordsRow sl.fmt rs o.sr ws)).noteWork d.key false [] }

/-- An operation that works batch row by batch row, from the row it has come to. -/
def State.byRows (s : State) (n code : Nat) (env : Env) (f : Run → Inst → Desc → Nat → Doing → Doing) : State :=
  match s.instOf n code with
  | none => s
  | some (r, i, d) =>
    let (w, b) := Doing.rows (f r i d) (d.batch - i.row) i.row (Doing.start s env)
    w.settle n b true

/-- A row of a TENSOR source read by a mover of the row's home Setting, as FP32 words (R220). -/
def Doing.tensorIn (w : Doing) (env : Env) (r : Run) (i : Inst) (d : Desc) (sl : Slot) (st b row : Nat) : Doing × List Nat :=
  let (w, bs) := w.fetch env d.key (moverReq st i.n) .home (slotSpace r.block sl)
    (slotAddr r.block sl i.outer i.inner + row * sl.pitch) sl.tensorRow (i.piece b 0)
  (w, rowWords sl.fmt sl.cols bs)

/-- The function of an ACT (Table RC-5). -/
def actFn (fn a b : Nat) : Nat :=
  match fn with
  | 0 => fadd32 a b
  | 1 => fmul32 a b
  | 2 => vec .silu a
  | 3 => vec .gelu a
  | 4 => fmul32 (vec .silu a) b
  | _ => fmul32 (vec .gelu a) b

/-- ACT applies its function element by element (R229). -/
def actEff (n : Nat) (env : Env) (s : State) : State :=
  s.byRows n 0x02 env fun r i d b w =>
    let o := r.opOf i
    let (w, x) := w.rowIn r.block (r.recipe.slot o.src0) b
    let (w, y) := match r.recipe.slot? o.src1 with
      | some sl => w.rowIn r.block sl b
      | none => (w, [])
    w.rowOut r i d b (x.zipIdx.map fun p => actFn (o.p 8 1) p.1 (y.getD p.2 0))

def execAct (n : InstStep) (s : State) : Result := .next (actEff n.n n.env s)

/-- A row normalised: RMS or layer, with its gains (R229). -/
def normRow (kind eps : Nat) (x g : List Nat) : List Nat :=
  let c := if kind = 0 then x else (let mu := fmean x; x.map fun v => fsub32 v mu)
  let r := vec .rsqrt (fadd32 (fmean (c.map fun v => fmul32 v v)) eps)
  c.zipIdx.map fun p => fmul32 (fmul32 p.1 r) (g.getD p.2 0x3F800000)

/-- NORM normalises each row and multiplies it by the gain (R229). -/
def normEff (n : Nat) (env : Env) (s : State) : State :=
  s.byRows n 0x03 env fun r i d b w =>
    let o := r.opOf i
    let (w, g) := match r.recipe.slot? o.src1 with
      | some sl => w.tensorIn env r i d sl (homeSt r.block b) b 0
      | none => (w, [])
    let (w, x) := w.rowIn r.block (r.recipe.slot o.src0) b
    w.rowOut r i d b (normRow (o.p 8 1) (o.p 12 4) x g)

def execNorm (n : Nat) (env : Env) (s : State) : Result := .next (normEff n env s)

/-- A row with its pairs rotated for a position (R230). -/
def ropeRow (hd rot heads pos : Nat) (x freqs : List Nat) : List Nat :=
  x.zipIdx.map fun p =>
    let j := p.2 % hd
    if heads ≤ p.2 / hd || rot ≤ j then p.1
    else
      let i := j % (rot / 2)
      let base := p.2 / hd * hd
      let a := x.getD (base + i) 0
      let c := x.getD (base + i + rot / 2) 0
      let th := fmul32 (fofNat pos) (freqs.getD i 0)
      if j < rot / 2 then fmadd32 1 (fneg32 c) (vec .sin th) (fmul32 a (vec .cos th))
      else fmadd32 1 c (vec .cos th) (fmul32 a (vec .sin th))

/-- ROPE rotates the pairs of each head by the position of the batch entry (R230). -/
def ropeEff (n : Nat) (env : Env) (s : State) : State :=
  s.byRows n 0x04 env fun r i d b w =>
    let o := r.opOf i
    let src := r.recipe.slot o.src0
    let (w, fs) := w.tensorIn env r i d (r.recipe.slot o.src1) (homeSt r.block b) b 0
    let (w, x) := w.rowIn r.block src b
    let hd := o.p 8 2
    let heads := if o.p 12 2 = 0 then src.cols / hd else o.p 12 2
    w.rowOut r i d b (ropeRow hd (o.p 10 2) heads (batchAt r.block b 8 4) x fs)

def execRope (n : Nat) (env : Env) (s : State) : Result := .next (ropeEff n env s)

/-- The segments of a row. -/
def segments (n : Nat) (x : List Nat) : List (List Nat) := (List.range (x.length / n)).map fun k => (x.drop (k * n)).take n

/-- SOFTMAX over each segment (R231). -/
def softmaxEff (n : Nat) (env : Env) (s : State) : State :=
  s.byRows n 0x05 env fun r i d b w =>
    let o := r.opOf i
    let (w, x) := w.rowIn r.block (r.recipe.slot o.src0) b
    let sc := if o.p 12 4 = 0 then 0x3F800000 else o.p 12 4
    w.rowOut r i d b ((segments (o.p 8 2) x).flatMap fun g => fsoftmax (g.map fun v => fmul32 sc v))

def execSoftmax (n : InstStep) (s : State) : Result := .next (softmaxEff n.n n.env s)

/-- TOPK writes the k greatest values of each segment with their indices (R231). -/
def topkEff (n : Nat) (env : Env) (s : State) : State :=
  s.byRows n 0x06 env fun r i d b w =>
    let o := r.opOf i
    let (w, x) := w.rowIn r.block (r.recipe.slot o.src0) b
    w.rowOut r i d b ((segments (o.p 8 2) x).flatMap fun g =>
      padList (2 * o.p 10 1) (((ranked g).take (o.p 10 1)).flatMap fun j => [j, g.getD j 0]))
where
  /-- a list cut or filled with 0 to a length -/
  padList (n : Nat) (l : List Nat) : List Nat := (List.range n).map fun k => l.getD k 0

def execTopk (n : InstStep) (s : State) : Result := .next (topkEff n.n n.env s)

/-- QUANT converts each row to the destination's format (R229). -/
def quantEff (n : Nat) (env : Env) (s : State) : State :=
  s.byRows n 0x07 env fun r i d b w =>
    let (w, x) := w.rowIn r.block (r.recipe.slot (r.opOf i).src0) b
    w.rowOut r i d b x

def execQuant (n : InstStep) (s : State) : Result := .next (quantEff n.n n.env s)

/-- REDUCE: for each batch row, the rows in every Facet window of the masked Settings become partials of a sum that ends in the row's home (R208, R232). -/
def reduceEff (n : Nat) (env : Env) (s : State) : State :=
  s.byRows n 0x08 env fun r i _ b w =>
    let o := r.opOf i
    let sl := r.recipe.slot o.src0
    let mask := if o.p 12 4 = 0 then 2 ^ 32 - 1 else o.p 12 4
    let places := (List.range 256).filter fun g => mask.testBit (g / 8)
    let (w, rows) := places.foldl (fun (a : Doing × List (Nat × List Nat)) g =>
      let (w, x) := a.1.readWin (g / 8) (g % 8) (slicePlace sl b) sl.rowLen
      (w, a.2 ++ [(g / 8, rowWords sl.fmt sl.width x)])) (w, [])
    let expect := (List.range 4).map fun q => (places.filter fun g => g / 64 == q).length
    w.next fun w =>
      { w with s := rows.foldl (fun (s : State) x =>
          s.contribute { inst := n, id := b, dest := homeSt r.block b, moving := [], expect := expect, stage := [none, none, none, none]
                         joined := [], total := none, fin := .elems b 0 ((o.p 8 1).testBit 0) [] } x.1 x.2) w.s }

def execReduce (n : InstStep) (s : State) : Result := .next (reduceEff n.n n.env s)

/-- COMBINE: the weighted sum of k rows, in ascending order (R232). -/
def combineEff (n : Nat) (env : Env) (s : State) : State :=
  s.byRows n 0x09 env fun r i d b w =>
    let o := r.opOf i
    let dst := r.recipe.slot o.dst
    let (w, x) := w.rowIn r.block (r.recipe.slot o.src0) b
    let (w, wt) := w.rowIn r.block (r.recipe.slot o.src1) b
    let (w, old) := if (o.p 9 1).testBit 0 then w.rowIn r.block dst b else (w, [])
    let y := (List.range dst.cols).map fun c =>
      (List.range (o.p 8 1 - 1)).foldl (fun acc j => fmadd32 2 (wt.getD (j + 1) 0) (x.getD ((j + 1) * dst.cols + c) 0) acc)
        (fmul32 (wt.getD 0 0) (x.getD c 0))
    w.rowOut r i d b (if (o.p 9 1).testBit 0 then y.zipIdx.map fun p => fadd32 (old.getD p.2 0) p.1 else y)

def execCombine (n : InstStep) (s : State) : Result := .next (combineEff n.n n.env s)

/-- GATHER copies an indexed TENSOR row into each batch row (R233). -/
def gatherEff (n : Nat) (env : Env) (s : State) : State :=
  s.byRows n 0x0A env fun r i d b w =>
    let o := r.opOf i
    let (w, x) := w.tensorIn env r i d (r.recipe.slot o.src0) (homeSt r.block b) b (tensorIndex r.block (o.p 8 1) b)
    w.rowOut r i d b x

def execGather (n : Nat) (env : Env) (s : State) : Result := .next (gatherEff n env s)

/-- SCATTER writes each batch row to an indexed TENSOR row (R233). -/
def scatterEff (n : Nat) (env : Env) (s : State) : State :=
  s.byRows n 0x0B env fun r i d b w =>
    let o := r.opOf i
    let sl := r.recipe.slot o.dst
    let (w, x) := w.rowIn r.block (r.recipe.slot o.src0) b
    w.next fun w =>
      let (rs, s) := if o.sr then w.s.drawRow x.length else ([], w.s)
      let bytes := toRow sl.fmt rs o.sr (x.map of32)
      let w := Doing.store { w with s := s } env d.key (moverReq (homeSt r.block b) n) (slotSpace r.block sl)
        (slotAddr r.block sl i.outer i.inner + tensorIndex r.block (o.p 8 1) b * sl.pitch) bytes i.number
      w.next fun w => { w with s := w.s.countBytes bytes.length }

def execScatter (n : Nat) (env : Env) (s : State) : Result := .next (scatterEff n env s)

/-- The counter of Philox4x32. -/
structure PhiloxCtr where
  c0 : Nat
  c1 : Nat
  c2 : Nat
  c3 : Nat
deriving DecidableEq, Repr

/-- A round of Philox4x32 under a key of two words. -/
def philoxRound (c : PhiloxCtr) (k0 k1 : Nat) : PhiloxCtr :=
  let a := 0xD2511F53 * c.c0
  let b := 0xCD9E8D57 * c.c2
  ⟨(b / 2 ^ 32) ^^^ c.c1 ^^^ k0, b % 2 ^ 32, (a / 2 ^ 32) ^^^ c.c3 ^^^ k1, a % 2 ^ 32⟩

/-- Ten rounds of Philox4x32, the key raised before each but the first (R236). -/
def philox (c : PhiloxCtr) (key : Nat) : PhiloxCtr :=
  (List.range 10).foldl (fun c n =>
    philoxRound c ((key % 2 ^ 32 + n * 0x9E3779B9) % 2 ^ 32) ((key / 2 ^ 32 + n * 0xBB67AE85) % 2 ^ 32)) c

/-- word0 of the generator for a SAMPLE (R236). -/
def sampleWord (seed position layer : Nat) : Nat := (philox ⟨position % 2 ^ 32, layer % 2 ^ 16, 0, 0⟩ (seed % 2 ^ 64)).c0

/-- The sums of the prefixes of a list of FP32 words. -/
def runningSums (xs : List Nat) : List Nat :=
  (xs.foldl (fun (a : List Nat × Nat) x => (a.1 ++ [fadd32 a.2 x], fadd32 a.2 x)) (([] : List Nat), 0)).1

/-- The token that a row of logits samples (R235). `temp` and `topP` are FP32 words. -/
def sampleToken (logits : List Nat) (temp topK topP word0 : Nat) : Nat :=
  let order (l : List Nat) : List Nat := (ranked l).filter fun j => !(of32 (logits.getD j 0)).isNan
  if (of32 temp).isZero then (order logits).headD 0
  else
    let z := logits.map fun l => fdiv32 l temp
    let active := (Num.zero.lt (of32 topP)) && (of32 topP).lt (.ofNat 1)
    let all := order z
    let c := if 0 < topK then all.take topK else if active then all.take 1024 else all
    let top := z.getD (c.headD 0) 0
    let q := c.map fun j => vec .exp (fsub32 (z.getD j 0) top)
    let total := fsum q
    let bound := fmul32 topP total
    let n := if active then ((runningSums q).findIdx? fun x => (of32 bound).le (of32 x)).elim c.length (· + 1) else c.length
    let c' := c.take n
    let q' := q.take n
    let total' := if active then fsum q' else total
    let u := to32 (.fin false (word0 / 2 ^ 8) (-24))
    let goal := of32 (fmul32 u total')
    match (runningSums q').findIdx? fun x => goal.lt (of32 x) with
    | some k => c'.getD k 0
    | none => c'.getLast?.getD 0

/-- A token counted toward the result of the run (R235). -/
def State.countToken (s : State) : State :=
  match s.rcp.run with
  | some r => s.setRun { r with tokens := r.tokens + 1 }
  | none => s

/-- SAMPLE chooses a token for each batch row and writes it as a 32-bit ID (R235, R236). -/
def sampleEff (n : Nat) (env : Env) (s : State) : State :=
  s.byRows n 0x0E env fun r i d b w =>
    let o := r.opOf i
    let src := r.recipe.slot o.src0
    let dst := r.recipe.slot o.dst
    let st := homeSt r.block b
    let (w, l) := if src.kind = 3 then w.tensorIn env r i d src st b b else w.rowIn r.block src b
    w.next fun w =>
      let word0 := sampleWord (d.u 24 8 ^^^ batchAt r.block b 24 8) (batchAt r.block b 8 4) (layerId d o i.layer)
      let tok := sampleToken l (batchAt r.block b 20 2 * 65536) (batchAt r.block b 18 2) (batchAt r.block b 22 2 * 65536) word0
      let w := w.store env d.key (moverReq st n) (slotSpace r.block dst) (slotAddr r.block dst i.outer i.inner + b * dst.pitch) (leBytes 4 tok) i.number
      w.next fun w => { w with s := (w.s.countBytes 4).countToken }

def execSample (n : Nat) (env : Env) (s : State) : Result := .next (sampleEff n env s)

/-- The payload of an activation packet (Table RC-6). -/
def activationBytes (channel b layer word fmt len : Nat) (data : List Byte) : List Byte :=
  leBytes 2 channel ++ leBytes 2 b ++ leBytes 2 layer ++ leBytes 2 word ++ leBytes 1 fmt ++ [0, 0, 0] ++ leBytes 4 len ++ data

/-- Fragments of a row: first byte and length (Table RC-6). -/
def fragments (len : Nat) : List (Nat × Nat) := (List.range (cdiv len 8160)).map fun k => (8160 * k, min 8160 (len - 8160 * k))

/-- An activation packet sent under a tag (R237). -/
def State.sendPiece (s : State) (d : Desc) (x : Sending) : State :=
  s.sendTracked (clientQuad d.client) x.pkt (.send d.order x.inst x.piece)

/-- SEND sends each batch row to the peer node in activation packets (R237). -/
def sendEff (n : Nat) (env : Env) (s : State) : State :=
  s.byRows n 0x12 env fun r i d b w =>
    let o := r.opOf i
    let sl := r.recipe.slot o.src0
    let (st, f, oa) := homePlace r.block sl b
    let (w, row) := w.readWin st f oa sl.rowLen
    w.next fun w =>
      { w with s := (fragments sl.rowLen).foldl (fun (s : State) p =>
          let payload := activationBytes (o.p 10 2) b (layerId d o i.layer) (p.1 / 32) sl.fmtCode sl.rowLen (slice row p.1 p.2)
          let pkt := s.originate d.client (bindWord r.block (o.p 8 1) % 2 ^ 16) opActivation 2 (o.p 9 1) 0 0 payload
          let x : Sending := ⟨n, b * 4096 + p.1 / 8160, pkt, none, s.nt, true⟩
          State.sendPiece { s with rcp := { s.rcp with sends := s.rcp.sends ++ [x] } } d x) w.s }

def execSend (n : InstStep) (s : State) : Result := .next (sendEff n.n n.env s)

/-- The channel of a RECV of a run. -/
def State.recvChannel (s : State) (r : Run) (i : Inst) : Option Channel :=
  s.rcp.channels.find? fun c => c.key == r.key && c.op == i.op

/-- Whether every row of a channel has arrived whole (R238). -/
def Channel.whole (c : Channel) : Bool :=
  (List.range c.at'.length).all fun b => decide (c.rowBytes ≤ ((c.got.filter fun g => g.1 == b).map (·.2.2)).foldl (· + ·) 0)

/-- A channel closed. -/
def State.closeChannel (s : State) (c : Channel) : State :=
  { s with rcp := { s.rcp with channels := s.rcp.channels.filter fun x => !(x.key == c.key && x.op == c.op) } }

/-- RECV completes, and its channel closes, when every row of its batch has arrived (R238). -/
def recvEff (n : Nat) (s : State) : State :=
  match s.instOf n 0x13 with
  | none => s
  | some (r, i, _) =>
    match s.recvChannel r i with
    | none => s.setInst { i with begun := true }
    | some c => if c.whole then (s.closeChannel c).setInst { i with begun := true, done := true } else s.setInst { i with begun := true }

def execRecv (n : Nat) (s : State) : Result := .next (recvEff n s)

/-- A packet of an instance that its receiver has not accepted. -/
def State.sending (s : State) (n piece : Nat) : Option Sending := s.rcp.sends.find? fun x => x.inst == n && x.piece == piece

/-- Such a packet replaced. -/
def State.setSending (s : State) (x : Sending) : State :=
  { s with rcp := { s.rcp with sends := s.rcp.sends.map fun (y : Sending) => if y.inst == x.inst && y.piece == x.piece then x else y } }

/-- SEND_RETRY: a refused packet is sent again 10 µs after its refusal (R238). -/
def sendRetryEff (n piece : Nat) (s : State) : State :=
  match s.sending n piece, s.inst n with
  | some x, some (_, _, d) =>
    if x.asked || s.workStopped || s.nt < x.lastNt + 10000 then s
    else (s.setSending { x with asked := true, lastNt := s.nt }).sendPiece d x
  | _, _ => s

def execSendRetry (n piece : Nat) (s : State) : Result := .next (sendRetryEff n piece s)

/-- SEND_RETRY_EXPIRY: a packet has been refused for send_retry_ms, and the run ends with 0xF002 (R238); RCP_CNT.send_failed counts the runs that end so (R246). -/
def sendRetryExpiryEff (n piece : Nat) (s : State) : State :=
  match s.sending n piece, s.inst n with
  | some x, some (r, _, _) =>
    match x.firstNt with
    | none => s
    | some t =>
      let q := r.key.q.val
      if s.workStopped || s.nt < t + s.fld (Reg.RCP_CTL q) Fld.RCP_CTL_send_retry_ms * 1000000 then s
      else (if r.failed then s else s.countSat (Reg.RCP_CNT q) Fld.RCP_CNT_send_failed 1).failInst n 0xF002
  | _, _ => s

def execSendRetryExpiry (n piece : Nat) (s : State) : Result := .next (sendRetryExpiryEff n piece s)

/-- RECV_TIMEOUT: recv_timeout_ms has passed since a RECV started, and a row is still missing; its run ends with 0xF002 (R238). -/
def recvTimeoutEff (n : Nat) (s : State) : State :=
  match s.instOf n 0x13 with
  | none => s
  | some (r, i, _) =>
    match s.recvChannel r i with
    | none => s
    | some c =>
      if c.whole || s.nt < i.nt + s.fld (Reg.RCP_CTL r.key.q) Fld.RCP_CTL_recv_timeout_ms * 1000000 then s
      else (s.closeChannel c).failInst n 0xF002

def execRecvTimeout (n : Nat) (s : State) : Result := .next (recvTimeoutEff n s)

end Sys2Proof.Machine
end

