-- ==== Sys2Proof/Machine/Expert.lean ====
section
/-! DEFINITION. Expert dispatch: gate, admission, routed groups, the shared expert, and the closing of an instance (R248 to R267, R271 to R273). -/

namespace Sys2Proof.Machine

open Sys2Proof

/-- Fields of an expert-table entry (Table EX-2). -/
def exN (e : List Byte) : Nat := leAt e 0 2
def exGate (e : List Byte) : Nat := leAt e 2 1
def exPolicy (e : List Byte) : Nat := leAt e 3 1
def exCapacity (e : List Byte) : Nat := leAt e 4 2
def exChunk (e : List Byte) : Nat := leAt e 6 1
def exMaxChunks (e : List Byte) : Nat := leAt e 7 1
def exH (e : List Byte) : Nat := leAt e 8 2
def exI (e : List Byte) : Nat := leAt e 10 2
def exActFmt (e : List Byte) : Fmt := (fmtOf (leAt e 12 1)).getD .fp32
def exInterFmt (e : List Byte) : Fmt := (fmtOf (leAt e 13 1)).getD .fp32
def exWFmt (e : List Byte) : Fmt := (fmtOf (leAt e 14 1 % 16)).getD .fp32
def exDens (e : List Byte) : Nat := leAt e 14 1 / 16 % 4
def exFn (e : List Byte) : Nat := leAt e 15 1
def exSkip (e : List Byte) : Nat := leAt e 16 1
def exSharedScale (e : List Byte) : Nat := leAt e 18 2 * 65536
def exSpillNode (e : List Byte) : Nat := leAt e 20 2
def exPlacement (e : List Byte) : Nat := leAt e 24 8
def exShared (e : List Byte) : Nat := leAt e 32 8
def exLoad (e : List Byte) : Nat := leAt e 40 8

/-- The row pitches of R252. -/
def exPitchH (e : List Byte) : Nat := cdiv (exH e) 2048 * groupBytes (exDens e) (exWFmt e)
def exPitchI (e : List Byte) : Nat := cdiv (exI e) 2048 * groupBytes (exDens e) (exWFmt e)

/-- Bytes of a copy of a routed expert (R252). -/
def exSpan (e : List Byte) : Nat := 2 * exI e * exPitchH e + exH e * exPitchI e

/-- Positions of a weight tile of the up and gate, and of the down products. -/
def exTileH (e : List Byte) : Nat := tilePositions (exDens e) (rateClass (exWFmt e) (exActFmt e))
def exTileI (e : List Byte) : Nat := tilePositions (exDens e) (rateClass (exWFmt e) (exInterFmt e))

/-- Whether a field lies outside Table EX-2 or a reserved one is not 0. -/
def exFieldsBad (e : List Byte) : Bool :=
  let fmtOk (c : Nat) : Bool := c == 1 || (4 ≤ c && c ≤ 10)
  leAt e 17 1 != 1 || leAt e 22 2 != 0 || leAt e 48 16 != 0 || 64 ≤ leAt e 14 1 || 8 ≤ exGate e || exGate e % 4 == 3 ||
  2 < exPolicy e || exN e == 0 || 1024 < exN e || exChunk e == 0 || 32 < exChunk e || exMaxChunks e == 0 || 8 < exMaxChunks e ||
  exH e % 512 != 0 || exH e < 512 || 32768 < exH e || exI e % 512 != 0 || exI e < 512 || 32768 < exI e ||
  !fmtOk (leAt e 12 1) || !fmtOk (leAt e 13 1) || 1 < exFn e || exPlacement e % 32 != 0

/-- The scratch per token of the routed and of the shared areas (Table EX-6). -/
def exURouted (e : List Byte) : Nat := actRowBytes (exActFmt e) (exH e / 8) + actRowBytes (exInterFmt e) (exI e / 8) + 512 + 256
def exUShared (e : List Byte) : Nat :=
  max (actRowBytes (exActFmt e) (exH e / 8) + 512) (actRowBytes (exInterFmt e) (exI e / 8) + 256)

/-- Bytes of an intermediate row in the work area (R251, R265). -/
def exInterRow (e : List Byte) : Nat := actRowBytes (exInterFmt e) (exI e)

/-- The conditions of R251 that fail an instance in phase 1. -/
def State.expertBad (s : State) (index : Nat) (e : List Byte) (p : ExpPlan) : Bool :=
  256 ≤ index || exFieldsBad e || exN e < p.k || p.srcWidth != exH e || p.dstWidth != exH e ||
  p.routerWidth < (if p.choices then 2 * p.k else exN e) || !pairingOk (exDens e) (exWFmt e) (exActFmt e) ||
  !pairingOk (exDens e) (exWFmt e) (exInterFmt e) || exH e / 8 % exTileH e != 0 || exI e / 8 % exTileI e != 0 || p.primSlots < 2 ||
  p.scratchBytes < exURouted e * exChunk e + (if exShared e = 0 then 0 else exUShared e) ||
  (exPolicy e == 2 && (exSpillNode e == 0 || exSpillNode e == s.node)) ||
  (exShared e != 0 &&
    (exH e % 2048 != 0 || exI e % 2048 != 0 || s.fld (Reg.EXD_WORK 0) Fld.EXD_WORK_base == 0 || 2 ^ 27 < p.tokens * exInterRow e ||
     p.fillSlots / (2 * cdiv (exH e / 8) (exTileH e)) == 0 || p.fillSlots / cdiv (exI e / 8) (exTileI e) == 0))

/-- The instance in progress replaced. -/
def State.setExpert (s : State) (x : Expert) : State := { s with exd := { s.exd with work := some x } }

/-- The work of an expert instance fails: its recipe instance, or its descriptor with the pairs admitted as result and the bytes written as detail (R245, R273). -/
def State.failExpert (s : State) (x : Expert) (status : Nat) : State :=
  let s := { s with exd := { s.exd with work := none } }
  match x.inst with
  | some n => s.failInst n status
  | none =>
    match s.desc x.key with
    | some d => if d.phase == .ended then s else s.endDesc d status s.exd.batchPairs s.exd.batchBytes
    | none => s

/-- The instance in progress, where its dispatch unit runs. -/
def State.expertNow (s : State) : Option Expert :=
  match s.exd.work with
  | some x => if s.workStopped || x.closed then none else some x
  | none => none

/-- What the work of an expert instance has come to. -/
def Doing.expert (w : Doing) (x : Expert) (done : State → State) : State :=
  match w.halt with
  | .go => done w.counted
  | .wait => w.s
  | .fail st => w.counted.failExpert x st

/-- Pool bytes read by the selector or a stream decoder at a PA. -/
def Doing.paRead (w : Doing) (env : Env) (k : DescKey) (via : Via) (pa n key : Nat) : Doing × List Byte :=
  if !w.on then (w, [])
  else
    match w.s.poolRead env via [k.q, k.j, k.seq, 20, key] pa n with
    | (s, .held) => ({ w with s := s, halt := .wait }, [])
    | (s, .fail st _) => ({ w with s := s, halt := .fail st }, [])
    | (s, .ok x b _) => ({ w with s := s.noteWork k b [] }, x)

/-- Pool bytes written at a PA. -/
def Doing.paWrite (w : Doing) (env : Env) (k : DescKey) (pa : Nat) (data : List Byte) : Doing :=
  if !w.on || data.isEmpty then w
  else
    match w.s.poolWrite env .home pa data with
    | (s, .held) => { w with s := s, halt := .wait }
    | (s, .fail st _) => { w with s := s, halt := .fail st }
    | (s, .ok _ b ids) => { w with s := s.noteWork k b ids }

/-- The FP32 words of a row in a window. -/
def Doing.wordsIn (w : Doing) (place : Nat × Nat × Nat) (f : Fmt) (width : Nat) : Doing × List Nat :=
  let (w, bytes) := w.readWin place.1 place.2.1 place.2.2 (actRowBytes f width)
  if w.on then ({ w with s := w.s.useVector (place.1 * 8 + place.2.1) }, rowWords f width bytes) else (w, [])

/-- The raw 32-bit lanes of an FP32 row, without regard to what they stand for (R231, R258). -/
def Doing.lanesIn (w : Doing) (place : Nat × Nat × Nat) (width : Nat) : Doing × List Nat :=
  let (w, bytes) := w.readWin place.1 place.2.1 place.2.2 (4 * width)
  if w.on then ({ w with s := w.s.useVector (place.1 * 8 + place.2.1) }, (List.range width).map fun i => leAt bytes (4 * i) 4) else (w, [])

/-- FP32 words written into a row of a window from a column on. -/
def Doing.wordsOut (w : Doing) (place : Nat × Nat × Nat) (col : Nat) (ws : List Nat) : Doing :=
  let at' := place.2.2 + 4 * col
  (w.look place.1 place.2.1 at' (4 * ws.length)).put place.1 place.2.1 at' (ws.flatMap (leBytes 4))

/-- Contributions added to a token's dst row by FADD32, from a column on (R161, R267). -/
def Doing.addOut (w : Doing) (place : Nat × Nat × Nat) (col : Nat) (ws : List Nat) : Doing :=
  let (w, old) := w.readWin place.1 place.2.1 (place.2.2 + 4 * col) (4 * ws.length)
  w.next fun w =>
    w.wordsOut place col (ws.zipIdx.map fun x => fadd32 (leAt old (4 * x.2) 4) x.1)

/-- A range of a window whose contents the work leaves open: scratch, whose layout the spec does not give, after use. -/
def Doing.scribble (w : Doing) (st f word n : Nat) : Doing :=
  let w := w.look st f (32 * word) n
  w.next fun w =>
    let (vs, s) := w.s.drawRow n
    { w with s := s.writeWindow st f (32 * word) (vs.map fun v => BitVec.ofNat 8 v) }

/-- The choices of a token under router logits: ranked experts with their weights, and reserve candidates (R257). -/
def gateLogits (e : List Byte) (k : Nat) (lanes : List Nat) : List (Option (Nat × Nat)) :=
  let l := (lanes.take (exN e)).map fun x => to32 (of32 x)
  let mode := exGate e % 4
  let p := if mode = 0 then fsoftmax l else if mode = 2 then l.map (vec .sigmoid) else l
  let order := (ranked p).take (max k (min 16 (exN e)))
  let chosen := (order.take k).map fun i => p.getD i 0
  let renorm := (exGate e).testBit 2
  let ws := if mode = 1 then fsoftmax chosen else if renorm then (let t := fsum chosen; chosen.map fun c => fdiv32 c t) else chosen
  order.zipIdx.map fun x => some (x.1, if x.2 < k then ws.getD x.2 0 else 0)

/-- The choices of a token as a router row gives them; a pair is none where its index is too high or repeats an earlier one (R258). -/
def gateChoices (e : List Byte) (k : Nat) (lanes : List Nat) : List (Option (Nat × Nat)) :=
  let idx (j : Nat) : Nat := lanes.getD (2 * j) 0
  (List.range k).map fun j =>
    if exN e ≤ idx j || (List.range j).any (fun i => idx i == idx j) then none else some (idx j, to32 (of32 (lanes.getD (2 * j + 1) 0)))

/-- Whether a token's dst row becomes NaN: a chosen value or weight is NaN (R257). -/
def gateNan (e : List Byte) (k : Nat) (lanes : List Nat) (cs : List (Option (Nat × Nat))) (choices : Bool) : Bool :=
  (cs.take k).any fun c => match c with
    | some (x, w) => (of32 w).isNan || (!choices && x < exN e && (of32 (lanes.getD x 0)).isNan)
    | none => false

/-- Phase 1 for one token: its dst row is zeroed where the instance does not accumulate, and its gate is evaluated (R248, R257, R258). -/
def Doing.gate (w : Doing) (e : List Byte) (p : ExpPlan) (a : List (List (Option (Nat × Nat)))) (b : Nat) : Doing × List (List (Option (Nat × Nat))) :=
  let dst := p.dst.getD b (0, 0, 0)
  let w := if p.acc then w.look dst.1 dst.2.1 dst.2.2 (4 * p.dstWidth) else w.wordsOut dst 0 (List.replicate p.dstWidth 0)
  let (w, lanes) := w.lanesIn (p.router.getD b (0, 0, 0)) (if p.choices then 2 * p.k else exN e)
  let cs := if p.choices then gateChoices e p.k lanes else gateLogits e p.k lanes
  let w := if w.on && gateNan e p.k lanes cs p.choices then w.wordsOut dst 0 (List.replicate p.dstWidth 0x7FC00000) else w
  (w, a ++ [cs])

/-- The expert-table entry of an index, read by the selector; nothing for an index of 256 or more (R249, R251). -/
def Doing.entryOf (w : Doing) (env : Env) (key : DescKey) (index : Nat) : Doing × List Byte :=
  if index < 256 then w.paRead env key .lineCache (w.s.fld (Reg.EXD_TABLE 0) Fld.EXD_TABLE_base + 64 * index) 64 0 else (w, [])

/-- The gate phase of an instance under its entry (R248, R257, R258). -/
def Doing.gatePhase (w : Doing) (key : DescKey) (inst : Option Nat) (first index : Nat) (work : Work) (p : ExpPlan) (e : List Byte) : Doing :=
  let (w, cands) := (List.range p.tokens).foldl (fun (a : Doing × List (List (Option (Nat × Nat)))) b => a.1.gate e p a.2 b) (w, [])
  w.next fun w =>
    let bad := (cands.map fun c => (c.filter Option.isNone).length).foldl (· + ·) 0
    let s := w.s.countSat (Reg.EXD_CNT2 key.q) Fld.EXD_CNT2_bad_choice bad
    { w with s := s.setExpert { key := key, inst := inst, first := first, work := work, phase := 1, index := index, entry := e, plan := p
                                cands := cands, placement := [], failed := [], pairs := [], groups := [], spills := [], askedNt := 0
                                sharedA := false, closed := false } }

/-- An expert instance begins: its entry is read and checked, and the gate phase runs (R248, R249, R251). -/
def Doing.beginExpert (w : Doing) (env : Env) (key : DescKey) (inst : Option Nat) (first index : Nat) (work : Work) (p : ExpPlan) : Doing :=
  let (w, e) := w.entryOf env key index
  w.next fun w =>
    if w.s.expertBad index e p then { w with halt := .fail 0x8004 } else w.gatePhase key inst first index work p e

/-- The plan of an EXPERT operation (Table RC-5, R266). -/
def exOpPlan (r : Run) (o : Op) (batch : Nat) : ExpPlan :=
  let rc := r.recipe
  let places (sl : Slot) : List (Nat × Nat × Nat) := (List.range batch).map (homePlace r.block sl)
  let sc := rc.scratch o
  { tokens := batch, src := places (rc.slot o.src0), dst := places (rc.slot o.dst), router := places (rc.slot o.src1)
    srcFmt := (rc.slot o.src0).fmtCode, srcWidth := (rc.slot o.src0).cols, dstWidth := (rc.slot o.dst).cols
    routerWidth := (rc.slot o.src1).cols, k := o.p 8 1, choices := o.p 12 1 == 1, acc := (o.p 13 1).testBit 0
    scratch := sc.bind, scratchBytes := sc.cols, primRing := rc.primRing, primSlots := rc.primSlots, fillRing := rc.fillRing
    fillSlots := rc.fillSlots }

/-- EXPERT begins one layer of expert dispatch with the gate phase (R234, R248); where it has to wait it begins again. -/
def expertEff (n : Nat) (env : Env) (s : State) : State :=
  match s.instOf n 0x0D with
  | none => s
  | some (r, i, d) =>
    if i.begun || s.exd.work.isSome then s
    else
      let o := r.opOf i
      let w := (Doing.start s env).beginExpert env r.key (some n) 0 (o.p 10 2 + i.layer) (instWork d o i.layer) (exOpPlan r o d.batch)
      match w.halt with
      | .go => w.s.setInst { i with begun := true }
      | .wait => s.backOff w.s
      | .fail st => w.s.failInst n st

def execExpert (n : Nat) (env : Env) (s : State) : Result := .next (expertEff n env s)

/-- A holder word of the placement table (Table EX-3). -/
structure Holder where
  pa : Nat
  st : Nat
deriving DecidableEq, Repr

/-- The valid holders of expert x, in ascending number (R254). -/
def holdersOf (placement : List Byte) (x : Nat) : List Holder :=
  (List.range 4).filterMap fun h =>
    let w := leAt placement (32 * x + 8 * h) 8
    if w.testBit 63 then some ⟨bitsAt w 0 44, bitsAt w 48 5⟩ else none

/-- The working holders of an expert, given the Settings whose stack is failed: those with a stack that is not, or all where every one is (R256). -/
def workingHolders (failed : List Nat) (placement : List Byte) (x : Nat) : List Holder :=
  let hs := holdersOf placement x
  let up := hs.filter fun h => !failed.contains h.st
  if up.isEmpty then hs else up

/-- The Settings whose stack is failed now. -/
def State.failedStacks (s : State) : List Nat := (List.range 32).filter s.stackFailed

/-- The largest number of pairs of an expert (R259). -/
def expertCap (failed : List Nat) (e placement : List Byte) (x : Nat) : Nat :=
  let limit := exChunk e * exMaxChunks e * (workingHolders failed placement x).length
  if exCapacity e = 0 then limit else min (exCapacity e) limit

/-- Whether a holder's copy lies in one enabled pinned slab whose home is its Setting (R255). -/
def State.holderOk (s : State) (e : List Byte) (h : Holder) : Bool :=
  let n := h.pa / 2 ^ 30
  h.pa % 256 == 0 && (h.pa + exSpan e - 1) / 2 ^ 30 == n && n < s.slabCount && s.on (slabReg n) Fld.STK_SLAB_enable &&
  s.fld (slabReg n) Fld.STK_SLAB_mode == 0 && s.fld (slabReg n) Fld.STK_SLAB_home == h.st

/-- The admission of pairs: admitted pairs in order, pairs that overflowed, and those that NEXT moved in. -/
structure Admission where
  pairs : List ExpPair
  excess : List (Nat × Nat × Nat)
  moved : List Nat
deriving DecidableEq, Repr

/-- Admitted pairs of an expert. -/
def Admission.count (a : Admission) (x : Nat) : Nat := (a.pairs.filter fun p => p.e == x && p.fate == 0).length

/-- The pairs in rank-major order, as token, expert and weight (R260). -/
def rankMajor (k : Nat) (cands : List (List (Option (Nat × Nat)))) : List (Nat × Nat × Nat) :=
  (List.range k).flatMap fun r => cands.zipIdx.filterMap fun c => (c.1.getD r none).map fun x => (c.2, x.1, x.2)

/-- Admission under capacity, then the overflow policy, in rank-major order (R260, R261). -/
def admission (cap : Nat → Nat) (policy k : Nat) (choices : Bool) (cands : List (List (Option (Nat × Nat)))) : Admission :=
  let order := rankMajor k cands
  let a := order.foldl (fun (a : Admission) p =>
    if a.count p.2.1 < cap p.2.1 then { a with pairs := a.pairs ++ [⟨p.1, p.2.1, p.2.2, 0⟩] } else { a with excess := a.excess ++ [p] })
    (Admission.mk [] [] [])
  a.excess.foldl (fun (a : Admission) p =>
    let reserves := if choices then [] else ((cands.getD p.1 []).drop k).filterMap fun c => c.map (·.1)
    let reached (x : Nat) : Bool := a.pairs.any fun q => q.b == p.1 && q.e == x
    if policy = 0 then
      match reserves.find? fun x => !reached x && decide (a.count x < cap x) with
      | some x => { a with pairs := a.pairs ++ [⟨p.1, x, p.2.2, 0⟩], moved := a.moved ++ [x] }
      | none => { a with pairs := a.pairs ++ [⟨p.1, p.2.1, p.2.2, 1⟩] }
    else { a with pairs := a.pairs ++ [⟨p.1, p.2.1, p.2.2, if policy = 2 then 2 else 1⟩] }) a

/-- The weight of a kept pair after drops: times S / S_kept of its token (R261). -/
def keptWeight (pairs : List ExpPair) (p : ExpPair) : Nat :=
  let mine := pairs.filter fun x => x.b == p.b
  let kept := mine.filter fun x => x.fate != 1
  if kept.length = mine.length then p.w
  else fmul32 p.w (fdiv32 (fsum (mine.map (·.w))) (fsum (kept.map (·.w))))

/-- The groups of the kept pairs: for each expert in turn, its working holders of phase 2 take its pairs in turn (R256, R264, R274). -/
def groupsOf (x : Expert) : List ExpGroup :=
  (List.range (exN x.entry)).flatMap fun e =>
    let hs := workingHolders x.failed x.placement e
    let mine := (x.pairs.filter fun p => p.e == e && p.fate == 0).zipIdx
    hs.zipIdx.filterMap fun h =>
      let ps := (mine.filter fun p => p.2 % hs.length == h.2).map fun p => (p.1.b, keptWeight x.pairs p.1)
      if ps.isEmpty then none else some ⟨e, h.1.st, h.1.pa, ps, 0⟩

/-- Phase 4 begins: the weights are final and the groups are formed (R248, R261). -/
def State.startGroups (s : State) (x : Expert) : State :=
  let spills := x.spills.map fun (g : SpillOut) =>
    { g with pairs := g.pairs.map fun p => (p.1, keptWeight x.pairs ⟨p.1, g.e, p.2, 2⟩) }
  s.setExpert { x with phase := 4, groups := groupsOf x, spills := spills }

/-- The payload of a spill packet (Table EX-7). -/
def spillBytes (group kind entry expert count word rowLen : Nat) (data : List Byte) : List Byte :=
  leBytes 2 group ++ leBytes 1 kind ++ [0] ++ leBytes 2 entry ++ leBytes 2 expert ++ leBytes 2 count ++ leBytes 2 word ++ leBytes 4 rowLen ++
  List.replicate 16 0 ++ data

/-- A spill packet of an expert instance sent to its spill node (R268). -/
def State.sendSpill (s : State) (x : Expert) (g : SpillOut) (kind mclass count word row : Nat) (data : List Byte) : State :=
  let q := x.key.q.val
  let p := s.originate (keyClient x.key) (exSpillNode x.entry) opSpill mclass (s.fld (Reg.EXD_CTL q) Fld.EXD_CTL_spill_tc) 0 0
    (spillBytes g.id kind x.index g.e count word (2 * exH x.entry) data)
  s.sendTracked q p (.spill g.id row)

/-- The spill groups of an instance: one for each expert with spilled pairs (R268). -/
def spillGroups (x : Expert) (first : Nat) : List SpillOut :=
  (((List.range (exN x.entry)).filterMap fun e =>
    let ps := x.pairs.filter fun p => p.e == e && p.fate == 2
    if ps.isEmpty then none else some (e, ps.map fun p => (p.b, p.w))).zipIdx).map fun g =>
      ⟨(first + g.2) % 2 ^ 16, g.1.1, g.1.2, 0, 0, []⟩

/-- A word of the load record (R262). -/
def loadWord (a : Admission) (x : Nat) : List Byte :=
  let c (n : Nat) : List Byte := leBytes 2 (min n 0xFFFF)
  c (a.count x) ++ c (a.excess.filter fun p => p.2.1 == x).length ++ c (a.moved.filter (· == x)).length ++
  c (a.pairs.filter fun p => p.e == x && p.fate == 2).length

/-- EXPERT_ADMISSION: phase 2, and the spill requests of phase 3 (R255 to R262, R268). -/
def expertAdmissionEff (env : Env) (s : State) : State :=
  match s.expertNow with
  | none => s
  | some x =>
    if x.phase != 1 then s
    else
      let e := x.entry
      let (w, pl) := (Doing.start s env).paRead env x.key .lineCache (exPlacement e) (32 * exN e) 1
      let failed := s.failedStacks
      let a := admission (expertCap failed e pl) (exPolicy e) x.plan.k x.plan.choices x.cands
      let used := (a.pairs.filter fun p => p.fate == 0).map (·.e) |>.eraseDups
      let w := w.next fun w =>
        if used.any fun u => (holdersOf pl u).any fun h => !w.s.holderOk e h then { w with halt := .fail 0x8004 } else w
      let w := if exLoad e = 0 then w else w.next fun w => w.paWrite env x.key (exLoad e) ((List.range (exN e)).flatMap (loadWord a))
      w.expert x fun s =>
        let q := x.key.q.val
        let n := (a.pairs.filter fun p => p.fate == 0).length
        let s := s.countWrap (Reg.EXD_CNT q) Fld.EXD_CNT_admitted n
        let s := s.countSat (Reg.EXD_CNT q) Fld.EXD_CNT_rerouted a.moved.length
        let s := s.countSat (Reg.EXD_CNT q) Fld.EXD_CNT_dropped (a.pairs.filter fun p => p.fate == 1).length
        let s := s.observe 6 q 0x181 n x.work []
        let s := { s with exd := { s.exd with batchPairs := s.exd.batchPairs + n } }
        let x := { x with placement := pl, failed := failed, pairs := a.pairs }
        match spillGroups x s.exd.nextGroup with
        | [] => s.startGroups x
        | gs =>
          let s := { s with exd := { s.exd with nextGroup := (s.exd.nextGroup + gs.length) % 2 ^ 16 } }
          let s := s.setExpert { x with phase := 3, spills := gs, askedNt := s.nt }
          gs.foldl (fun (s : State) g => s.sendSpill x g 0 2 g.pairs.length 0 0 []) s

def execExpertAdmission (env : Env) (s : State) : Result := .next (expertAdmissionEff env s)

/-- What feeds the Facets of a Setting with weight tiles: the Setting, the context, the first word and the slots of its ring (none where the spec places no ring), and the work that it serves. -/
structure Feed where
  st : Nat
  fill : Bool
  ring : Nat
  slots : Nat
  work : Work
deriving DecidableEq, Repr

/-- The shape of the product of a stored weight matrix, whose shard has some rows, with activation rows of k positions in the format of a code (R252, R253). -/
def exShape (e : List Byte) (code shardRows k pitch : Nat) : MatShape :=
  let af := (fmtOf code).getD .fp32
  let slot (kind fmt dens rows pitch : Nat) : Slot :=
    { kind := kind, fmtCode := fmt, dens := dens, dist := 0, ks := 1, rows := rows, cols := k, pitch := pitch, outer := 0, inner := 0, bind := 0, base := 0 }
  let c := rateClass (exWFmt e) af
  let per := tilePositions (exDens e) c
  { w := slot 1 (leAt e 14 1 % 16) (exDens e) (32 * shardRows) pitch, a := slot 2 code 0 32 0, cls := c, per := per
    tiles := cdiv k per, blocks := cdiv shardRows 64, sweeps := 1, tokens := 32 }

/-- A weight tile read at the stack port and put through a slot of a Facet's ring (R193, R194). -/
def Doing.weightTile (w : Doing) (env : Env) (k : DescKey) (p : Feed) (m : MatShape) (addr : Nat → Nat → List (Nat × Nat)) (f rb t slot : Nat) :
    Doing × List Byte :=
  let (w, tile) := w.gather (tileRanges m addr rb t) fun w a => w.paRead env k .stack a 256 2
  let w := w.next fun w => { w with tally := w.tally ++ tileTally m addr id p.st rb t p.work tile }
  if p.slots = 0 then (w, tile) else w.throughRing p.st f p.ring slot tile

/-- The partials of a Facet over its K-slice of a row block, for chunks of tokens: tile by tile, each met with every chunk (R263, R265). The tile that comes n-th takes slot n modulo the ring's slots. DESIGN CHOICE: which free slot takes a tile is the dispatch unit's (assumption 84). -/
def Doing.slicePartials (w : Doing) (env : Env) (k : DescKey) (p : Feed) (m : MatShape) (addr : Nat → Nat → List (Nat × Nat)) (skip f rb n : Nat)
    (acts : List (List (List Byte))) : Doing × List (List (List Nat)) :=
  let rows := m.rowsOf rb
  (List.range (m.tiles / 8)).foldl (fun (a : Doing × List (List (List Nat))) i =>
    let t := f * (m.tiles / 8) + i
    let (w, tile) := a.1.weightTile env k p m addr f rb t ((n + i) % max 1 p.slots)
    let beads := (List.range rows).map (tileRow m rows t tile)
    let out := (a.2.zip acts).map fun c => passOf m skip t beads c.2 c.1
    let w := out.foldl (fun (w : Doing) o => w.note (.pass p.st f p.fill p.work o.2.1 (classRate m.cls) o.2.2)) w
    (w, out.map (·.1))) (w, acts.map fun c => c.map fun _ => List.replicate rows 0)

/-- The sums of a row block, token by token: the partials of the eight Facets added by FADD32 in no fixed order (R189, R263). -/
def Doing.blockSums (w : Doing) (env : Env) (k : DescKey) (p : Feed) (m : MatShape) (addr : Nat → Nat → List (Nat × Nat)) (skip rb n : Nat)
    (acts : List (List (List Byte))) : Doing × List (List Nat) :=
  let (w, parts) := (List.range 8).foldl (fun (a : Doing × List (List (List Nat))) f =>
    let (w, x) := a.1.slicePartials env k p m addr skip f rb n acts
    (w, a.2 ++ [x.flatten])) (w, [])
  (w, (List.range acts.flatten.length).map fun b => (List.range (m.rowsOf rb)).map fun r => fsum (parts.map fun x => (x.getD b []).getD r 0))

/-- Row-block pairs of up and gate, from slot n on: the function of each token's sums (R263, R265). -/
def Doing.upGate (w : Doing) (env : Env) (k : DescKey) (p : Feed) (e : List Byte) (m : MatShape) (up gate : Nat → Nat → List (Nat × Nat)) (js : List Nat)
    (acts : List (List (List Byte))) : Doing × Nat × List (Nat × List (List Nat)) :=
  let tA := m.tiles / 8
  js.foldl (fun (a : Doing × Nat × List (Nat × List (List Nat))) j =>
    let (w, u) := a.1.blockSums env k p m up (exSkip e) j a.2.1 acts
    let (w, g) := w.blockSums env k p m gate (exSkip e) j (a.2.1 + tA) acts
    let v := (u.zip g).map fun x => (x.1.zip x.2).map fun y => fmul32 (vec (if exFn e = 0 then .silu else .gelu) y.1) y.2
    (w, a.2.1 + 2 * tA, a.2.2 ++ [(j, v)])) (w, 0, [])

/-- The values of a token, row block after row block in ascending order. -/
def rowValues (blocks : List (Nat × List (List Nat))) (n b : Nat) : List Nat :=
  (List.range n).flatMap fun j => ((blocks.find? fun x => x.1 == j).map fun x => x.2.getD b []).getD []

/-- A range of a copy that begins at a PA. -/
def copyAt (pa j n : Nat) : List (Nat × Nat) := [(pa + j, n)]

/-- A chunk of a routed group at its holder: the up and gate products in the order of R263, the intermediate rows, and the down products; the result row of each token. -/
def Doing.chunkOf (w : Doing) (env : Env) (k : DescKey) (p : Feed) (e : List Byte) (pa : Nat) (acts : List (List Byte)) : Doing × List (List Nat) :=
  let (h, i, pH, pI) := (exH e, exI e, exPitchH e, exPitchI e)
  let m := exShape e (leAt e 12 1) i h pH
  let js := (List.range (i / 64)).map fun t => i / 512 * (t % 8) + t / 8
  let (w, n, mid) := w.upGate env k p e m (copyAt pa) (copyAt (pa + i * pH)) js [acts]
  let inters := (List.range acts.length).map fun b => wordsRow (exInterFmt e) [] false (rowValues mid (i / 64) b)
  let d := exShape e (leAt e 13 1) h i pI
  let (w, _, out) := (List.range (h / 64)).foldl (fun (a : Doing × Nat × List (Nat × List (List Nat))) r =>
    let (w, y) := a.1.blockSums env k p d (copyAt (pa + 2 * i * pH)) (exSkip e) r a.2.1 [inters]
    (w, a.2.1 + d.tiles / 8, a.2.2 ++ [(r, y)])) (w, n, [])
  (w, (List.range acts.length).map (rowValues out (h / 64)))

/-- A token's row in the activation format of the experts; a row that is already in it goes as it stands (R263). -/
def Doing.tokenIn (w : Doing) (x : Expert) (b : Nat) : Doing × List Byte :=
  let f := (fmtOf x.plan.srcFmt).getD .fp32
  let place := x.plan.src.getD b (0, 0, 0)
  if f = exActFmt x.entry then w.readWin place.1 place.2.1 place.2.2 (actRowBytes f x.plan.srcWidth)
  else
    let (w, ws) := w.wordsIn place f x.plan.srcWidth
    (w, wordsRow (exActFmt x.entry) [] false ws)

/-- The rows of some tokens. -/
def Doing.tokensIn (w : Doing) (x : Expert) (bs : List Nat) : Doing × List (List Byte) :=
  bs.foldl (fun (a : Doing × List (List Byte)) b => let (w, row) := a.1.tokenIn x b; (w, a.2 ++ [row])) (w, [])

/-- The scratch of the eight Facets of a Setting after use. -/
def Doing.usedUp (w : Doing) (p : ExpPlan) (st : Nat) : Doing :=
  (List.range 8).foldl (fun (w : Doing) f => w.scribble st f p.scratch p.scratchBytes) w

/-- The contexts of an instance's Facets on a Setting. -/
def ExpPlan.feed (p : ExpPlan) (st : Nat) (fill : Bool) (work : Work) : Feed :=
  if fill then ⟨st, true, p.fillRing, p.fillSlots, work⟩ else ⟨st, false, p.primRing, p.primSlots, work⟩

/-- A routed chunk with its contributions to the tokens' rows (R263, R267). -/
def Doing.routedChunk (w : Doing) (env : Env) (x : Expert) (g : ExpGroup) : Doing :=
  let chunk := (g.pairs.drop g.done).take (exChunk x.entry)
  let (w, acts) := w.tokensIn x (chunk.map (·.1))
  let w := w.usedUp x.plan g.st
  let (w, out) := w.chunkOf env x.key (x.plan.feed g.st false x.work) x.entry g.pa acts
  (chunk.zip out).foldl (fun (w : Doing) c => w.addOut (x.plan.dst.getD c.1.1 (0, 0, 0)) 0 (c.2.map fun v => fmul32 c.1.2 v)) w

/-- ROUTED_CHUNK_END: the Setting's routed group that is due, in ascending expert and chunk order, ends a chunk, and its contributions are added to the tokens' rows (R263, R264, R267). -/
def routedChunkEndEff (st : Setting) (env : Env) (s : State) : State :=
  match s.expertNow with
  | none => s
  | some x =>
    match (if x.phase < 4 then none else x.groups.zipIdx.find? fun g => g.1.st == st.val) with
    | none => s
    | some (g, at') =>
      let w := (Doing.start s env).routedChunk env x g
      match w.halt with
      | .wait => { s with coh := { s.coh with lossWaits := w.s.coh.lossWaits } }
      | .fail status => w.counted.failExpert x status
      | .go =>
        let n := min (exChunk x.entry) (g.pairs.length - g.done)
        let (c, s) := w.counted.draw
        let s := s.observe 6 x.key.q 0x183 n x.work
          (leBytes 2 g.e ++ [BitVec.ofNat 8 st.val, BitVec.ofNat 8 n] ++ leBytes 4 (Config.free c))
        let groups := if g.pairs.length ≤ g.done + n then x.groups.eraseIdx at' else x.groups.set at' { g with done := g.done + n }
        match s.exd.work with
        | some x => s.setExpert { x with groups := groups }
        | none => s

def execRoutedChunkEnd (st : Setting) (env : Env) (s : State) : Result := .next (routedChunkEndEff st env s)

/-- The shared expert's operands: where up, gate and down begin (R253). -/
def sharedAt (e : List Byte) (m : Nat) : Nat :=
  let sH := exI e / 32 * exPitchH e
  if m = 0 then exShared e else if m = 1 then exShared e + 32 * sH else exShared e + 64 * sH

/-- Where the intermediate row of a token lies in the work area (R265). -/
def State.workRow (s : State) (e : List Byte) (b : Nat) : Nat := s.fld (Reg.EXD_WORK 0) Fld.EXD_WORK_base + b * exInterRow e

/-- c_s: tokens of a chunk of the shared expert (R266). -/
def exSharedChunk (e : List Byte) (p : ExpPlan) : Nat := min 32 ((p.scratchBytes - exURouted e * exChunk e) / exUShared e)

/-- A list cut into runs of n. -/
def chunksOf {α : Type} (n : Nat) (l : List α) : List (List α) := (List.range (cdiv l.length n)).map fun i => (l.drop (n * i)).take n

/-- Row blocks taken in passes of p, each pass from the first slot of the ring on (R265). -/
def passesOf (p blocks : Nat) : List (List Nat) := chunksOf (max 1 p) (List.range blocks)

/-- Shared phase A on one Setting: its values of every token, row block after row block, in passes of p held pairs (R265). -/
def Doing.sharedUp (w : Doing) (env : Env) (x : Expert) (st : Nat) (acts : List (List (List Byte))) : Doing × List (Nat × List (List Nat)) :=
  let e := x.entry
  let m := exShape e (leAt e 12 1) (exI e / 32) (exH e) (exPitchH e)
  let p := min 8 (x.plan.fillSlots / (2 * (m.tiles / 8)))
  (passesOf p (exI e / 2048)).foldl (fun (a : Doing × List (Nat × List (List Nat))) js =>
    let (w, _, v) := a.1.upGate env x.key (x.plan.feed st true x.work) e m (shardPieces (sharedAt e 0) st) (shardPieces (sharedAt e 1) st) js acts
    (w, a.2 ++ v)) (w, [])

/-- Shared phase A: the intermediate row of every token written into the work area (R265). -/
def Doing.sharedPhaseA (w : Doing) (env : Env) (x : Expert) : Doing :=
  let e := x.entry
  let (w, rows) := w.tokensIn x (List.range x.plan.tokens)
  let acts := chunksOf (max 1 (exSharedChunk e x.plan)) rows
  let w := (List.range 32).foldl (fun (w : Doing) st => w.usedUp x.plan st) w
  let (w, parts) := (List.range 32).foldl (fun (a : Doing × List (List (Nat × List (List Nat)))) st =>
    let (w, v) := a.1.sharedUp env x st acts
    (w, a.2 ++ [v])) (w, [])
  (List.range x.plan.tokens).foldl (fun (w : Doing) b =>
    w.paWrite env x.key (w.s.workRow e b)
      (wordsRow (exInterFmt e) [] false (parts.flatMap fun v => rowValues v (exI e / 2048) b))) w

/-- Whether the fill contexts of every Facet may run (R201, R265). -/
def State.fillsRun (s : State) : Bool := (List.range 256).all fun g => s.fillRuns (g / 8) (g % 8)

/-- SHARED_PHASE_A_END: the intermediate rows of every token stand in the work area, and phase B begins (R265). -/
def sharedPhaseAEndEff (env : Env) (s : State) : State :=
  match s.expertNow with
  | none => s
  | some x =>
    if x.phase != 4 || exShared x.entry = 0 || x.sharedA || !s.fillsRun then s
    else
      let w := (Doing.start s env).sharedPhaseA env x
      match w.halt with
      | .wait => { s with coh := { s.coh with lossWaits := w.s.coh.lossWaits } }
      | .fail status => w.counted.failExpert x status
      | .go => w.counted.setExpert { x with sharedA := true, phase := 5 }

def execSharedPhaseAEnd (env : Env) (s : State) : Result := .next (sharedPhaseAEndEff env s)

/-- The down products of one Setting's shard: the sums of every token, row block after row block, in passes that fit the fill ring (R265). -/
def Doing.sharedShard (w : Doing) (env : Env) (x : Expert) (st : Nat) (acts : List (List (List Byte))) : Doing × List (Nat × List (List Nat)) :=
  let e := x.entry
  let m := exShape e (leAt e 13 1) (exH e / 32) (exI e) (exPitchI e)
  let tB := m.tiles / 8
  (passesOf (x.plan.fillSlots / tB) (exH e / 2048)).foldl (fun (a : Doing × List (Nat × List (List Nat))) rs =>
    let (w, _, v) := rs.foldl (fun (b : Doing × Nat × List (Nat × List (List Nat))) r =>
      let (w, y) := b.1.blockSums env x.key (x.plan.feed st true x.work) m (shardPieces (sharedAt e 2) st) (exSkip e) r b.2.1 acts
      (w, b.2.1 + tB, b.2.2 ++ [(r, y)])) (a.1, 0, [])
    (w, a.2 ++ v)) (w, [])

/-- Shared phase B: the down products of every token, times shared_scale, are added to the tokens' rows (R265, R267). -/
def Doing.sharedDown (w : Doing) (env : Env) (x : Expert) : Doing :=
  let e := x.entry
  if exShared e = 0 then w
  else
    let (w, rows) := (List.range x.plan.tokens).foldl (fun (a : Doing × List (List Byte)) b =>
      let (w, row) := a.1.paRead env x.key .stack (a.1.s.workRow e b) (exInterRow e) 3
      (w, a.2 ++ [row])) (w, [])
    let acts := chunksOf (max 1 (exSharedChunk e x.plan)) rows
    let w := (List.range 32).foldl (fun (w : Doing) st => w.usedUp x.plan st) w
    (List.range 32).foldl (fun (w : Doing) st =>
      let (w, v) := w.sharedShard env x st acts
      (List.range x.plan.tokens).foldl (fun (w : Doing) b =>
        w.addOut (x.plan.dst.getD b (0, 0, 0)) (st * (exH e / 32)) ((rowValues v (exH e / 2048) b).map fun y => fmul32 (exSharedScale e) y)) w) w

/-- EXPERT_CLOSE: no group and no spill is open, phase B ends with its contributions, and the instance closes (R248, R267). -/
def expertCloseEff (env : Env) (s : State) : State :=
  match s.expertNow with
  | none => s
  | some x =>
    if x.phase < 4 || !x.groups.isEmpty || (x.spills.any fun g => g.state == 1) || (exShared x.entry != 0 && (!x.sharedA || !s.fillsRun)) then s
    else
      let w := (Doing.start s env).sharedDown env x
      match w.halt with
      | .wait => { s with coh := { s.coh with lossWaits := w.s.coh.lossWaits } }
      | .fail status => w.counted.failExpert x status
      | .go =>
        let s := w.counted
        match x.inst with
        | none => s.setExpert { x with phase := 6, closed := true }
        | some n =>
          let s := { s with exd := { s.exd with work := none } }
          match s.inst n with
          | some (_, i, _) => s.setInst { i with done := true }
          | none => s

def execExpertClose (env : Env) (s : State) : Result := .next (expertCloseEff env s)

/-- The plan of an EXPERT_BATCH (R271, R272): bytes of an input row and of a router row, and home rows in a Facet's window. -/
structure BatchShape where
  rIn : Nat
  rRouter : Nat
  perFacet : Nat
deriving DecidableEq, Repr

def State.batchShape (s : State) (d : Desc) (e : List Byte) : BatchShape :=
  let h := d.u 10 2
  let rIn := if d.u 12 1 = 0 then 2 * h else rowBytes .e4m3s h
  let rR := if d.u 13 1 = 0 then roundUp 32 (4 * exN e) else 64
  let m := (List.range 256).foldl (fun a g => min a (s.ownedBanks (g / 8) (g % 8)).length) 64
  ⟨rIn, rR, (m * 262144 - 432128) / (rIn + 4 * h + rR)⟩

/-- Where row b of a sub-batch has its home: Setting, Facet and first byte of its home row (R272). -/
def batchHome (c : BatchShape) (h b : Nat) : Nat × Nat × Nat :=
  (b % 32, b / 32 % 8, 432128 + b / 32 / 8 * (c.rIn + 4 * h + c.rRouter))

/-- The plan of a sub-batch of n rows (R272). -/
def exBatchPlan (d : Desc) (c : BatchShape) (n : Nat) : ExpPlan :=
  let h := d.u 10 2
  let places (off : Nat) : List (Nat × Nat × Nat) := (List.range n).map fun b =>
    let p := batchHome c h b
    (p.1, p.2.1, p.2.2 + off)
  { tokens := n, src := places 0, dst := places c.rIn, router := places (c.rIn + 4 * h)
    srcFmt := if d.u 12 1 = 0 then 1 else 4, srcWidth := h, dstWidth := h, routerWidth := c.rRouter / 4, k := d.u 14 1
    choices := d.u 13 1 == 1, acc := false, scratch := 11520, scratchBytes := 63488, primRing := 9216, primSlots := 8
    fillRing := 0, fillSlots := 32 }

/-- The token and router rows of a sub-batch brought to their home rows (R271, R272). -/
def Doing.batchRows (w : Doing) (env : Env) (d : Desc) (c : BatchShape) (first n : Nat) : Doing :=
  let h := d.u 10 2
  let src := d.u 16 8
  let rt := d.u 24 8
  (List.range n).foldl (fun (w : Doing) b =>
    let p := batchHome c h b
    let (w, x) := w.fetch env d.key (moverReq p.1 0) .home (spaceOf src) (addrOf src + (first + b) * c.rIn) c.rIn ((first + b) * 8)
    let (w, y) := w.fetch env d.key (moverReq p.1 0) .home (spaceOf rt) (addrOf rt + (first + b) * c.rRouter) c.rRouter ((first + b) * 8 + 2 ^ 40)
    let w := (w.look p.1 p.2.1 p.2.2 c.rIn).put p.1 p.2.1 p.2.2 x
    (w.look p.1 p.2.1 (p.2.2 + c.rIn + 4 * h) c.rRouter).put p.1 p.2.1 (p.2.2 + c.rIn + 4 * h) y) w

/-- A sub-batch begins at a row: its entry is read and checked, its rows come in, and the gate phase runs (R251, R272). -/
def Doing.subBatch (w : Doing) (env : Env) (d : Desc) (first : Nat) : Doing :=
  let (w, e) := w.entryOf env d.key (d.u 4 2)
  w.next fun w =>
    let c := w.s.batchShape d e
    let n := min (256 * c.perFacet) (d.u 8 2 - first)
    let p := exBatchPlan d c n
    if w.s.expertBad (d.u 4 2) e p || n = 0 then { w with halt := .fail 0x8004 }
    else (w.batchRows env d c first n).next fun w => w.gatePhase d.key none first (d.u 4 2) d.work p e

/-- The next sub-batch of an EXPERT_BATCH begins; where it has to wait it begins again. -/
def State.startSubBatch (s : State) (env : Env) (d : Desc) (first : Nat) : State :=
  let w := (Doing.start s env).subBatch env d first
  match w.halt with
  | .go => w.counted
  | .wait => s.backOff w.s
  | .fail st =>
    match w.s.desc d.key with
    | some d => if d.phase == .ended then w.s else w.counted.endDesc d st w.s.exd.batchPairs w.s.exd.batchBytes
    | none => w.s

/-- The ranges in space 0 of an EXPERT_BATCH: its rows of tokens, of router input and of output (R106, R271). DEDUCED: where the entry gives no row size for the router input, that range is not checked, since the descriptor then fails with 0x8004 (R251, assumption 85). -/
def batchRanges (d : Desc) (e : List Byte) (c : BatchShape) : List (List Tile) :=
  let one (i len : Nat) (write : Bool) : List (List Tile) :=
    if spaceOf (d.u i 8) = 0 then [[⟨addrOf (d.u i 8), len, d.u 8 2, len, write⟩]] else []
  one 16 c.rIn false ++ (if 256 ≤ d.u 4 2 || exFieldsBad e then [] else one 24 c.rRouter false) ++ one 32 c.rIn true

/-- EXPERT_BATCH as it issues: its entry is read, its ranges are checked, and a batch for which no home row fits ends with 0x8004 (R106, R272). -/
def State.batchIssue (s : State) (env : Env) (d : Desc) : State :=
  let (w, e) := (Doing.start s env).entryOf env d.key (d.u 4 2)
  match w.halt with
  | .wait => w.s
  | .fail st => w.s.endDesc d st 0 0
  | .go =>
    let c := w.s.batchShape d e
    w.s.endIssue d (batchRanges d e c) (if c.perFacet = 0 then 0x8004 else 0) []

/-- EXPERT_BATCH: a descriptor that issues has its entry read and its ranges checked; a started one begins with its first sub-batch, and goes on with the next one that is due (R106, R271, R272). -/
def expertBatchEff (k : DescKey) (env : Env) (s : State) : State :=
  match s.issuingOf k 0x11, s.jobOf k 0x11 with
  | some d, _ => s.batchIssue env d
  | none, none => s
  | none, some d =>
    if s.exd.work.isSome || !s.on (Reg.EXD_CTL k.q) Fld.EXD_CTL_enable then s
    else
      let s := if d.progress = 0 then { s with exd := { s.exd with batchPairs := 0, batchBytes := 0 } } else s
      s.startSubBatch env d d.progress

def execExpertBatch (k : DescKey) (env : Env) (s : State) : Result := .next (expertBatchEff k env s)

/-- The output rows of a sub-batch, converted to the input format, put in place of its token rows and written (R271, R272). -/
def Doing.batchOut (w : Doing) (env : Env) (d : Desc) (x : Expert) : Doing :=
  let f := (fmtOf x.plan.srcFmt).getD .fp32
  let out := d.u 32 8
  (List.range x.plan.tokens).foldl (fun (w : Doing) b =>
    let (w, ws) := w.wordsIn (x.plan.dst.getD b (0, 0, 0)) .fp32 x.plan.dstWidth
    let bytes := wordsRow f [] false ws
    let p := x.plan.src.getD b (0, 0, 0)
    let w := (w.look p.1 p.2.1 p.2.2 bytes.length).put p.1 p.2.1 p.2.2 bytes
    let rIn := rowBytes f x.plan.srcWidth
    w.store env d.key (moverReq p.1 0) (spaceOf out) (addrOf out + (x.first + b) * rIn) (bytes.take rIn) 0) w

/-- EXPERT_SUB_BATCH_END: a sub-batch that has closed writes its output rows; the next one is due, or the descriptor ends (R272, R273). -/
def expertSubBatchEndEff (k : DescKey) (env : Env) (s : State) : State :=
  match s.jobOf k 0x11, s.exd.work with
  | some d, some x =>
    if x.key != k || !x.closed || s.workStopped then s
    else
      let w := (Doing.start s env).batchOut env d x
      match w.halt with
      | .wait => s.backOff w.s
      | .fail st => w.s.failExpert x st
      | .go =>
        let bytes := x.plan.tokens * rowBytes ((fmtOf x.plan.srcFmt).getD .fp32) x.plan.srcWidth
        let s := { w.s with exd := { w.s.exd with work := none, batchBytes := w.s.exd.batchBytes + bytes } }
        match s.desc k with
        | none => s
        | some d =>
          let next := x.first + x.plan.tokens
          if d.u 8 2 ≤ next then s.endDesc d 0 s.exd.batchPairs 0 else s.setDesc { d with progress := next }
  | _, _ => s

def execExpertSubBatchEnd (k : DescKey) (env : Env) (s : State) : Result := .next (expertSubBatchEndEff k env s)

end Sys2Proof.Machine
end

