-- ==== Sys2Proof/Machine/Spill.lean ====
section
/-! DEFINITION. Spill: expert groups sent to a replica node, and groups served for another node (R268 to R270, Table EX-7). -/

namespace Sys2Proof.Machine

open Sys2Proof

/-- Fields of a spill payload (Table EX-7). -/
def spGroup (p : Packet) : Nat := leAt p.payload 0 2
def spKind (p : Packet) : Nat := leAt p.payload 2 1
def spEntry (p : Packet) : Nat := leAt p.payload 4 2
def spExpert (p : Packet) : Nat := leAt p.payload 6 2
def spCount (p : Packet) : Nat := leAt p.payload 8 2
def spOffset (p : Packet) : Nat := leAt p.payload 10 2 * 32
def spRowBytes (p : Packet) : Nat := leAt p.payload 12 4
def spData (p : Packet) : List Byte := p.payload.drop 32

/-- A spill packet of a kind taken in at the local port and checked (R373, R377, R393); none where it is dropped or no such packet is due. An answer frees the tag that it matches. -/
def State.spillIn (s : State) (port : Nat) (p : Packet) (kind : Nat) : Option State × State :=
  if s.workStopped || p.opcode != opSpill || spKind p != kind then (none, s)
  else
    let (t, ok) := (s.takeEjected port p).arrives p
    if !ok then (none, t)
    else
      let t := if kind = 1 || kind = 2 || kind = 4 then (match t.matchTag p with | some x => t.releaseTag x.tag | none => t) else t
      (some t, t)

/-- A spill packet for a group that is closed: discarded and counted (R270). -/
def State.lateSpill (s : State) (p : Packet) : State := s.countSat (Reg.EXD_CNT2 (p.client % 4)) Fld.EXD_CNT2_spill_lost 1

/-- The open spill group of the sender that a packet names. -/
def State.spillOut (s : State) (p : Packet) : Option (Expert × SpillOut) :=
  match s.expertNow with
  | none => none
  | some x => (x.spills.find? fun g => g.id == spGroup p && (g.state == 0 || g.state == 1)).map fun g => (x, g)

/-- A spill group replaced. -/
def Expert.setSpill (x : Expert) (g : SpillOut) : Expert :=
  { x with spills := x.spills.map fun (y : SpillOut) => if y.id == g.id then g else y }

/-- The answers are complete once no group is unanswered, and phase 4 begins (R268). -/
def State.spillAnswered (s : State) (x : Expert) : State :=
  if x.phase == 3 && x.spills.all (fun g => g.state != 0) then s.startGroups x else s.setExpert x

/-- Spill groups dropped as under DROP, refused or unanswered (R261, R268). -/
def State.dropSpills (s : State) (x : Expert) (gs : List SpillOut) : State :=
  let x := gs.foldl (fun (x : Expert) g =>
    let x := x.setSpill { g with state := 2 }
    { x with pairs := x.pairs.map fun (p : ExpPair) => if p.e == g.e && p.fate == 2 then { p with fate := 1 } else p }) x
  let n := gs.foldl (fun a g => a + g.pairs.length) 0
  let q := x.key.q.val
  let s := s.countSat (Reg.EXD_CNT2 q) Fld.EXD_CNT2_spill_refused n
  let s := s.countSat (Reg.EXD_CNT q) Fld.EXD_CNT_dropped n
  s.spillAnswered x

/-- The token rows of an accepted group sent as BF16 rows in fragments (R268). -/
def Doing.sendRows (w : Doing) (x : Expert) (g : SpillOut) : Doing :=
  let f := (fmtOf x.plan.srcFmt).getD .fp32
  g.pairs.zipIdx.foldl (fun (w : Doing) p =>
    let (w, ws) := w.wordsIn (x.plan.src.getD p.1.1 (0, 0, 0)) f x.plan.srcWidth
    w.next fun w =>
      let row := wordsRow .bf16 [] false ws
      { w with s := (fragments (2 * exH x.entry)).foldl (fun (s : State) c =>
          s.sendSpill x g 3 2 p.2 (c.1 / 32) p.2 (slice row c.1 c.2)) w.s }) w

/-- SPILL_ACCEPT: the group is accepted, and its token rows are sent (R268). -/
def spillAcceptEff (port : Fin 36) (p : Packet) (env : Env) (s : State) : State :=
  match s.spillIn port p 1 with
  | (none, s) => s
  | (some t, _) =>
    match t.spillOut p with
    | none => t.lateSpill p
    | some (x, g) =>
      if g.state != 0 then t
      else
        let w := (Doing.start t env).sendRows x g
        match w.halt with
        | .wait => s
        | .fail st => w.s.failExpert x st
        | .go =>
          let n := g.pairs.length
          let t := w.s.countSat (Reg.EXD_CNT2 x.key.q) Fld.EXD_CNT2_spilled n
          let t := { t with exd := { t.exd with batchPairs := t.exd.batchPairs + n } }
          t.spillAnswered (x.setSpill { g with state := 1, nt := t.nt })

def execSpillAccept (port : Fin 36) (got : Arrival) (s : State) : Result := .next (spillAcceptEff port got.p got.env s)

/-- SPILL_REFUSE: the group is dropped (R268). -/
def spillRefuseEff (port : Fin 36) (p : Packet) (s : State) : State :=
  match s.spillIn port p 2 with
  | (none, s) => s
  | (some t, _) =>
    match t.spillOut p with
    | none => t.lateSpill p
    | some (x, g) => if g.state != 0 then t else t.dropSpills x [g]

def execSpillRefuse (port : Fin 36) (p : Packet) (s : State) : Result := .next (spillRefuseEff port p s)

/-- SPILL_ANSWER_TIMEOUT: answer_us has passed since the requests, and the unanswered groups are dropped (R268). -/
def spillAnswerTimeoutEff (s : State) : State :=
  match s.expertNow with
  | none => s
  | some x =>
    let open' := x.spills.filter fun g => g.state == 0
    if x.phase != 3 || open'.isEmpty || s.nt < x.askedNt + s.fld (Reg.EXD_CTL x.key.q) Fld.EXD_CTL_answer_us * 1000 then s
    else s.dropSpills x open'

def execSpillAnswerTimeout (s : State) : Result := .next (spillAnswerTimeoutEff s)

/-- Pairs of a group whose result row has come whole. -/
def SpillOut.whole (g : SpillOut) (rowBytes i : Nat) : Bool :=
  (fragments rowBytes).all fun c => g.got.contains (i, c.1, c.2)

/-- SPILL_RESULT_ROW: a fragment of a result row is weighted and added to the token's row; a group whose results have all come is closed (R267, R268). A fragment that comes before the weights are final waits. -/
def spillResultRowEff (port : Fin 36) (p : Packet) (env : Env) (s : State) : State :=
  match s.spillIn port p 4 with
  | (none, s) => s
  | (some t, _) =>
    match t.spillOut p with
    | none => t.lateSpill p
    | some (x, g) =>
      if x.phase < 4 then s
      else
        match g.pairs[spCount p]? with
        | none => t
        | some (b, wt) =>
          let n := (spData p).length
          if g.state != 1 || g.got.contains (spCount p, spOffset p, n) || !(fragments (2 * exH x.entry)).contains (spOffset p, n) then t
          else
            let ys := rowWords .bf16 (n / 2) (spData p)
            let w := (Doing.start t env).addOut (x.plan.dst.getD b (0, 0, 0)) (spOffset p / 2) (ys.map fun y => fmul32 wt y)
            match w.halt with
            | .wait => s
            | .fail st => w.s.failExpert x st
            | .go =>
              let g := { g with got := g.got ++ [(spCount p, spOffset p, n)] }
              let done := (List.range g.pairs.length).all fun i => g.whole (2 * exH x.entry) i
              w.s.setExpert (x.setSpill (if done then { g with state := 3 } else g))

def execSpillResultRow (port : Fin 36) (got : Arrival) (s : State) : Result := .next (spillResultRowEff port got.p got.env s)

/-- SPILL_RESULT_TIMEOUT: the results of an accepted group have not all come in time; the missing pairs are counted and the instance ends (R270). -/
def spillResultTimeoutEff (group : Nat) (s : State) : State :=
  match s.expertNow with
  | none => s
  | some x =>
    match x.spills.find? fun g => g.id == group && g.state == 1 with
    | none => s
    | some g =>
      let q := x.key.q.val
      if s.nt < g.nt + s.fld (Reg.EXD_CTL q) Fld.EXD_CTL_spill_timeout_us * 1000 then s
      else
        let missing := ((List.range g.pairs.length).filter fun i => !g.whole (2 * exH x.entry) i).length
        (s.countSat (Reg.EXD_CNT2 q) Fld.EXD_CNT2_spill_lost missing).failExpert x 0xF002

def execSpillResultTimeout (group : Fin 65536) (s : State) : Result := .next (spillResultTimeoutEff group s)

/-- An answer of the server: accept, refuse, or a result fragment, on the traffic class of EXD_CTL (R268, R374). -/
def State.answerSpill (s : State) (port : Nat) (req : Packet) (kind count word : Nat) (data : List Byte) : State :=
  let a := answerTo req opSpill 1 0 0
    (spillBytes (spGroup req) kind (spEntry req) (spExpert req) count word (spRowBytes req) data)
  s.answer port { a with tc := s.fld (Reg.EXD_CTL 0) Fld.EXD_CTL_spill_tc }

/-- Pairs that the server has accepted and not yet returned. -/
def State.servedPairs (s : State) : Nat := s.exd.serves.foldl (fun n v => n + spCount v.req) 0

/-- The working holder that serves an expert: the first one; all valid holders count as working where every one is failed (R256, R269). -/
def State.serveHolder (s : State) (placement : List Byte) (x : Nat) : Option Holder := (workingHolders s.failedStacks placement x).head?

/-- Whether a valid entry gives what a sender's entry can match: H, I, the formats, the weight and fn within Table EX-2 (R251, R269). -/
def exServable (e : List Byte) : Bool :=
  let fmtOk (c : Nat) : Bool := c == 1 || (4 ≤ c && c ≤ 10)
  leAt e 17 1 % 2 == 1 && leAt e 14 1 < 64 && exH e % 512 == 0 && 512 ≤ exH e && exH e ≤ 32768 && exI e % 512 == 0 && 512 ≤ exI e &&
  exI e ≤ 32768 && fmtOk (leAt e 12 1) && fmtOk (leAt e 13 1) && exFn e ≤ 1

/-- SPILL_REQUEST: the Q0 selector accepts or refuses a group (R269, Table SE-7). -/
def spillRequestEff (port : Fin 36) (p : Packet) (env : Env) (s : State) : State :=
  match s.spillIn port p 0 with
  | (none, s) => s
  | (some t, _) =>
    let k : DescKey := ⟨0, 0, spGroup p⟩
    let refuse (t : State) : State :=
      (t.countSat (Reg.EXD_SERVE_CNT 0) Fld.EXD_SERVE_CNT_refused 1).answerSpill port p 2 0 0 []
    if !t.on (Reg.EXD_CTL 0) Fld.EXD_CTL_spill_serve || 256 ≤ spEntry p || (t.sealed && !t.isPeer p.src) then refuse t
    else
      let (w, e) := (Doing.start t env).paRead env k .lineCache (t.fld (Reg.EXD_TABLE 0) Fld.EXD_TABLE_base + 64 * spEntry p) 64 p.src
      let (w, pl) := w.paRead env k .lineCache (exPlacement e) (32 * exN e) p.src
      match w.halt with
      | .wait => { s with coh := { s.coh with lossWaits := w.s.coh.lossWaits } }
      | .fail _ => refuse w.s
      | .go =>
        match w.s.serveHolder pl (spExpert p) with
        | none => refuse w.s
        | some h =>
          if !exServable e || exN e ≤ spExpert p || spRowBytes p != 2 * exH e || !Config.spillMatches p.src (spEntry p) ||
              w.s.fld (Reg.EXD_SPILL_CFG 0) Fld.EXD_SPILL_CFG_max_pairs < w.s.servedPairs + spCount p then refuse w.s
          else
            let s := { w.s with exd := { w.s.exd with serves := w.s.exd.serves ++ [SpillServe.mk p port e h.st h.pa []] } }
            s.answerSpill port p 1 0 0 []

def execSpillRequest (port : Fin 36) (p : Packet) (env : Env) (s : State) : Result := .next (spillRequestEff port p env s)

/-- The accepted group of a sender and number. -/
def State.serveOf (s : State) (src group : Nat) : Option SpillServe :=
  s.exd.serves.find? fun v => v.req.src == src && spGroup v.req == group

/-- An accepted group replaced by others of the same sender and number. -/
def State.setServe (s : State) (src group : Nat) (new : List SpillServe) : State :=
  { s with exd := { s.exd with serves := s.exd.serves.flatMap fun (v : SpillServe) =>
      if v.req.src == src && spGroup v.req == group then new else [v] } }

/-- SPILL_TOKEN_ROW: a fragment of a token row of an accepted group arrives (R268, R269). -/
def spillTokenRowEff (port : Fin 36) (p : Packet) (s : State) : State :=
  match s.spillIn port p 3 with
  | (none, s) => s
  | (some t, _) =>
    match t.serveOf p.src (spGroup p) with
    | none => t
    | some v =>
      if spCount v.req ≤ spCount p || v.rows.any (fun r => r.1 == spCount p && r.2.1 == spOffset p) then t
      else t.setServe p.src (spGroup p) [{ v with rows := v.rows ++ [(spCount p, spOffset p, spData p)] }]

def execSpillTokenRow (port : Fin 36) (p : Packet) (s : State) : Result := .next (spillTokenRowEff port p s)

/-- The row of pair i that a sender has sent, once every fragment of it has come. -/
def SpillServe.row (v : SpillServe) (i : Nat) : Option (List Byte) :=
  (fragments (2 * exH v.entry)).foldl (fun (a : Option (List Byte)) c =>
    match a, v.rows.find? fun r => r.1 == i && r.2.1 == c.1 && r.2.2.length == c.2 with
    | some x, some r => some (x ++ r.2.2)
    | _, _ => none) (some [])

/-- Whether the server's own groups are done, so that a served group may run (R269). -/
def State.ownGroupsDone (s : State) : Bool :=
  match s.exd.work with
  | none => true
  | some x => x.closed || (decide (4 ≤ x.phase) && x.groups.isEmpty)

/-- The result rows of a served group, chunk by chunk (R263, R269). DESIGN CHOICE: the spec places no ring for it, and its tiles pass through none (assumption 86). -/
def Doing.servedRows (w : Doing) (env : Env) (k : DescKey) (v : SpillServe) (rows : List (List Byte)) : Doing × List (List Nat) :=
  let acts := rows.map fun r => if exActFmt v.entry = .bf16 then r else wordsRow (exActFmt v.entry) [] false (rowWords .bf16 (exH v.entry) r)
  (chunksOf (max 1 (exChunk v.entry)) acts).foldl (fun (a : Doing × List (List Nat)) c =>
    let (w, y) := a.1.chunkOf env k ⟨v.st, false, 0, 0, noWork⟩ v.entry v.pa c
    (w, a.2 ++ y)) (w, [])

/-- SPILL_GROUP_SERVE: an accepted group whose rows have all come runs without weights, and the results go back (R269). -/
def spillGroupServeEff (src group : Nat) (env : Env) (s : State) : State :=
  match s.serveOf src group with
  | none => s
  | some v =>
    let e := v.entry
    let rows := (List.range (spCount v.req)).filterMap v.row
    if s.workStopped || !s.ownGroupsDone || rows.length != spCount v.req then s
    else
      let k : DescKey := ⟨0, 0, group⟩
      let (w, ys) := (Doing.start s env).servedRows env k v rows
      match w.halt with
      | .wait => { s with coh := { s.coh with lossWaits := w.s.coh.lossWaits } }
      | .fail _ => w.counted.setServe src group []
      | .go =>
        let s := ys.zipIdx.foldl (fun (s : State) r =>
          let y := wordsRow .bf16 [] false r.1
          (fragments (2 * exH e)).foldl (fun (s : State) c =>
            s.answerSpill v.port v.req 4 r.2 (c.1 / 32) (slice y c.1 c.2)) s) w.counted
        (s.countWrap (Reg.EXD_SERVE_CNT 0) Fld.EXD_SERVE_CNT_served rows.length).setServe src group []

def execSpillGroupServe (src group : Fin 65536) (env : Env) (s : State) : Result := .next (spillGroupServeEff src group env s)

end Sys2Proof.Machine
end

