-- ==== Sys2Proof/Machine/Attention.lean ====
section
/-! DEFINITION. Paged attention: page tables and layer blocks, appends and page summaries, page selection and the attention of a sequence (R278 to R297). -/

namespace Sys2Proof.Machine

open Sys2Proof

/-- A page-table header (Table AT-1). -/
structure PageTable where
  layers : Nat
  hkv : Nat
  d : Nat
  fmt : Fmt
  gamma : Nat
  scale : Nat
  pages : Nat
deriving DecidableEq, Repr

/-- The element formats of a KV cache (R278). -/
def kvFmt (c : Nat) : Option Fmt := if c = 2 || c = 3 || c = 4 || c = 8 then fmtOf c else none

/-- The header that 64 bytes hold; none where a field lies outside Table AT-1 or a reserved byte is not 0. -/
def pageTableOf (b : List Byte) : Option PageTable :=
  let g := of32 (leAt b 6 2 * 65536)
  match kvFmt (leAt b 4 1) with
  | none => none
  | some f =>
    let h : PageTable := ⟨leAt b 0 2, leAt b 2 1, 32 * leAt b 3 1, f, leAt b 6 2 * 65536, leAt b 8 4, leAt b 12 4⟩
    if h.layers == 0 || 256 < h.layers || h.hkv == 0 || 64 < h.hkv || h.d == 0 || 256 < h.d || leAt b 5 1 != 0 || h.pages == 0 ||
        16384 < h.pages || leAt b 16 48 != 0 || !Num.zero.le g || !g.le (.ofNat 1) then none
    else some h

/-- Bytes of a head vector of one position (R278). -/
def PageTable.rk (h : PageTable) : Nat := rowBytes h.fmt h.d

/-- Places in a layer block (Table AT-2). -/
def PageTable.sumAt (h : PageTable) (head : Nat) : Nat := 32 + head * (2 * h.d + 32)
def PageTable.kOff (h : PageTable) : Nat := roundUp 256 (h.sumAt h.hkv)
def PageTable.kAt (h : PageTable) (head i : Nat) : Nat := h.kOff + (head * 64 + i) * h.rk
def PageTable.vOff (h : PageTable) : Nat := h.kOff + h.hkv * 64 * h.rk
def PageTable.vAt (h : PageTable) (head i : Nat) : Nat := h.vOff + (head * 64 + i) * h.rk
def PageTable.blockLen (h : PageTable) : Nat := h.vOff + h.hkv * 64 * h.rk

/-- The FP32 softmax scale (Table AT-1). -/
def PageTable.scale32 (h : PageTable) : Nat := if h.scale = 0 then vec .rsqrt (fofNat h.d) else h.scale

/-- A failure of attention or of an append recorded (R296). -/
def State.attnFault (s : State) (q kind seq : Nat) : State :=
  let s := s.setFld (Reg.ATN_FAULT q) Fld.ATN_FAULT_kind kind
  s.setFld (Reg.ATN_FAULT q) Fld.ATN_FAULT_sequence seq

/-- Work that fails with a recorded kind. -/
def Doing.attnFail (w : Doing) (q kind seq status : Nat) : Doing := { w with s := w.s.attnFault q kind seq, halt := .fail status }

/-- A read at a PA whose tile has been checked. -/
def Doing.plainRead (w : Doing) (env : Env) (k : DescKey) (via : Via) (pa n key : Nat) : Doing × List Byte :=
  if !w.on then (w, [])
  else
    match w.s.poolRead env via [k.q, k.j, k.seq, 30, key] pa n with
    | (s, .held) => ({ w with s := s, halt := .wait }, [])
    | (s, .fail st _) => (Doing.lose { w with s := s } k st, [])
    | (s, .ok x b _) => ({ w with s := s.noteRead k b }, x)

/-- A page table's bytes, read through the line cache (Table CO-1). -/
def Doing.tableRead (w : Doing) (env : Env) (k : DescKey) (requester va n key : Nat) : Doing × List Byte :=
  match w.tile k requester ⟨va, n, 1, 0, false⟩ with
  | (w, none) => (w, [])
  | (w, some e) => w.plainRead env k .lineCache (e.paOf va) n key

/-- Whether a range lies in an enabled pinned slab whose home is a Setting (R280). -/
def State.atHome (s : State) (st pa n : Nat) : Bool :=
  (List.range ((pa + n - 1) / 2 ^ 30 + 1 - pa / 2 ^ 30)).all fun i =>
    let b := pa / 2 ^ 30 + i
    decide (b < s.slabCount) && s.on (slabReg b) Fld.STK_SLAB_enable && s.fld (slabReg b) Fld.STK_SLAB_mode == 0 &&
    s.fld (slabReg b) Fld.STK_SLAB_home == st

/-- The stream decoder of a Setting and the sequence it works for, with the context that its Facets run it in (R290). -/
structure Seq where
  k : DescKey
  st : Nat
  index : Nat
  h : PageTable
  layer : Nat
  feed : Feed
deriving DecidableEq, Repr

/-- A tile of a frame checked, its home with it (R280); its PA where it may be used. -/
def Doing.frameTile (w : Doing) (q : Seq) (va n : Nat) (write : Bool) : Doing × Option Nat :=
  match w.tile q.k (decoderReq q.st) ⟨va, n, 1, 0, write⟩ with
  | (w, none) => (w, none)
  | (w, some e) =>
    if w.s.atHome q.st (e.paOf va) n then (w, some (e.paOf va))
    else (Doing.lose { w with s := w.s.attnFault (q.st / 8) 5 q.index } q.k 0x8004, none)

/-- Bytes of a frame read at the decoder. -/
def Doing.frameRead (w : Doing) (env : Env) (q : Seq) (va n key : Nat) : Doing × List Byte :=
  match w.frameTile q va n false with
  | (w, none) => (w, [])
  | (w, some pa) => w.plainRead env q.k .stack pa n key

/-- Bytes of a frame read at the decoder for its Facets, whose granules are counted (R193, R212). -/
def Doing.frameTake (w : Doing) (env : Env) (q : Seq) (va n key : Nat) : Doing × List Byte :=
  let (w, b) := w.frameRead env q va n key
  (w.note (.granules q.st (granulesOf [(va, n)]).length q.feed.work), b)

/-- Bytes of a frame written by the decoder, through the home (Table CO-1). -/
def Doing.frameWrite (w : Doing) (env : Env) (q : Seq) (va : Nat) (data : List Byte) : Doing :=
  match w.frameTile q va data.length true with
  | (w, none) => w
  | (w, some pa) =>
    match w.s.poolWrite env .home pa data with
    | (s, .held) => { w with s := s, halt := .wait }
    | (s, .fail st _) => Doing.lose { w with s := s } q.k st
    | (s, .ok _ b ids) => { w with s := s.noteWork q.k b ids }

/-- The FP32 words of a head vector in the page format (R176). -/
def PageTable.words (h : PageTable) (row : List Byte) : List Nat := rowWords h.fmt h.d row

/-- A value not negative rounded to FP32 towards +infinity. -/
def up32 : Num → Nat
  | .nan => 0x7FC00000
  | .inf s => bit s * 2 ^ 31 + 0x7F800000
  | .fin s m e =>
    let w := to32 (.fin s m e)
    if (of32 w).lt (.fin s m e) then w + 1 else w

/-- Values not negative summed with every rounding towards +infinity, in no fixed order (R189, R287). -/
def sumUp : Nat → List Nat → Nat
  | 0, xs => xs.getD 0 0
  | fuel + 1, xs =>
    if xs.length ≤ 1 then xs.getD 0 0
    else
      let i := Config.sumPick (2 * fuel) % xs.length
      let rest := xs.eraseIdx i
      let j := Config.sumPick (2 * fuel + 1) % rest.length
      sumUp fuel (up32 ((of32 (xs.getD i 0)).add (of32 (rest.getD j 0))) :: rest.eraseIdx j)

/-- The FP32 square root rounded towards +infinity of a word that is not negative. -/
def sqrtUp (w : Nat) : Nat :=
  match of32 w with
  | .fin false m e =>
    let k := (e % 2).toNat
    let n := m * 2 ^ k * 2 ^ 200
    let r := Nat.sqrt n
    up32 (.fin false (if r * r = n then 2 * r else 2 * r + 1) ((e - k) / 2 - 101))
  | x => to32 x

/-- The norm of a key, which never understates it (R287). -/
def normUp (key : List Nat) : Nat :=
  sqrtUp (sumUp key.length (key.map fun x => up32 ((of32 x).mul (of32 x))))

/-- A mean key rounded to BF16, with its bound (Table AT-2). -/
def summaryBytes (mu : List Nat) (b : Nat) : List Byte := toRow .bf16 [] false (mu.map of32) ++ leBytes 4 b

/-- A key as its mean takes it: a key holding a NaN counts as NaN in every element (R287). -/
def meanKey (key : List Nat) : List Nat :=
  if key.any (fun x => decide (of32 x = .nan)) then key.map fun _ => 0x7FC00000 else key

/-- A summary updated by increment with a new key, c being the written count after it (R287). -/
def summaryAdd (h : PageTable) (old : List Byte) (key : List Nat) (c : Nat) : List Byte :=
  let mu := rowWords .bf16 h.d old
  summaryBytes ((mu.zip (meanKey key)).map fun x => fadd32 x.1 (fdiv32 (fsub32 x.2 x.1) (fofNat c))) (fmax32 (leAt old (2 * h.d) 4) (normUp key))

/-- A summary recomputed from the keys of all written positions, in ascending order (R287). -/
def summaryAll (h : PageTable) (keys : List (List Nat)) : List Byte :=
  let sum := keys.foldl (fun (a : List Nat) k => (a.zip (meanKey k)).map fun x => fadd32 x.1 x.2) (List.replicate h.d 0)
  summaryBytes (sum.map fun x => fdiv32 x (fofNat keys.length)) ((keys.map normUp).foldl fmax32 0)

/-- The written positions of a mask. -/
def writtenIn (mask : Nat) : List Nat := (List.range 64).filter fun i => mask.testBit i

/-- A counter of ATN_CNT2 of the quadrant of a Setting. -/
def State.countAtn (s : State) (st : Nat) (f : Field) (n : Nat) : State := s.countSat (Reg.ATN_CNT2 (st / 8)) f n

/-- K and V rows of a position in a block: head by head. -/
def Doing.putKV (w : Doing) (env : Env) (q : Seq) (block i : Nat) (row : List Byte) : Doing :=
  let rk := q.h.rk
  (List.range q.h.hkv).foldl (fun (w : Doing) head =>
    let w := w.frameWrite env q (block + q.h.kAt head i) (slice row (head * rk) rk)
    w.frameWrite env q (block + q.h.vAt head i) (slice row ((q.h.hkv + head) * rk) rk)) w

/-- One position appended to one layer block: K and V first, then the summaries, and the written bit last (R286 to R288). -/
def Doing.append (w : Doing) (env : Env) (q : Seq) (block i : Nat) (row : List Byte) : Doing :=
  let h := q.h
  let (w, m) := w.frameRead env q block 8 (2 * block)
  let mask := ofLE m
  if !w.on then w
  else if mask.testBit i then
    let (w, old) := (List.range (2 * h.hkv)).foldl (fun (a : Doing × List Byte) n =>
      let (w, x) := a.1.frameRead env q (block + (if n < h.hkv then h.kAt n i else h.vAt (n - h.hkv) i)) h.rk (2 * block + 1)
      (w, a.2 ++ x)) (w, [])
    if !w.on then w
    else if old = row then { w with s := w.s.countAtn q.st Fld.ATN_CNT2_append_noop 1 }
    else
      let w := w.putKV env q block i row
      let w := (List.range h.hkv).foldl (fun (w : Doing) head =>
        let (w, keys) := (writtenIn mask).foldl (fun (a : Doing × List (List Nat)) j =>
          if j = i then (a.1, a.2 ++ [h.words (slice row (head * h.rk) h.rk)])
          else
            let (w, x) := a.1.frameRead env q (block + h.kAt head j) h.rk (2 * block + 1)
            (w, a.2 ++ [h.words x])) (w, [])
        w.next fun w => w.frameWrite env q (block + h.sumAt head) (summaryAll h keys)) w
      w.next fun w => { w with s := w.s.countAtn q.st Fld.ATN_CNT2_recomputed 1 }
  else
    let c := (writtenIn mask).length + 1
    let w := w.putKV env q block i row
    let w := (List.range h.hkv).foldl (fun (w : Doing) head =>
      let (w, old) := w.frameRead env q (block + h.sumAt head) (2 * h.d + 4) (2 * block + 1)
      w.next fun w => w.frameWrite env q (block + h.sumAt head) (summaryAdd h old (h.words (slice row (head * h.rk) h.rk)) c)) w
    w.frameWrite env q block (leBytes 8 (mask + 2 ^ i))

/-- What a page-table entry names: none for 0 (R279). -/
def frameOf (entry : Nat) : Option Nat := if entry = 0 then none else some (addrOf entry)

/-- Whether an entry is an address word in space 0 that starts a frame (R279, R280). -/
def frameBad (entry : Nat) : Bool := entry != 0 && (2 ^ 48 ≤ entry || entry % 256 != 0)

/-- A page table read and checked: its header, and the entries of pages 0 to n − 1 (R279, R285, R296). -/
def Doing.pageTable (w : Doing) (env : Env) (k : DescKey) (requester q seq word : Nat) : Doing × Option PageTable :=
  if !w.on then (w, none)
  else if 2 ^ 48 ≤ word then (w.attnFail q 1 seq 0x8004, none)
  else
    let (w, b) := w.tableRead env k requester word 64 (2 ^ 60 + seq)
    if !w.on then (w, none)
    else
      match pageTableOf b with
      | none => (w.attnFail q 1 seq 0x8004, none)
      | some h => (w, some h)

def Doing.entries (w : Doing) (env : Env) (k : DescKey) (requester seq word first n : Nat) : Doing × List Nat :=
  let (w, b) := w.tableRead env k requester (word + 64 + 8 * first) (8 * n) (2 ^ 61 + seq)
  (w, (List.range n).map fun i => leAt b (8 * i) 8)

/-- How a sequence attends: last position, query heads, pages to select, window, sinks, and exact mode (R291). -/
structure Attend where
  p : Nat
  hq : Nat
  top : Nat
  recent : Nat
  sinks : Nat
  exact : Bool
deriving DecidableEq, Repr

/-- ‖q‖ in FP32, from its squares and the reciprocal square root. -/
def norm32 (x : List Nat) : Nat :=
  let t := fsum (x.map fun v => fmul32 v v)
  if (of32 t).isZero then 0 else fmul32 t (vec .rsqrt t)

/-- The score of a page for a KV head: the largest over the query heads of its group (R292). -/
def pageScore (h : PageTable) (qs : List (List Nat)) (summary : List Byte) : Nat :=
  let mu := rowWords .bf16 h.d summary
  let b := leAt summary (2 * h.d) 4
  let one (q : List Nat) : Nat :=
    fmadd32 4 (fsub32 0x3F800000 h.gamma) (fsum ((q.zip mu).map fun x => fmul32 x.1 x.2)) (fmul32 (fmul32 h.gamma (norm32 q)) b)
  (qs.map one).foldl (fun a x => if rankLt a x then x else a) 0x7FC00000

/-- What a sequence has read of its pages: written masks, and the summaries of candidates, each once. -/
structure Pages' where
  entries : List Nat
  masks : List (Nat × Nat)
  sums : List (Nat × List Byte)
deriving DecidableEq, Repr

/-- The written mask of a page, read once (R297). -/
def Doing.maskOf (w : Doing) (env : Env) (q : Seq) (g : Pages') (page : Nat) : Doing × Pages' × Nat :=
  match g.masks.find? (·.1 == page) with
  | some x => (w, g, x.2)
  | none =>
    let (w, b) := w.frameTake env q (addrOf (g.entries.getD page 0) + q.layer * q.h.blockLen) 8 (4 * page)
    (w, { g with masks := g.masks ++ [(page, ofLE b)] }, ofLE b)

/-- The header and summaries of a candidate, read once (R291). -/
def Doing.sumsOf (w : Doing) (env : Env) (q : Seq) (g : Pages') (page : Nat) : Doing × Pages' × List Byte :=
  match g.sums.find? (·.1 == page) with
  | some x => (w, g, x.2)
  | none =>
    let (w, b) := w.frameTake env q (addrOf (g.entries.getD page 0) + q.layer * q.h.blockLen) (q.h.sumAt q.h.hkv) (4 * page + 1)
    (w, { g with sums := g.sums ++ [(page, b)] }, b)

/-- Included positions of a page for a last position (R282). -/
def included (mask page p : Nat) : List Nat := (writtenIn mask).filter fun i => decide (64 * page + i ≤ p)

/-- A selection in progress for one KV head: the work, what has been read, and the pages skipped for a 0 entry. -/
structure Picking where
  w : Doing
  g : Pages'
  missing : Nat
  cands : List Nat
  scores : List Nat

/-- The pages of one KV head in ascending order, with the counts of R291 (Table AT-5). -/
def Doing.select (w : Doing) (env : Env) (q : Seq) (a : Attend) (exactPages : Nat) (g : Pages') (head : Nat) (qs : List (List Nat)) :
    Doing × Pages' × List Nat :=
  let c := a.p / 64
  let has (n : Nat) : Bool := g.entries.getD n 0 != 0
  if a.exact || c + 1 ≤ exactPages then (w, g, (List.range (c + 1)).filter has)
  else
    let fixed (n : Nat) : Bool := n == c || decide (c - a.recent ≤ n) || decide (n < min a.sinks c)
    let rest := (List.range c).filter fun n => !fixed n
    let x := rest.foldl (fun (x : Picking) n =>
      if !x.w.on then x
      else if !has n then { x with missing := x.missing + 1 }
      else
        let (w, g, b) := x.w.sumsOf env q x.g n
        if (included (leAt b 0 8) n a.p).isEmpty then { x with w := w, g := g }
        else { x with w := w, g := g, cands := x.cands ++ [n], scores := x.scores ++ [pageScore q.h qs (slice b (q.h.sumAt head) (2 * q.h.d + 4))] })
      ⟨w, g, ((List.range (c + 1)).filter fun n => fixed n && !has n).length, [], []⟩
    let picked := ((ranked x.scores).take a.top).map fun i => x.cands.getD i 0
    let w := x.w.next fun w =>
      let s := w.s.countWrap (Reg.ATN_CNT (q.st / 8)) Fld.ATN_CNT_pages_scored x.cands.length
      { w with s := s.countAtn q.st Fld.ATN_CNT2_missing x.missing }
    (w, x.g, (List.range (c + 1)).filter fun n => (fixed n && has n) || picked.contains n)

/-- The running attention of one query head (R293). -/
structure Soft where
  m : Nat
  l : Nat
  acc : List Nat
deriving DecidableEq, Repr

/-- The scale byte and elements of block b of a stored head vector; an unscaled element takes the scale 1 (R293). -/
def PageTable.block (h : PageTable) (row : List Byte) (b : Nat) : Nat × List Num := actBlock h.fmt h.d row b

/-- A stored element as a value. -/
def PageTable.value (h : PageTable) (row : List Byte) (c : Nat) : Num :=
  let x := ofElem h.fmt (unpackAt (fmtBits h.fmt) row c)
  if fmtScaled h.fmt then scaled (row.getD (h.d * fmtBits h.fmt / 8 + c / 32) 0).toNat x else x

/-- A tile folded into the attention of a query head: its rows, with the key and value of each included position (R293); a value that is not finite makes the accumulator NaN (R186). -/
def Soft.tile (a : Soft) (h : PageTable) (q : List Byte) (rows : List (Option (List Byte × List Byte))) : Soft :=
  let dot (k : List Byte) : Nat := (List.range (h.d / 32)).foldl (fun acc b =>
    let (ks, ke) := h.block k b
    let (sb, qe) := actBlock .e4m3s h.d q b
    blockMac acc ks (ke.map some) sb qe) 0
  let s : List (Option Nat) := rows.map fun r => r.map fun x => fmul32 h.scale32 (dot x.1)
  let m' := (s.filterMap id).foldl fmax32 a.m
  let f := if a.m = 0xFF800000 then 0 else vec .exp (fsub32 a.m m')
  let p := s.map fun x => match x with
    | some v => of32 (vec .exp (fsub32 v m'))
    | none => Num.zero
  let pq := ofRow .e4m3s p.length (toRow .e4m3s [] false p)
  let l := fmadd32 3 a.l f (fsum (pq.map to32))
  let acc := a.acc.zipIdx.map fun c =>
    (List.range (p.length / 32)).foldl (fun acc b =>
      let terms := ((rows.zip pq).drop (32 * b)).take 32
      let met := terms.filterMap fun t => t.1.map fun x => (t.2, h.value x.2 c.2)
      if met.any fun t => !t.1.isFin || !t.2.isFin then 0x7FC00000
      else to32 ((of32 acc).add (sumNum (met.map fun t => t.1.mul t.2)))) (fmul32 c.1 f)
  ⟨m', l, acc⟩

/-- The K or V rows of some positions of a page, as one tile through a slot of the ring of the head's Facet (R193, R290). DESIGN CHOICE: the rows stand one after the other in the slot (assumption 87). -/
def Doing.kvTile (w : Doing) (env : Env) (q : Seq) (head slot key : Nat) (at' : List Nat) : Doing × List (List Byte) :=
  let ranges := at'.map fun a => (a, q.h.rk)
  let (w, tile) := w.gather ranges fun w a => w.frameRead env q a 256 key
  let w := w.note (.granules q.st (granulesOf ranges).length q.feed.work)
  let (w, tile) := w.throughRing q.st (head % 8) q.feed.ring slot tile
  (w, (List.range at'.length).map fun i => slice tile (i * q.h.rk) q.h.rk)

/-- The two passes of a tile over the query heads of a group, up to 32 at a time, in the 8-bit rate class (R198, R293). DEDUCED: each issues a product for every element read and every query head (assumption 88). -/
def Doing.kvPasses (w : Doing) (q : Seq) (head rows heads : Nat) : Doing :=
  (List.range (cdiv heads 32)).foldl (fun (w : Doing) c =>
    let p : Tally := .pass q.st (head % 8) q.feed.fill q.feed.work (rows * q.h.d * min 32 (heads - 32 * c)) (classRate 1) 0
    (w.note p).note p) w

/-- The folding of the pages of one KV head: the work, what has been read, the query heads, the pages of which a row was read, and the tiles taken. -/
structure Folding where
  w : Doing
  g : Pages'
  soft : List Soft
  read : Nat
  tiles : Nat

/-- One tile of a page folded: the K and V rows of its included positions (R290, R293). A tile without one is not read. -/
def Folding.tile (x : Folding) (env : Env) (q : Seq) (head page block first size : Nat) (take : List Nat) (qs : List (List Byte)) : Folding :=
  let mine := take.filter fun i => first ≤ i && i < first + size
  if mine.isEmpty || !x.w.on then x
  else
    let slots := max 1 q.feed.slots
    let (w, ks) := x.w.kvTile env q head (x.tiles % slots) (4 * page + 2) (mine.map fun i => block + q.h.kAt head i)
    let (w, vs) := w.kvTile env q head ((x.tiles + 1) % slots) (4 * page + 3) (mine.map fun i => block + q.h.vAt head i)
    let w := w.kvPasses q head mine.length qs.length
    let rows := (List.range size).map fun i => (mine.idxOf? (first + i)).map fun n => (ks.getD n [], vs.getD n [])
    { x with w := w, tiles := x.tiles + 2, soft := if w.on then (qs.zip x.soft).map fun c => c.2.tile q.h c.1 rows else x.soft }

/-- The pages of one KV head folded in ascending order, a tile at a time, into each query head of its group (R290, R293). -/
def Doing.headPages (w : Doing) (env : Env) (q : Seq) (p : Nat) (g : Pages') (head : Nat) (qs : List (List Byte)) (pages : List Nat) : Folding :=
  let h := q.h
  let size := if 64 * h.rk ≤ 9216 then 64 else 32
  pages.foldl (fun (x : Folding) page =>
    let (w, g, mask) := x.w.maskOf env q x.g page
    let block := addrOf (g.entries.getD page 0) + q.layer * h.blockLen
    let take := included mask page p
    (List.range (64 / size)).foldl (fun (y : Folding) t => y.tile env q head page block (t * size) size take qs)
      { x with w := w, g := g, read := if take.isEmpty then x.read else x.read + 1 })
    ⟨w, g, qs.map (fun _ => ⟨0xFF800000, 0, List.replicate h.d 0⟩), 0, 0⟩

/-- The attention of a sequence over its query row: the output row in FP32 and the pages read, per KV head (R290 to R294). -/
def Doing.attend (w : Doing) (env : Env) (q : Seq) (a : Attend) (entries : List Nat) (row : List Nat) : Doing × List Nat × Nat :=
  let h := q.h
  let group := a.hq / h.hkv
  let ep := w.s.fld (Reg.ATN_CTL (q.st / 8)) Fld.ATN_CTL_exact_pages
  let (w, _, out, pages) := (List.range h.hkv).foldl (fun (x : Doing × Pages' × List Nat × Nat) head =>
    let qs := (List.range group).map fun j => (row.drop ((head * group + j) * h.d)).take h.d
    let (w, g, sel) := x.1.select env q a ep x.2.1 head qs
    let f := w.headPages env q a.p g head (qs.map fun v => toRow .e4m3s [] false (v.map of32)) sel
    let empty := if f.read = 0 then group else 0
    let w := f.w.next fun w => { w with s := (w.s.countAtn q.st Fld.ATN_CNT2_empty empty).useVector (q.st * 8 + head % 8) }
    let o := f.soft.flatMap fun r => r.acc.map fun v => if (of32 r.l).isZero then 0 else fdiv32 v r.l
    (w, f.g, x.2.2.1 ++ o, x.2.2.2 + f.read)) (w, ⟨entries, [], []⟩, [], 0)
  (w.next fun w => { w with s := w.s.countWrap (Reg.ATN_CNT (q.st / 8)) Fld.ATN_CNT_pages_read pages }, out, pages)

/-- What the work of a descriptor of attention has come to where it waits: what it has asked for stays, and its counts are taken back. -/
def State.attnWait (s w : State) : State :=
  (List.range 4).foldl (fun (t : State) q =>
    (t.setReg (Reg.ATN_CNT q) (s.reg (Reg.ATN_CNT q))).setReg (Reg.ATN_CNT2 q) (s.reg (Reg.ATN_CNT2 q))) (s.backOff w)

/-- The header, layer and page entries of a KV_APPEND (R285): none where it has failed or waits. -/
def Doing.appendPlan (w : Doing) (env : Env) (d : Desc) : Doing × Option (PageTable × List Nat) :=
  let q := d.key.q.val
  let req := 256 + q
  let (first, n) := (d.u 24 4, d.u 28 2)
  let (w, h) := w.pageTable env d.key req q 0 (d.u 8 8)
  match h with
  | none => (w, none)
  | some h =>
    if (d.u 4 2 != 0xFFFF && h.layers ≤ d.u 4 2) || 2 ^ 20 < first + n || 64 * h.pages < first + n then (w.attnFail q 3 0 0x8004, none)
    else
      let p0 := first / 64
      let (w, es) := w.entries env d.key req 0 (d.u 8 8) p0 ((first + n - 1) / 64 + 1 - p0)
      if !w.on then (w, none)
      else if es.contains 0 then (w.attnFail q 4 0 0x8004, none)
      else if es.any frameBad then (w.attnFail q 5 0 0x8004, none)
      else (w, some (h, es))

/-- The home of a frame that an append writes: the home of the slab in which its first byte lies (R280, R284). -/
def Doing.frameHome (w : Doing) (k : DescKey) (va : Nat) : Nat :=
  match (w.s.desc k).bind fun d => segOf d.snap va with
  | some e => w.s.fld (slabReg (e.paOf va / 2 ^ 30)) Fld.STK_SLAB_home % 32
  | none => 0

/-- The rows of a KV_APPEND from the one it has come to (R284): layer by layer, and position by position. -/
def Doing.appendRows (w : Doing) (env : Env) (d : Desc) (h : PageTable) (es : List Nat) : Doing :=
  let (first, n) := (d.u 24 4, d.u 28 2)
  let layers := if d.u 4 2 = 0xFFFF then List.range h.layers else [d.u 4 2]
  let len := 2 * h.hkv * h.rk
  (List.range (layers.length * n)).foldl (fun (w : Doing) x =>
    if x < d.progress || !w.on then w
    else
      let layer := layers.getD (x / n) 0
      let pos := first + x % n
      let frame := addrOf (es.getD (pos / 64 - first / 64) 0)
      let block := frame + layer * h.blockLen
      let st := w.frameHome d.key frame
      let q : Seq := ⟨d.key, st, 0, h, layer, ⟨st, false, 0, 0, d.work⟩⟩
      let was := ((w.s.desc d.key).map Desc.delivered).getD false
      let (w, row) := w.fetch env d.key (decoderReq q.st) .home (spaceOf (d.u 16 8)) (addrOf (d.u 16 8) + x * len) len (2 * x)
      let w : Doing := { w with s := match w.s.desc d.key with
        | some y => w.s.setDesc { y with delivered := was }
        | none => w.s }
      let back := w.s
      let w := w.next fun w => w.append env q block (pos % 64) row
      match w.halt with
      | .go =>
        { w with s := match w.s.desc d.key with
          | some y => w.s.setDesc { y with progress := x + 1, written := y.written + len }
          | none => w.s }
      | .wait => { w with s := back.attnWait w.s }
      | .fail _ => w) w

/-- The header of a page table as it stands when a descriptor issues, by the descriptor's snapshot; none where there is none within Table AT-1. -/
def State.headerAtIssue (s : State) (d : Desc) (word : Nat) : Option PageTable :=
  if 2 ^ 48 ≤ word then none else (segOf d.snap word).bind fun e => pageTableOf (s.glance (e.paOf word) 64)

/-- The source range of a KV_APPEND (R106, R284). DEDUCED: the header as it stands at issue gives its length, and where there is none no source range is checked (assumption 89). -/
def State.appendRanges (s : State) (d : Desc) : List (List Tile) :=
  match s.headerAtIssue d (d.u 8 8) with
  | none => []
  | some h =>
    let layers := if d.u 4 2 = 0xFFFF then h.layers else 1
    if spaceOf (d.u 16 8) = 0 then [[⟨addrOf (d.u 16 8), layers * d.u 28 2 * 2 * h.hkv * h.rk, 1, 0, false⟩]] else []

/-- KV_APPEND: a descriptor that issues has its source range checked (R106); a started one writes K and V rows and updates the page summaries, position by position and layer by layer (R284 to R288). -/
def kvAppendEff (k : DescKey) (env : Env) (s : State) : State :=
  match s.issuingOf k 0x13, s.jobOf k 0x13 with
  | some d, _ => s.endIssue d (s.appendRanges d) 0 []
  | none, none => s
  | none, some d =>
    let (w, plan) := (Doing.start s env).appendPlan env d
    let w := match plan with
      | some (h, es) => w.appendRows env d h es
      | none => w
    match w.halt, w.s.desc k with
    | .wait, _ => w.s
    | _, none => w.s
    | .fail st, some d => if d.phase == .ended then w.s else w.s.endDesc d st 0 d.written
    | .go, some d => w.s.endDesc d 0 (d.u 28 2) 0

def execKvAppend (k : DescKey) (env : Env) (s : State) : Result := .next (kvAppendEff k env s)

/-- An entry of a sequence list (Table AT-4). -/
def seqN (l : List Byte) (n i len : Nat) : Nat := leAt l (32 * n + i) len
def seqHome (l : List Byte) (n : Nat) : Nat := seqN l n 16 1 % 32

/-- The number of sequences of an ATTN_STEP. -/
def Desc.seqCount (d : Desc) : Nat := d.u 24 4

/-- The sequence list of an ATTN_STEP, as its issue read it. -/
def Desc.seqList (d : Desc) : List Byte := (d.pieces.getD 0 (0, [])).2

/-- The home Settings of a sequence list. -/
def seqHomes (l : List Byte) (n : Nat) : List Nat := ((List.range n).map (seqHome l)).eraseDups

/-- The query and output ranges of an ATTN_STEP (R106, R289). DEDUCED: the headers as they stand at issue give the lengths of its rows, and an entry whose header is none names no row (assumption 89). -/
def State.stepRanges (s : State) (d : Desc) (l : List Byte) : List (List Tile) :=
  let rows (word : Nat) (write : Bool) : List (List Tile) :=
    if spaceOf word != 0 then []
    else
      [(List.range d.seqCount).filterMap fun n => (s.headerAtIssue d (seqN l n 0 8)).map fun h =>
        let len := 4 * seqN l n 14 2 * h.d
        ⟨addrOf word + n * len, len, 1, 0, write⟩]
  rows (d.u 8 8) false ++ rows (d.u 40 8) true

/-- ATTN_STEP as it issues: its sequence list is read and its ranges are checked, and a home Setting with a Facet that owns no bank ends it with 0x8004 (R106, R289, R295). -/
def State.stepIssue (s : State) (env : Env) (d : Desc) : State :=
  let (w, l) := (Doing.start s env).fetch env d.key (256 + d.key.q.val) .lineCache (spaceOf (d.u 16 8)) (addrOf (d.u 16 8)) (32 * d.seqCount) 0
  match w.halt, w.s.desc d.key with
  | .wait, _ => w.s
  | _, none => w.s
  | .fail st, some d => if d.phase == .ended then w.s else w.s.endDesc d st 0 0
  | .go, some d =>
    let none' := (seqHomes l d.seqCount).any fun st => (List.range 8).any fun f => (w.s.ownedBanks st f).isEmpty
    w.s.endIssue d (w.s.stepRanges d l) (if none' then 0x8004 else 0) [(0, l)]

/-- ATTN_STEP: a descriptor that issues has its list read and its ranges checked; a started one runs on the home Settings that its list names, and what stood in the windows there is overwritten (R106, R289, R295). -/
def attnStepEff (k : DescKey) (env : Env) (s : State) : State :=
  match s.issuingOf k 0x12, s.jobOf k 0x12 with
  | some d, _ => s.stepIssue env d
  | none, none => s
  | none, some d =>
    if s.attn.isSome then s
    else
      let w := (seqHomes d.seqList d.seqCount).foldl (fun (w : Doing) st =>
        (List.range 8).foldl (fun (w : Doing) f => w.scribble st f 0 139264) w) (Doing.start s env)
      match w.halt, w.s.desc k with
      | .go, some _ => { w.s with attn := some ⟨k, d.seqList, [], 0, 0⟩ }
      | .fail st, some d => w.s.endDesc d st 0 0
      | _, _ => s.attnWait w.s

def execAttnStep (k : DescKey) (env : Env) (s : State) : Result := .next (attnStepEff k env s)

/-- A sequence of an ATTN_STEP: its output row is written, and the pages it read are counted (R289 to R296). -/
def Doing.sequence (w : Doing) (env : Env) (d : Desc) (l : List Byte) (n : Nat) : Doing × Nat × Nat :=
  let st := seqHome l n
  let q := st / 8
  let (p, layer, hq) := (seqN l n 8 4, seqN l n 12 2, seqN l n 14 2)
  let (w, h) := w.pageTable env d.key (decoderReq st) q n (seqN l n 0 8)
  match h with
  | none => (w, 0, 0)
  | some h =>
    if hq = 0 || 256 < hq || hq % h.hkv != 0 then (w.attnFail q 2 n 0x8004, 0, 0)
    else if h.layers ≤ layer || 64 * h.pages ≤ p || 2 ^ 20 ≤ p || seqN l n 16 1 / 32 != 0 || seqN l n 17 15 != 0 then
      (w.attnFail q 3 n 0x8004, 0, 0)
    else
      let (w, es) := w.entries env d.key (decoderReq st) n (seqN l n 0 8) 0 (p / 64 + 1)
      let w := if w.on && es.any frameBad then w.attnFail q 5 n 0x8004 else w
      let len := 4 * hq * h.d
      let was := ((w.s.desc d.key).map Desc.delivered).getD false
      let (w, row) := w.fetch env d.key (moverReq st d.order) .home (spaceOf (d.u 8 8)) (addrOf (d.u 8 8) + n * len) len ((n + 1) * 2 ^ 20)
      let w : Doing := { w with s := match w.s.desc d.key with
        | some y => w.s.setDesc { y with delivered := was }
        | none => w.s }
      let w := (List.range 8).foldl (fun (w : Doing) f => w.scribble st f 2304 65536) w
      let (w, out, pages) := w.attend env ⟨d.key, st, n, h, layer, ⟨st, false, 0, 8, d.work⟩⟩
        ⟨p, hq, d.u 28 2, d.u 30 1, d.u 31 1, d.u 32 1 == 1⟩ es (rowWords .fp32 (hq * h.d) row)
      (w.store env d.key (moverReq st d.order) (spaceOf (d.u 40 8)) (addrOf (d.u 40 8) + n * len) (out.flatMap (leBytes 4)) 0, pages, len)

/-- ATTN_SEQUENCE_END: sequence n, the next of its home Setting, finishes and its output row is written; the last one ends the descriptor, and a failure ends it at once (R295, R296). -/
def attnSequenceEndEff (n : Nat) (env : Env) (s : State) : State :=
  match s.attn with
  | none => s
  | some a =>
    match s.jobOf a.key 0x12 with
    | none => s
    | some d =>
      if d.seqCount ≤ n || a.finished.contains n || s.workStopped ||
          ((List.range n).any fun i => seqHome a.list i == seqHome a.list n && !a.finished.contains i) then s
      else
        let (w, pages, len) := (Doing.start s env).sequence env d a.list n
        match w.halt, w.s.desc a.key with
        | .wait, _ => s.attnWait w.s
        | _, none => w.s
        | .fail st, some d =>
          let s := { w.counted with attn := none }
          if d.phase == .ended then s else s.endDesc d st 0 a.bytes
        | .go, some d =>
          let w : Doing := { w with s := w.counted.observe 6 a.key.q 0x1C2 pages d.work (leBytes 2 n ++ leBytes 4 pages) }
          let a := { a with finished := a.finished ++ [n], bytes := a.bytes + len, pages := a.pages + pages }
          if a.finished.length = d.seqCount then State.endDesc { w.s with attn := none } d 0 a.pages 0 else { w.s with attn := some a }

def execAttnSequenceEnd (n : Fin 4096) (env : Env) (s : State) : Result := .next (attnSequenceEndEff n env s)

/-- New K and V in FP32 as rows of the page format: the heads' keys, then their values (R175, R234). -/
def kvRow (h : PageTable) (x : List Nat) : List Byte :=
  (List.range (2 * h.hkv)).flatMap fun j => toRow h.fmt [] false (((x.drop (j * h.d)).take h.d).map of32)

/-- The attention step of one batch entry, appending first when asked (R234, R288 to R296). -/
def Doing.attnRow (w : Doing) (env : Env) (r : Run) (i : Inst) (d : Desc) (b : Nat) : Doing :=
  let o := r.opOf i
  let rc := r.recipe
  let st := homeSt r.block b
  let q := st / 8
  let p := batchAt r.block b 8 4
  let table := batchAt r.block b 0 8
  let hd := 8 * o.p 13 1
  let qw := (rc.slot o.src0).width
  let kw := (rc.slot o.src1).width
  let (w, h) := w.pageTable env d.key (decoderReq st) q b table
  match h with
  | none => w
  | some h =>
    if h.d != hd || qw % hd != 0 || kw != 2 * hd * h.hkv || qw / hd % h.hkv != 0 then w.attnFail q 2 b 0x8004
    else if h.layers ≤ i.layer || 64 * h.pages ≤ p || 2 ^ 20 ≤ p then w.attnFail q 3 b 0x8004
    else
      let (w, es) := w.entries env d.key (decoderReq st) b table 0 (p / 64 + 1)
      let w := if w.on && es.any frameBad then w.attnFail q 5 b 0x8004 else w
      let work := instWork d o i.layer
      let feed : Feed := if o.fill then ⟨st, true, rc.fillRing, rc.fillSlots, work⟩ else ⟨st, false, rc.primRing, rc.primSlots, work⟩
      let sq : Seq := ⟨d.key, st, b, h, i.layer, feed⟩
      let w := if !(o.p 12 1).testBit 1 then w
        else
          let (w, kv) := w.rowIn r.block (rc.slot o.src1) b
          let e := es.getD (p / 64) 0
          if w.on && e = 0 then w.attnFail q 4 b 0x8004
          else w.next fun w => w.append env sq (addrOf e + i.layer * h.blockLen) (p % 64) (kvRow h kv)
      let (w, row) := w.rowIn r.block (rc.slot o.src0) b
      let (w, out, pages) := w.attend env sq ⟨p, qw / hd, o.p 8 2, o.p 10 1, o.p 11 1, (o.p 12 1).testBit 0⟩ es row
      (w.rowOut r i d b out).next fun w =>
        { w with s := w.s.observe 6 d.key.q 0x1C2 pages work (leBytes 2 b ++ leBytes 4 pages) }

/-- ATTN: the attention step for every batch entry, appending first when asked (R234, R288 to R296). -/
def attnEff (n : Nat) (env : Env) (s : State) : State :=
  s.byRows n 0x0C env fun r i d b w =>
    let w' := w.attnRow env r i d b
    if w'.halt = .wait then { w' with s := w.s.attnWait w'.s, tally := w.tally } else w'

def execAttn (n : Nat) (env : Env) (s : State) : Result := .next (attnEff n env s)

end Sys2Proof.Machine
end

