-- ==== Sys2Proof/Machine/Links.lean ====
section
/-! DEFINITION. Quagen links: frames, acknowledgement and replay, credits, the error window, prongs and lane sparing, link states, sessions, and the measurement of time (chapter 15). -/

namespace Sys2Proof.Machine

open Sys2Proof

/-- The link states of Table LK-7 by name. -/
def lsDisabled : Nat := 0
def lsTraining : Nat := 1
def lsAlign : Nat := 2
def lsParam : Nat := 3
def lsSyntonise : Nat := 4
def lsOffset : Nat := 5
def lsActive : Nat := 6
def lsPause : Nat := 7
def lsRetrain : Nat := 8
def lsDown : Nat := 9

/-- Whether link n is the node's time source. -/
def State.timeSource (s : State) (n : Nat) : Bool := s.on (Reg.LNK_TIME_CFG n) Fld.LNK_TIME_CFG_source

/-- The prong that this end sends on a link (Table LK-5). -/
def State.prongOf (s : State) (n : Nat) (cmd : ProngCmd) (lane : Nat) : Prong :=
  ⟨cmd, lane, (s.link n).expect, s.node, s.session, true⟩

/-- The role of a lane: 0 failed, 1 active, 2 spare, 3 training. -/
def State.laneRole (s : State) (n m : Nat) : Nat := s.fld (Reg.LNK_LANE n m) Fld.LNK_LANE_role

/-- The role of a lane set. -/
def State.setLane (s : State) (n m role : Nat) : State := s.setFld (Reg.LNK_LANE n m) Fld.LNK_LANE_role role

/-- Whether a link is held electrically idle: start-up or power says so, or its quadrant is lost (R24, R47, R488). -/
def State.linkIdle (s : State) (n : Nat) : Bool := s.boot.idle || s.events.lostQuads.contains (n / 8)

/-- A prong sent on every lane of a link that has not failed; electrically idle links send nothing (R24, R47). -/
def State.sendProngs (s : State) (n : Nat) (cmd : ProngCmd) (lane : Nat) : State :=
  if s.linkIdle n then s
  else
    ((List.range 3).filter fun m => s.laneRole n m != 0).foldl (fun s m => s.emit (.prong n m (s.prongOf n cmd lane))) s

/-- A frozen machine's record of the links that lost data (R474): a link that was running when it stopped. -/
def State.markLost (s : State) (n : Nat) : State :=
  if s.stopped && s.loupe.stopLinks.contains n && !s.loupe.lostLinks.contains n then
    { s with loupe := { s.loupe with lostLinks := n :: s.loupe.lostLinks } }
  else s

/-- What a link does on leaving ACTIVE: a stopped link is lost to the resume, and the source link leaves the TIME PLL in holdover (R366, R474). -/
def State.leaveActive (s : State) (n : Nat) : State :=
  let s := s.markLost n
  if s.timeSource n then s.setFld Reg.CLK_STATUS Fld.CLK_STATUS_holdover 1 else s

/-- A link enters a state: NT is noted, LNK_STATUS.state set, and the change observed and raised (R363). -/
def State.enterState (s : State) (n new : Nat) : State :=
  let old := s.linkState n
  let s := s.setFld (Reg.LNK_STATUS n) Fld.LNK_STATUS_state new
  let s := s.setLink n { s.link n with since := s.nt }
  let s := if old = lsActive && new != lsActive then s.leaveActive n else s
  if old = new then s else s.linkEvent n old new 0

/-- The error window of a link cleared (R357). -/
def State.clearWindow (s : State) (n : Nat) : State :=
  (s.setLink n { s.link n with window := List.replicate 16 0, slots := 0 }).setFld (Reg.LNK_CNT3 n) Fld.LNK_CNT3_window 0

/-- A link enters ACTIVE, with its error window cleared (R357); the TIME PLL tracks the source link again (R366). -/
def State.enterActive (s : State) (n : Nat) : State :=
  let s := (s.enterState n lsActive).clearWindow n
  let s := if s.timeSource n then s.setFld Reg.CLK_STATUS Fld.CLK_STATUS_holdover 0 else s
  s.setLink n { s.link n with resumeSent := false, resumeGot := none, swap := none, ackNt := s.nt }

/-- A link goes DOWN, counted; from ACTIVE it sends DOWN prongs (Table LK-7). -/
def State.goDown (s : State) (n : Nat) : State :=
  let s := if s.linkState n = lsActive then s.sendProngs n .down 0 else s
  let s := (s.enterState n lsDown).countSat (Reg.LNK_CNT2 n) Fld.LNK_CNT2_downs 1
  s.setLink n { s.link n with swap := none, laneFaults := [], fails := [], resumeSent := false, resumeGot := none, replayAt := none }

/-- A lane whose swap a retrain cuts short before its slot moved has failed still, and is handled after RESUME (R360, R361). -/
def State.putOffSwap (s : State) (n : Nat) : State :=
  match (s.link n).swap with
  | some w =>
    if w.moved then s
    else
      let l := s.link n
      (s.setLane n w.lane 1).setLink n { l with swap := none, laneFaults := l.laneFaults ++ [w.lane] }
  | none => s

/-- A retrain starts, counted, with RETRAIN prongs (R358). -/
def State.startRetrain (s : State) (n : Nat) : State :=
  let s := s.putOffSwap n
  let s := (s.enterState n lsRetrain).countSat (Reg.LNK_CNT2 n) Fld.LNK_CNT2_retrains 1
  let s := s.setLink n { s.link n with resumeSent := false, resumeGot := none, replayAt := none }
  s.sendProngs n .retrain 0

/-- A retrain fails: the third failure within 1 s takes the link DOWN, another starts it again at once (R358). -/
def State.failRetrain (s : State) (n : Nat) : State :=
  let l := s.link n
  let fails := s.nt :: l.fails.filter fun t => decide (s.nt < t + 1000000000)
  let s := s.setLink n { l with fails := fails }
  if 3 ≤ fails.length then s.goDown n else s.startRetrain n

/-- Training begins on the link's lanes, but for those that failed analogue calibration (Table LK-7, Table SU-2). -/
def State.startTraining (s : State) (n : Nat) : State :=
  let s := (List.range 3).foldl (fun s m => s.setLane n m (if s.boot.laneFailed.contains (n, m) then 0 else 3)) s
  let s := s.enterState n lsTraining
  s.sendProngs n .train 0

/-- Frames sent and not acknowledged. -/
def Link.outstanding (l : Link) : Nat := (l.next + 4096 - l.ackBase) % 4096

/-- A replay starts from a buffered frame, counted and observed (R353); `timeout` tells a timeout from a NAK. -/
def State.startReplay (s : State) (n start : Nat) (timeout : Bool) : State :=
  let l := s.link n
  if (start + 4096 - l.ackBase) % 4096 < l.outstanding then
    let s := s.setLink n { l with replayAt := some start, ackNt := s.nt }
    let s := s.countSat (Reg.LNK_CNT1 n) Fld.LNK_CNT1_replays 1
    s.observe 8 n 0x202 1 noWork (leBytes 2 start ++ [BitVec.ofNat 8 (bit timeout)])
  else s

/-- An ack value taken: every frame below it is acknowledged when it lies within the frames outstanding (R351). -/
def State.takeAck (s : State) (n a : Nat) : State :=
  let l := s.link n
  let k := (a + 4096 - l.ackBase) % 4096
  if k = 0 || l.outstanding < k then s
  else
    let at' := l.replayAt.bind fun r =>
      if (r + 4096 - l.ackBase) % 4096 < k then (if k < l.outstanding then some a else none) else some r
    s.setLink n { l with ackBase := a, replay := l.replay.drop k, ackNt := s.nt, replayAt := at' }

/-- A credit counter taken for a virtual channel (R355). -/
def State.takeCredit (s : State) (n vc counter : Nat) : State :=
  let l := s.link n
  let k := (counter + 4096 - l.seen.getD vc 0) % 4096
  (s.setLink n { l with seen := l.seen.set vc counter }).setFld (Reg.LNK_VC n vc) Fld.LNK_VC_credits
    (s.fld (Reg.LNK_VC n vc) Fld.LNK_VC_credits + k)

/-- The ack, nak and credit fields of a frame taken (R347, R349, R351, R353). A NAK whose ack is stale is ignored with it. -/
def State.takeFields (s : State) (n : Nat) (f : Frame) : State :=
  let l := s.link n
  let valid := (f.ack + 4096 - l.ackBase) % 4096 ≤ l.outstanding
  let s := (s.takeAck n f.ack).takeCredit n (f.cvc % 8) (f.credit % 4096)
  if f.nak && valid then s.startReplay n f.ack false else s

/-- A frame with the fields that every frame carries: the current ack, a NAK that is due, and the next credit counter (R347, R352). -/
def State.dress (s : State) (n : Nat) (f : Frame) : Frame :=
  let l := s.link n
  sealFrame { f with ack := l.expect, nak := l.nakDue, cvc := l.cvc, credit := l.freed.getD l.cvc 0 }

/-- A frame sent on a link: the credit rotation moves on, and a NAK that was due is now outstanding and counted (R352). -/
def State.sendFrame (s : State) (n : Nat) (f : Frame) : State :=
  let l := s.link n
  let s := s.emit (.frame n (s.dress n f))
  let s := s.setLink n { l with
    cvc := (l.cvc + 1) % 8, nakDue := false, nak := l.nak || l.nakDue, nakNt := if l.nakDue then s.nt else l.nakNt }
  if l.nakDue then s.countSat (Reg.LNK_CNT1 n) Fld.LNK_CNT1_naks 1 else s

/-- A CTRL frame of a type with its payload (Table LK-2). -/
def ctrlFrame (ctype : Nat) (payload : List Byte) : Frame :=
  { seq := 0, vc := 0, ctrl := true, ack := 0, nak := false, cvc := 0, credit := 0, fill := payload.length, ctype := ctype
    payload := padTo 244 payload, crc := 0, bad := false }

/-- One slot of the error window passes (R357). -/
def State.tickWindow (s : State) (n : Nat) : State :=
  let l := s.link n
  if l.slots + 1 < 65536 then s.setLink n { l with slots := l.slots + 1 }
  else
    let w := 0 :: l.window.take 15
    (s.setLink n { l with slots := 0, window := w }).setFld (Reg.LNK_CNT3 n) Fld.LNK_CNT3_window (w.foldl (· + ·) 0)

/-- The tail of a packet has left on a link: an overrun of its window is counted (R404). -/
def State.endPacket (s : State) (n : Nat) (p : InPkt) : State :=
  let s := s.setLink n { s.link n with tx := none }
  match p.closeNt with
  | some c => if c < s.nt * 100 + 512 then s.countSat (Reg.TSC_CNT n) Fld.TSC_CNT_overrun 1 else s
  | none => s

/-- A new DATA frame of the packet that a link is sending, when bytes have arrived and credits and the replay buffer allow it (R348, R351, R354). The Boolean is false where no frame went. -/
def State.sendData (s : State) (n key : Nat) : State × Bool :=
  match s.inq key with
  | [] => (s, false)
  | p :: rest =>
    let l := s.link n
    let k := min 244 (p.got.length - p.sent)
    let vc := vcOf p.hdr.mclass p.dl
    let c := s.fld (Reg.LNK_VC n vc) Fld.LNK_VC_credits
    if k = 0 || 2048 ≤ l.outstanding || c < flits k then (s, false)
    else
      let f : Frame :=
        { seq := l.next, vc := vc, ctrl := false, ack := 0, nak := false, cvc := 0, credit := 0, fill := k, ctype := 0
          payload := padTo 244 (slice p.got p.sent k), crc := 0, bad := false }
      let (fills, left, fl) := takeFills p.fills (p.taken + k)
      let p := { p with sent := p.sent + k, fills := fills, taken := left }
      let done := 32 + p.hdr.length ≤ p.sent
      let s := (s.freeFlits (key / 8) (key % 8) fl).setInq key (if done then rest else p :: rest)
      let l := s.link n
      let s := s.setLink n { l with
        next := (l.next + 1) % 4096, replay := l.replay ++ [f]
        ackNt := if l.outstanding = 0 then s.nt else l.ackNt }
      let s := s.setFld (Reg.LNK_VC n vc) Fld.LNK_VC_credits (c - flits k)
      let s := s.countWrap (Reg.LNK_CNT0 n) Fld.LNK_CNT0_tx_frames 1
      let s := s.sendFrame n f
      (if done then s.endPacket n p else s, true)

/-- The frame of a slot of an ACTIVE link: a replay first, then the packet in progress or a packet that starts, else IDLE. Under a global stop no new DATA frame goes (R347, R353, R402 to R404, R473). -/
def frameSlotEff (n : Nat) (s : State) : State :=
  if s.linkState n != lsActive || s.linkIdle n then s
  else
    let s := s.tickWindow n
    let l := s.link n
    match l.replayAt with
    | some r =>
      let i := (r + 4096 - l.ackBase) % 4096
      match l.replay[i]? with
      | some f =>
        let s := s.setLink n { l with replayAt := if i + 1 < l.replay.length then some ((r + 1) % 4096) else none }
        s.sendFrame n f
      | none => (s.setLink n { l with replayAt := none }).sendFrame n (ctrlFrame 0 [])
    | none =>
      if s.coreStopped then s.sendFrame n (ctrlFrame 0 [])
      else
        let s := s.deferAll n
        let s := if (s.link n).tx.isNone && (s.link n).outstanding < 2048 then
            match s.pick n with
            | some key => s.startPacket n key
            | none => s
          else s
        match (s.link n).tx with
        | none => s.sendFrame n (ctrlFrame 0 [])
        | some key =>
          let (s, ok) := s.sendData n key
          if ok then s else s.sendFrame n (ctrlFrame 0 [])

def execFrameSlot (n : LinkId) (s : State) : Result := .next (frameSlotEff n s)

/-- A NAK for the expected number comes due unless one is outstanding or due (R352). -/
def State.wantNak (s : State) (n : Nat) : State :=
  let l := s.link n
  if l.nak then s else s.setLink n { l with nakDue := true }

/-- A frame error counted, in the window only while the link is ACTIVE (R346, R357). -/
def State.frameErrorAt (s : State) (n : Nat) : State :=
  let l := s.link n
  let w := if s.linkState n = lsActive then (l.window.getD 0 0 + 1) :: l.window.drop 1 else l.window
  let s := (s.setLink n { l with window := w }).setFld (Reg.LNK_CNT3 n) Fld.LNK_CNT3_window (w.foldl (· + ·) 0)
  (s.countSat (Reg.LNK_CNT1 n) Fld.LNK_CNT1_crc_err 1).observe 8 n 0x201 1 noWork []

/-- The bytes of a packet from its first on, kept apart until the header is whole. -/
def State.startReceive (s : State) (n vc : Nat) (fills : List Nat) (bs : List Byte) : State :=
  if bs.length < 32 then s.setLink n { s.link n with rx := some (fills, bs) }
  else
    let s := s.setLink n { s.link n with rx := none }
    let h := { packetOf (bs.take 32) with payload := [] }
    (s.setInq (inKey n vc) (s.inq (inKey n vc) ++
      [{ hdr := h, got := bs, out := none, dl := 0, sent := 0, started := false, deferred := false, closeNt := none
         fills := fills, taken := 0, port := n }])).settle n vc

/-- Packet bytes that reach the router on a virtual channel of a link: they continue the packet in progress, or begin one (R348). Flits of the frame stay reserved until its bytes are taken (R355). -/
def State.receiveBytes (s : State) (n vc fill : Nat) (bs : List Byte) : State :=
  let key := inKey n vc
  let q := s.inq key
  let l := s.link n
  match l.rx with
  | none =>
    match q.getLast? with
    | some p =>
      if p.got.length < 32 + p.hdr.length then
        (s.setInq key (q.dropLast ++ [{ p with got := p.got ++ bs, fills := p.fills ++ [fill] }])).settle n vc
      else s.startReceive n vc [fill] bs
    | none => s.startReceive n vc [fill] bs
  | some (fills, head) => s.startReceive n vc (fills ++ [fill]) (head ++ bs)
/-- DATA_FRAME: a DATA frame received in ACTIVE or PAUSE is in error, expected, ahead or behind (R346, R352, R356, Table LK-4). -/
def dataFrameEff (n : Nat) (f : Frame) (s : State) : State :=
  if !(s.linkState n == lsActive || s.linkState n == lsPause) then s
  else if frameError f then (s.frameErrorAt n).wantNak n
  else
    let s := s.takeFields n f
    let l := s.link n
    let d := (f.seq % 4096 + 4096 - l.expect) % 4096
    if d = 0 then
      let s := s.setLink n { l with expect := (l.expect + 1) % 4096, nak := false, nakDue := false }
      let s := s.countWrap (Reg.LNK_CNT0 n) Fld.LNK_CNT0_rx_frames 1
      s.receiveBytes n (f.vc % 8) f.fill (f.payload.take f.fill)
    else if d < 2048 then s.wantNak n
    else s.countSat (Reg.LNK_CNT1 n) Fld.LNK_CNT1_dups 1

def execDataFrame (n : LinkId) (f : Frame) (s : State) : Result := .next (dataFrameEff n f s)

/-- ERROR_WINDOW_EXCEEDED: the errors of the window exceed err_limit and the link enters RETRAIN (R357). -/
def errorWindowExceededEff (n : Nat) (s : State) : State :=
  if s.linkState n = lsActive && s.fld (Reg.LNK_CFG n) Fld.LNK_CFG_err_limit < s.fld (Reg.LNK_CNT3 n) Fld.LNK_CNT3_window then
    s.startRetrain n
  else s

def execErrorWindowExceeded (n : LinkId) (s : State) : Result := .next (errorWindowExceededEff n s)

/-- Whether a link takes the fields of frames: its session has been settled (R364). -/
def State.settled (s : State) (n : Nat) : Bool := lsSyntonise ≤ s.linkState n && s.linkState n ≤ lsRetrain

/-- A CTRL frame in error is discarded and counted while the link is ACTIVE; another gives its ack, nak and credit fields once the session is settled (R349). -/
def State.takeCtrl (s : State) (n : Nat) (f : Frame) : State :=
  if frameError f then (if s.linkState n = lsActive then s.frameErrorAt n else s)
  else if s.settled n then s.takeFields n f else s

/-- IDLE: an IDLE frame arrives (R349). -/
def execIdle (n : LinkId) (f : Frame) (s : State) : Result := .next (s.takeCtrl n f)

/-- The HELLO payload of a link (Table LK-3). -/
def State.helloBytes (s : State) (n : Nat) : List Byte :=
  let l := s.link n
  [1, BitVec.ofNat 8 (bit (s.timeSource n))] ++ leBytes 2 s.node ++ leBytes 1 n ++ leBytes 3 0 ++ leBytes 8 s.session ++
  leBytes 2 l.expect ++ leBytes 2 0 ++
  ((List.range 8).flatMap fun v => leBytes 2 (s.fld (Reg.LNK_VC n v) Fld.LNK_VC_alloc)) ++
  ((List.range 8).flatMap fun v => leBytes 2 (l.freed.getD v 0))

/-- HELLO_TICK: in PARAM a HELLO goes out (R350). -/
def helloTickEff (n : Nat) (s : State) : State :=
  if s.linkState n = lsParam && !s.linkIdle n then s.sendFrame n (ctrlFrame 1 (s.helloBytes n)) else s

def execHelloTick (n : LinkId) (s : State) : Result := .next (helloTickEff n s)

/-- The session of a link is the same as before: counters are applied and the replay starts from the peer's next number (R364). -/
def State.resumeSession (s : State) (n : Nat) (p : List Byte) : State :=
  let nx := leAt p 16 2 % 4096
  let s := (List.range 8).foldl (fun s v => s.takeCredit n v (leAt p (36 + 2 * v) 2 % 4096)) s
  let s := (s.takeAck n nx).startReplay n nx false
  s.setFld (Reg.LNK_STATUS n) Fld.LNK_STATUS_resumed 1

/-- An input packet of a link that will not be completed by its peer: zero bytes up to its length, counted (R389). -/
def State.truncateInputs (s : State) (n : Nat) : State :=
  (List.range 8).foldl (fun s v =>
    let q := s.inq (inKey n v)
    let q' := q.map fun p =>
      let p := { p with fills := [], taken := 0 }
      if p.got.length < 32 + p.hdr.length then { p with got := padTo (32 + p.hdr.length) p.got } else p
    let cut := (q.filter fun p => decide (p.got.length < 32 + p.hdr.length)).length
    ((s.setInq (inKey n v) q').countSat Reg.RTE_CNT0 Fld.RTE_CNT0_truncated cut).settle n v) s

/-- The frames of a packet partly sent that are still to go out of a link. -/
def State.unsentFrames (s : State) (n : Nat) : Nat :=
  match (s.link n).tx with
  | none => 0
  | some key =>
    match s.inq key with
    | [] => 0
    | x :: _ => cdiv (32 + x.hdr.length - x.sent) 244

/-- The rest of a packet partly sent on a link is discarded. -/
def State.dropRest (s : State) (n : Nat) : State :=
  match (s.link n).tx with
  | none => s
  | some key =>
    match s.inq key with
    | [] => s
    | x :: t => (s.setInq key ({ x with out := some 63 } :: t)).settle (key / 8) (key % 8)

/-- The session of a link starts fresh (R364): sequence numbers at 0, credits the peer's buffers, buffered frames and the rest of a packet partly sent discarded and counted. -/
def State.freshSession (s : State) (n : Nat) (p : List Byte) : State :=
  let lost := (s.link n).replay.length + s.unsentFrames n
  let s := s.dropRest n
  let l := s.link n
  let bufs := (List.range 8).map fun v => leAt p (20 + 2 * v) 2 % 4096
  let s := s.setLink n { l with
    next := 0, ackBase := 0, replay := [], replayAt := none, expect := 0, nak := false, nakDue := false, tx := none, rx := none
    seen := (List.range 8).map fun v => leAt p (36 + 2 * v) 2 % 4096, peerBuf := bufs }
  let s := (List.range 8).foldl (fun s v => s.setFld (Reg.LNK_VC n v) Fld.LNK_VC_credits (bufs.getD v 0)) s
  let s := s.truncateInputs n
  let s := s.setFld (Reg.LNK_STATUS n) Fld.LNK_STATUS_resumed 0
  let s := s.countSat (Reg.LNK_CNT2 n) Fld.LNK_CNT2_lost_frames lost
  let s := s.markLost n
  let st := s.linkState n
  s.raise 0x0901 8 n ([BitVec.ofNat 8 n, BitVec.ofNat 8 st, BitVec.ofNat 8 st, 0] ++ leBytes 2 lost)

/-- HELLO: in PARAM a valid HELLO settles the session and the link goes to SYNTONISE. One that advertises more than 1,536 flits is invalid and raises a link event (R350, R363, R364). -/
def helloEff (n : Nat) (f : Frame) (s : State) : State :=
  if s.linkState n != lsParam || frameError f then s
  else
    let p := f.payload
    let sum := (List.range 8).foldl (fun a v => a + leAt p (20 + 2 * v) 2) 0
    if leAt p 0 1 != 1 then s
    else if 1536 < sum then
      s.raise 0x0901 8 n [BitVec.ofNat 8 n, BitVec.ofNat 8 lsParam, BitVec.ofNat 8 lsParam]
    else
      let who := (leAt p 8 8, leAt p 2 2)
      let same := (s.link n).peer == some who
      let s := if same then s.resumeSession n p else s.freshSession n p
      let s := s.setLink n { s.link n with peer := some who, peerSource := (leAt p 1 1) % 2 == 1, exchanges := [], asked := none }
      let s := s.setFld (Reg.LNK_STATUS n) Fld.LNK_STATUS_peer_node who.2
      let s := s.setFld (Reg.LNK_STATUS n) Fld.LNK_STATUS_peer_link (leAt p 4 1)
      s.enterState n lsSyntonise

def execHello (n : LinkId) (f : Frame) (s : State) : Result := .next (helloEff n f s)

/-- Whether this end sends TIME_REQ on a link (R367). -/
def State.asksTime (s : State) (n : Nat) : Bool :=
  let l := s.link n
  let (session, node) := l.peer.getD (0, 0)
  if s.timeSource n != l.peerSource then s.timeSource n
  else if s.node = node then decide (s.session < session)
  else decide (s.node < node)

/-- An instant of a frame in units of 2^-16 ns: NT in 8 bytes and the fraction in two. -/
def instantAt (p : List Byte) (a b : Nat) : Nat := leAt p a 8 * 65536 + leAt p b 2

/-- TIME_EXCHANGE_TICK: in OFFSET the requesting end sends a TIME_REQ of the next exchange, its departure measured to a fraction of a ns (R349, R367). -/
def timeExchangeTickEff (n frac : Nat) (s : State) : State :=
  let l := s.link n
  if s.linkState n = lsOffset && s.asksTime n && l.exchanges.length < 16 && !s.linkIdle n then
    let i := l.exchanges.length
    let s := s.setLink n { l with asked := some (i, s.nt * 65536 + frac) }
    s.sendFrame n (ctrlFrame 2 ([BitVec.ofNat 8 i] ++ leBytes 7 0 ++ leBytes 8 s.nt ++ leBytes 2 frac))
  else s

def execTimeExchangeTick (n : LinkId) (frac : Fin 65536) (s : State) : Result := .next (timeExchangeTickEff n frac s)

/-- TIME_REQ: answered with TIME_RESP that carries both instants of this end. The answering end has done its part with the 16th exchange and goes ACTIVE; where both ends have the source flag it raises a link event (R363, R367). -/
def timeReqEff (n : Nat) (f : Frame) (arr dep : Nat) (s : State) : State :=
  if frameError f || s.linkState n < lsOffset || lsActive < s.linkState n || s.linkIdle n then s.takeCtrl n f
  else
    let s := s.takeCtrl n f
    let i := leAt f.payload 0 1
    let s := s.sendFrame n (ctrlFrame 3 ([BitVec.ofNat 8 i] ++ leBytes 7 0 ++ leBytes 8 s.nt ++ leBytes 2 dep ++ leBytes 6 0 ++
      leBytes 8 s.nt ++ leBytes 2 arr))
    if s.linkState n = lsOffset && i = 15 then
      let s := if s.timeSource n && (s.link n).peerSource then
          s.raise 0x0901 8 n [BitVec.ofNat 8 n, BitVec.ofNat 8 lsOffset, BitVec.ofNat 8 lsOffset]
        else s
      s.enterActive n
    else s

def execTimeReq (n : LinkId) (f : Frame) (arr dep : Fin 65536) (s : State) : Result := .next (timeReqEff n f arr dep s)

/-- A correction of NT in ns: a forward step from 1 ms on, written as a time record, else a slew (R368, R467). -/
def State.correctTime (s : State) (d : Int) : State :=
  if 1000000 ≤ d then
    ({ s with time := { s.time with nt := s.time.nt + d.toNat } }).timeRecord true
  else { s with time := { s.time with slew := d } }

/-- The nearest integer to a / b, halves upwards. -/
def nearest (a : Int) (b : Nat) : Int := (2 * a + (b : Int)) / ((2 * b : Nat) : Int)

/-- Of the exchanges done, the first with the smallest (t4 - t1) - (t3 - t2) (R367). -/
def bestExchange : List (Nat × Nat × Nat × Nat) → Nat × Nat × Nat × Nat
  | [] => (0, 0, 0, 0)
  | e :: es => es.foldl (fun b x =>
      let cost (y : Nat × Nat × Nat × Nat) : Int := ((y.2.2.2 : Int) - y.1) - ((y.2.2.1 : Int) - y.2.1)
      if cost x < cost b then x else b) e

/-- Delay in ps and offset in ns of an exchange under an asymmetry in ps (R367). -/
def delayAndOffset (e : Nat × Nat × Nat × Nat) (asym : Int) : Int × Int :=
  let (t1, t2, t3, t4) := e
  let a : Int := (t2 : Int) - t1
  let b : Int := (t4 : Int) - t3
  (nearest ((a + b) * 1000) (2 * 65536), nearest ((a - b) * 1000 + asym * 65536) (2 * 65536 * 1000))

/-- TIME_RESP: the exchange is recorded; with the sixteenth the delay and offset are computed, NT is corrected on the source link, and the link goes ACTIVE (R363, R367, R368). -/
def timeRespEff (n : Nat) (f : Frame) (arr : Nat) (s : State) : State :=
  let s := s.takeCtrl n f
  let l := s.link n
  if frameError f || s.linkState n != lsOffset then s
  else
    match l.asked with
    | none => s
    | some (i, t1) =>
      if leAt f.payload 0 1 != i then s
      else
        let ex := l.exchanges ++ [(t1, instantAt f.payload 24 32, instantAt f.payload 8 16, s.nt * 65536 + arr)]
        let s := s.setLink n { l with exchanges := ex, asked := none }
        if ex.length < 16 then s
        else
          let (delay, off) := delayAndOffset (bestExchange ex) (signedOf 16 (s.fld (Reg.LNK_TIME_CFG n) Fld.LNK_TIME_CFG_asym_ps))
          let s := s.setFld (Reg.LNK_TIME_DELAY n) Fld.LNK_TIME_DELAY_delay_ps (ofSigned 32 delay)
          let s := s.setReg (Reg.LNK_TIME_OFS n) (BitVec.ofNat 64 (ofSigned 64 off))
          let s := if s.timeSource n then s.correctTime off else s
          s.enterActive n

def execTimeResp (n : LinkId) (f : Frame) (arr : Fin 65536) (s : State) : Result := .next (timeRespEff n f arr s)

/-- NAK_RESEND: e has not advanced for half the replay timeout after a NAK, and the NAK is sent again (R352). -/
def nakResendEff (n : Nat) (s : State) : State :=
  let l := s.link n
  if s.linkState n = lsActive && l.nak &&
      l.nakNt * 2 + s.fld (Reg.LNK_CFG n) Fld.LNK_CFG_replay_timeout_us * 1000 ≤ s.nt * 2 then
    s.setLink n { l with nakDue := true }
  else s

def execNakResend (n : LinkId) (s : State) : Result := .next (nakResendEff n s)

/-- REPLAY_TIMEOUT: frames are outstanding and no ack has advanced for the timeout; the sender replays from ack_base (R353). -/
def replayTimeoutEff (n : Nat) (s : State) : State :=
  let l := s.link n
  if s.linkState n = lsActive && l.outstanding != 0 &&
      l.ackNt + s.fld (Reg.LNK_CFG n) Fld.LNK_CFG_replay_timeout_us * 1000 ≤ s.nt then
    s.startReplay n l.ackBase true
  else s

def execReplayTimeout (n : LinkId) (s : State) : Result := .next (replayTimeoutEff n s)

/-- TRAIN: prongs on a spare or training lane keep it trained: its clock and data recovery is locked (R359). DEDUCED: a prong command of this model stands for the four consecutive valid prongs that the rule asks for (assumption 96). -/
def trainEff (n : Nat) (lane : Nat) (p : Prong) (s : State) : State :=
  if p.valid && 2 ≤ s.laneRole n lane then s.setFld (Reg.LNK_LANE n lane) Fld.LNK_LANE_lock 1 else s

def execTrain (n : LinkId) (lane : Fin 3) (p : Prong) (s : State) : Result := .next (trainEff n lane p s)

/-- The spare lane of a link, none where it has none or sparing is off (R360). -/
def State.spareLane (s : State) (n : Nat) : Option Nat :=
  let sp := s.fld (Reg.LNK_STATUS n) Fld.LNK_STATUS_spare
  if sp < 3 && s.laneRole n sp = 2 then some sp else none

/-- The slot of a lane moves to the spare (Table LK-6): the lane is failed, the spare active, and the link has no spare. -/
def State.moveSlot (s : State) (n lane spare : Nat) : State :=
  let r := Reg.LNK_STATUS n
  let s := if s.fld r Fld.LNK_STATUS_slot0 = lane then s.setFld r Fld.LNK_STATUS_slot0 spare
    else if s.fld r Fld.LNK_STATUS_slot1 = lane then s.setFld r Fld.LNK_STATUS_slot1 spare
    else s
  let s := s.setFld r Fld.LNK_STATUS_spare 3
  let s := (s.setLane n lane 0).setLane n spare 1
  s.raise 0x0902 8 n [BitVec.ofNat 8 n, BitVec.ofNat 8 lane, BitVec.ofNat 8 spare]

/-- A swap at the end that detected the failure: DATA stops and SWAP goes out on the healthy lanes, or without a spare the link goes DOWN (R360). -/
def State.startSwap (s : State) (n lane : Nat) : State :=
  let s := s.setLane n lane 0
  match s.spareLane n with
  | some sp =>
    if s.on (Reg.LNK_CTL n) Fld.LNK_CTL_spare_en then
      let s := s.enterState n lsPause
      let s := s.setLink n { s.link n with swap := some ⟨lane, sp, false, false⟩, resumeSent := false, resumeGot := none }
      s.sendProngs n .swap lane
    else s.goDown n
  | none => s.goDown n

/-- LANE_FAILURE: an active lane meets a criterion of R360. In ACTIVE it is swapped or the link goes DOWN; in PAUSE it waits for the swap to end; in RETRAIN it fails that retrain (R360, R361). A failed spare is no longer the spare, and a lane on trial fails its trial (R362). -/
def laneFailureEff (n lane : Nat) (s : State) : State :=
  let st := s.linkState n
  if s.laneRole n lane = 1 then
    if st = lsActive then s.startSwap n lane
    else if st = lsPause then
      let l := s.link n
      if l.laneFaults.contains lane then s else s.setLink n { l with laneFaults := l.laneFaults ++ [lane] }
    else if st = lsRetrain then s.failRetrain n
    else s
  else if s.laneRole n lane = 2 then
    (s.setLane n lane 0).setFld (Reg.LNK_STATUS n) Fld.LNK_STATUS_spare 3
  else if s.laneRole n lane = 3 && st = lsActive then
    (s.setLink n { s.link n with laneSince := (s.link n).laneSince.filter (·.1 != lane) }).setLane n lane 0
  else s

def execLaneFailure (n : LinkId) (lane : Fin 3) (s : State) : Result := .next (laneFailureEff n lane s)

/-- The peer's swap carried out here: SWAP_ACK goes out and the slot moves (Table LK-6). -/
def State.followSwap (s : State) (n lane : Nat) : State :=
  match s.spareLane n with
  | some sp =>
    let s := s.sendProngs n .swapAck lane
    let s := s.moveSlot n lane sp
    s.setLink n { s.link n with swap := some ⟨lane, sp, true, false⟩ }
  | none => s.goDown n

/-- SWAP: the peer moves a lane's slot. In ACTIVE DATA stops; of two different requests that of the lower node ID is carried out; in RETRAIN it is carried out first and the retrain restarts (R359 to R361). -/
def swapEff (n : Nat) (p : Prong) (s : State) : State :=
  let st := s.linkState n
  if !p.valid || 2 < p.lane then s
  else if st = lsActive then
    if (s.spareLane n).isNone then s.goDown n
    else
      let s := s.enterState n lsPause
      let s := s.setLink n { s.link n with resumeSent := false, resumeGot := none }
      s.followSwap n p.lane
  else if st = lsPause then
    match (s.link n).swap with
    | none => s.followSwap n p.lane
    | some w =>
      if w.moved then s
      else if w.lane = p.lane then s.followSwap n p.lane
      else if p.node < s.node then
        let s := s.setLane n w.lane 1
        let l := s.link n
        (s.setLink n { l with laneFaults := l.laneFaults ++ [w.lane] }).followSwap n p.lane
      else s
  else if st = lsRetrain then
    match s.spareLane n with
    | some sp =>
      let s := (s.sendProngs n .swapAck p.lane).moveSlot n p.lane sp
      (s.countSat (Reg.LNK_CNT2 n) Fld.LNK_CNT2_spares 1).startRetrain n
    | none => s.goDown n
  else s

def execSwap (n : LinkId) (p : Prong) (s : State) : Result := .next (swapEff n p s)

/-- SWAP_ACK: the swap is confirmed and the slot moves at this end (Table LK-6). -/
def swapAckEff (n : Nat) (p : Prong) (s : State) : State :=
  match (s.link n).swap with
  | some w =>
    if p.valid && s.linkState n = lsPause && w.lane = p.lane && !w.moved then
      let s := s.moveSlot n w.lane w.spare
      s.setLink n { s.link n with swap := some { w with moved := true } }
    else s
  | none => s

def execSwapAck (n : LinkId) (p : Prong) (s : State) : Result := .next (swapAckEff n p s)

/-- The first of the lanes that failed during a swap is taken next. -/
def State.nextFault (s : State) (n : Nat) (faults : List Nat) : State :=
  match faults with
  | [] => s
  | m :: rest => (s.setLink n { s.link n with laneFaults := rest }).startSwap n m

/-- RESUME has gone both ways: the link re-enters ACTIVE and the sender replays from the peer's next number; after a swap the error window is cleared, the swap counted, and a lane that failed meanwhile handled (R358, R360, R361). -/
def State.tryResume (s : State) (n : Nat) : State :=
  let l := s.link n
  match l.resumeSent, l.resumeGot with
  | true, some nx =>
    let swapped := l.swap.any (·.moved)
    let faults := l.laneFaults
    let s := s.enterActive n
    let s := if swapped then s.countSat (Reg.LNK_CNT2 n) Fld.LNK_CNT2_spares 1 else s
    let s := (s.takeAck n nx).startReplay n nx false
    s.nextFault n faults
  | _, _ => s

/-- RESUME sent on a link. -/
def State.sendResume (s : State) (n : Nat) : State :=
  let s := s.sendProngs n .resume 0
  (s.setLink n { s.link n with resumeSent := true }).tryResume n

/-- SPARE_DESKEW_DONE: the spare is deskewed and this end sends RESUME (Table LK-6). -/
def spareDeskewDoneEff (n : Nat) (s : State) : State :=
  match (s.link n).swap with
  | some w =>
    if s.linkState n = lsPause && w.moved then
      (s.setLink n { s.link n with swap := some { w with deskewed := true } }).sendResume n
    else s
  | none => s

def execSpareDeskewDone (n : LinkId) (s : State) : Result := .next (spareDeskewDoneEff n s)

/-- EQUALISER_ADAPTATION_DONE: in RETRAIN the equalisers are adapted and this end sends RESUME (R358). -/
def equaliserAdaptationDoneEff (n : Nat) (s : State) : State :=
  if s.linkState n = lsRetrain then s.sendResume n else s

def execEqualiserAdaptationDone (n : LinkId) (s : State) : Result := .next (equaliserAdaptationDoneEff n s)

/-- RESUME: the peer is ready, and its prong carries the next number it expects (R358, Table LK-6). -/
def resumeEff (n : Nat) (p : Prong) (s : State) : State :=
  if p.valid && (s.linkState n = lsPause || s.linkState n = lsRetrain) then
    (s.setLink n { s.link n with resumeGot := some (p.next % 4096) }).tryResume n
  else s

def execResume (n : LinkId) (p : Prong) (s : State) : Result := .next (resumeEff n p s)

/-- RETRAIN: the peer retrains, and this end follows (R358, R359). -/
def retrainEff (n : Nat) (p : Prong) (s : State) : State :=
  if p.valid && (s.linkState n = lsActive || s.linkState n = lsPause) then s.startRetrain n else s

def execRetrain (n : LinkId) (p : Prong) (s : State) : Result := .next (retrainEff n p s)

/-- DOWN: a DOWN prong takes an ACTIVE link DOWN (Table LK-7). -/
def downEff (n : Nat) (p : Prong) (s : State) : State :=
  if p.valid && s.linkState n = lsActive then s.goDown n else s

def execDown (n : LinkId) (p : Prong) (s : State) : Result := .next (downEff n p s)

/-- Whether a link has been in a state for a time in ns. -/
def State.lasted (s : State) (n st ns : Nat) : Bool :=
  s.linkState n == st && decide ((s.link n).since + ns ≤ s.nt)

/-- RETRAIN_TIMEOUT: 20 ms without success (R358). -/
def retrainTimeoutEff (n : Nat) (s : State) : State := if s.lasted n lsRetrain 20000000 then s.failRetrain n else s

def execRetrainTimeout (n : LinkId) (s : State) : Result := .next (retrainTimeoutEff n s)

/-- PAUSE_TIMEOUT: no RESUME in 20 µs; the link retrains (Table LK-7). -/
def pauseTimeoutEff (n : Nat) (s : State) : State := if s.lasted n lsPause 20000 then s.startRetrain n else s

def execPauseTimeout (n : LinkId) (s : State) : Result := .next (pauseTimeoutEff n s)

/-- LANE_RETRY: a failed lane of an ACTIVE link is retried with training patterns; `ok` says whether it trains (R362). -/
def laneRetryEff (n lane : Nat) (ok : Bool) (s : State) : State :=
  let role := s.laneRole n lane
  if s.linkState n = lsActive && (role = 0 || role = 3) then
    let l := s.link n
    let others := l.laneSince.filter (·.1 != lane)
    let s := s.setFld (Reg.LNK_LANE n lane) Fld.LNK_LANE_lock (bit ok)
    if ok then
      let t := ((l.laneSince.find? (·.1 == lane)).map (·.2)).getD s.nt
      (s.setLink n { l with laneSince := (lane, t) :: others }).setLane n lane 3
    else (s.setLink n { l with laneSince := others }).setLane n lane 0
  else s

def execLaneRetry (n : LinkId) (lane : Fin 3) (ok : Bool) (s : State) : Result := .next (laneRetryEff n lane ok s)

/-- LANE_SPARE_PROMOTION: a retrained lane that has held lock for 1 s becomes the spare (R362). -/
def laneSparePromotionEff (n lane : Nat) (s : State) : State :=
  let l := s.link n
  match l.laneSince.find? (·.1 == lane) with
  | some (_, t) =>
    if s.laneRole n lane = 3 && t + 1000000000 ≤ s.nt && s.fld (Reg.LNK_STATUS n) Fld.LNK_STATUS_spare = 3 then
      let s := s.setLink n { l with laneSince := l.laneSince.filter (·.1 != lane) }
      let s : State := { s with boot := { s.boot with laneFailed := s.boot.laneFailed.filter (· != (n, lane)) } }
      (s.setLane n lane 2).setFld (Reg.LNK_STATUS n) Fld.LNK_STATUS_spare lane
    else s
  | none => s

def execLaneSparePromotion (n : LinkId) (lane : Fin 3) (s : State) : Result := .next (laneSparePromotionEff n lane s)

/-- LINK_TRAINING_DONE: two lanes are trained, the best of them in slots 0 and 1; the third becomes the spare if it is trained (Table LK-7). -/
def linkTrainingDoneEff (n a b : Nat) (third : Bool) (s : State) : State :=
  let bad (m : Nat) : Bool := s.boot.laneFailed.contains (n, m)
  if s.linkState n = lsTraining && a ≠ b && !bad a && !bad b && !(third && bad (3 - a - b)) && s.nt ≤ (s.link n).since + 900000000 then
    let c := 3 - a - b
    let r := Reg.LNK_STATUS n
    let s := (s.setFld r Fld.LNK_STATUS_slot0 a).setFld r Fld.LNK_STATUS_slot1 b
    let s := s.setFld r Fld.LNK_STATUS_spare (if third then c else 3)
    let s := ((s.setLane n a 1).setLane n b 1).setLane n c (if third then 2 else 0)
    let s := (s.setFld (Reg.LNK_LANE n a) Fld.LNK_LANE_lock 1).setFld (Reg.LNK_LANE n b) Fld.LNK_LANE_lock 1
    let s := s.setFld (Reg.LNK_LANE n c) Fld.LNK_LANE_lock (bit third)
    s.enterState n lsAlign
  else s

def execLinkTrainingDone (n : LinkId) (a b : Fin 3) (third : Bool) (s : State) : Result :=
  .next (linkTrainingDoneEff n a b third s)

/-- LINK_TRAINING_TIMEOUT: fewer than two lanes in 900 ms (Table LK-7). -/
def linkTrainingTimeoutEff (n : Nat) (s : State) : State := if s.lasted n lsTraining 900000000 then s.goDown n else s

def execLinkTrainingTimeout (n : LinkId) (s : State) : Result := .next (linkTrainingTimeoutEff n s)

/-- ALIGN_LOCK: codeword lock and deskew within 10 ms (Table LK-7). -/
def alignLockEff (n : Nat) (s : State) : State :=
  if s.linkState n = lsAlign && s.nt ≤ (s.link n).since + 10000000 then s.enterState n lsParam else s

def execAlignLock (n : LinkId) (s : State) : Result := .next (alignLockEff n s)

/-- ALIGN_TIMEOUT: no lock in 10 ms (Table LK-7). -/
def alignTimeoutEff (n : Nat) (s : State) : State := if s.lasted n lsAlign 10000000 then s.goDown n else s

def execAlignTimeout (n : LinkId) (s : State) : Result := .next (alignTimeoutEff n s)

/-- PARAM_TIMEOUT: no valid HELLO in 1 ms (Table LK-7). -/
def paramTimeoutEff (n : Nat) (s : State) : State := if s.lasted n lsParam 1000000 then s.goDown n else s

def execParamTimeout (n : LinkId) (s : State) : Result := .next (paramTimeoutEff n s)

/-- SYNTONISE_LOCK: the link is not the time source, or the TIME PLL has locked to it, which ends holdover (R366, Table LK-7). -/
def syntoniseLockEff (n : Nat) (s : State) : State :=
  if s.linkState n = lsSyntonise && (!s.timeSource n || decide (s.nt ≤ (s.link n).since + 50000000)) then
    let s := if s.timeSource n then s.setFld Reg.CLK_STATUS Fld.CLK_STATUS_holdover 0 else s
    s.enterState n lsOffset
  else s

def execSyntoniseLock (n : LinkId) (s : State) : Result := .next (syntoniseLockEff n s)

/-- SYNTONISE_TIMEOUT: no lock in 50 ms; the TIME PLL stays in holdover (Table LK-7). -/
def syntoniseTimeoutEff (n : Nat) (s : State) : State :=
  if s.lasted n lsSyntonise 50000000 && s.timeSource n then s.goDown n else s

def execSyntoniseTimeout (n : LinkId) (s : State) : Result := .next (syntoniseTimeoutEff n s)

/-- DOWN_RETRY: retry_ms has passed in DOWN while the link is enabled (Table LK-7). -/
def downRetryEff (n : Nat) (s : State) : State :=
  if s.lasted n lsDown (s.fld (Reg.LNK_CFG n) Fld.LNK_CFG_retry_ms * 1000000) && s.on (Reg.LNK_CTL n) Fld.LNK_CTL_enable &&
      !s.linkIdle n then
    s.startTraining n
  else s

def execDownRetry (n : LinkId) (s : State) : Result := .next (downRetryEff n s)

/-- The packets held for a link that is DOWN or DISABLED and its replay buffer discarded, the packets counted (R365). -/
def State.discardHeld (s : State) (n : Nat) : State :=
  let mine := s.router.inputs.filterMap fun e =>
    match e.2 with
    | p :: _ => if p.out == some n then some e.1 else none
    | [] => none
  let s := mine.foldl (fun s key =>
    match s.inq key with
    | [] => s
    | p :: rest =>
      ((s.setInq key ({ p with out := some 63 } :: rest)).settle (key / 8) (key % 8)).countSat
        (Reg.LNK_CNT3 n) Fld.LNK_CNT3_discarded 1) s
  let l := s.link n
  s.setLink n { l with replay := [], replayAt := none, ackBase := l.next, tx := none }

/-- A write of LNK_CTL: its fields, a retrain, ignored outside ACTIVE, and a discard, ignored and logged outside DOWN and DISABLED (R358, R365). -/
def lnkCtlWrite (path : Path) (n : Nat) (value : Word) (s : State) : State :=
  let s := s.writeFields path (Reg.LNK_CTL n) value
  let s := if getF value Fld.LNK_CTL_retrain = 1 && s.linkState n = lsActive then s.startRetrain n else s
  if getF value Fld.LNK_CTL_discard = 1 then
    if s.linkState n = lsDown || s.linkState n = lsDisabled then s.discardHeld n else s.logViol path 4 (Reg.LNK_CTL n)
  else s

def execLnkCtlRetrain (path : Path) (n : LinkId) (value : Word) (s : State) : Result :=
  .next (lnkCtlWrite path n (setF value Fld.LNK_CTL_retrain 1) s)

def execLnkCtlDiscard (path : Path) (n : LinkId) (value : Word) (s : State) : Result :=
  .next (lnkCtlWrite path n (setF value Fld.LNK_CTL_discard 1) s)

/-- A commit brings a link up or takes it to DISABLED (Table LK-7). -/
def State.enableLink (s : State) (n : Nat) (on : Bool) : State :=
  if on then (if s.linkState n = lsDisabled && !s.linkIdle n then s.startTraining n else s)
  else if s.linkState n = lsDisabled then s
  else
    let s := if s.linkState n = lsActive then s.sendProngs n .down 0 else s
    let s := s.enterState n lsDisabled
    s.setLink n { s.link n with swap := none, laneFaults := [], fails := [], resumeSent := false, resumeGot := none, replayAt := none }

end Sys2Proof.Machine
end

