-- ==== Sys2Proof/Machine/Handover.lean ====
section
/-! DEFINITION. The grant that ends a bank handover (R157, R158). -/

namespace Sys2Proof.Machine

open Sys2Proof

/-- The lines that a Setting's line cache holds in a bank leave it, dirty data going to the stack (R158). -/
def State.flushCache (s : State) (st bi : Nat) : State :=
  ((s.cache st).filter fun l => l.bank == bi).foldl (fun (s : State) l => (s.evictLine [] st l).1) s

/-- Whether Loupe's record stream in a bank is still open (R158). -/
def State.streamOpen (s : State) (bi : Nat) : Bool :=
  (s.captureState == 1 || s.captureState == 2 || s.captureState == 3 || s.captureState == 4) &&
  !s.on Reg.LPE_TRC_CFG Fld.LPE_TRC_CFG_dest && s.loupe.buffer.contains bi

/-- HANDOVER_GRANT: the new owner is granted, busy clears, and its requests that waited are served. A bank that leaves or joins the line cache has its written bits cleared; one that goes to the test engine starts its whole-bank test; a grant from Loupe needs its record stream closed first (R158). -/
def handoverGrantEff (st : Setting) (bank : Fin 64) (s : State) : State :=
  let bi := bankIndex st bank
  match s.handoverOf bi with
  | none => s
  | some h =>
    if s.workStopped || (h.old == 10 && s.streamOpen bi) then s
    else
      let s := if h.old = 9 then (s.flushCache st bi).clearBank bi else s
      let s := if h.new = 9 then s.clearBank bi else s
      let s := { s with banks := { s.banks with handovers := s.banks.handovers.erase h } }
      let s := if h.new = 11 then { s with banks := { s.banks with whole := s.banks.whole ++ [bi] } } else s
      (s.setBusy bi false).serveHeld st

def execHandoverGrant (st : Setting) (bank : Fin 64) (s : State) : Result := .next (handoverGrantEff st bank s)

/-- The clear ends and the requests that waited proceed (R164). A bank of the line cache has its lines written back first, as in a handover from the line cache to itself (R158). -/
def bankClearDoneEff (bi : Nat) (s : State) : State :=
  if s.banks.handovers.any fun h => h.bank == bi && h.clear then
    let s := { s with banks := { s.banks with handovers := s.banks.handovers.filter fun h => !(h.bank == bi && h.clear) } }
    let s := if s.bankOwner bi = 9 then s.flushCache (bi / 64) bi else s
    ((s.clearBank bi).setBusy bi false).serveHeld (bi / 64)
  else s

def execBankClearDone (st : Setting) (bank : Fin 64) (s : State) : Result :=
  .next (bankClearDoneEff (bankIndex st bank) s)

end Sys2Proof.Machine
end

