-- ==== Sys2Proof/Machine/Issue.lean ====
section
/-! DEFINITION. Issue, start and completion of descriptors, and their event messages (R81 to R91, R106 to R108, R423). -/

namespace Sys2Proof.Machine

open Sys2Proof

/-- The operand bytes of each opcode: first byte and length; the other bytes are reserved (Table QU-5). None for an opcode not listed. -/
def operandBytes (d : Desc) : Option (List (Nat × Nat)) :=
  match d.op with
  | 0x00 => some []
  | 0x01 => some [(8, 40)]
  | 0x02 => some [(8, 24)]
  | 0x03 => some ([(8, 9), (24, 8)] ++ (if d.u 16 1 = 4 then [(32, 8)] else []))
  | 0x04 => some []
  | 0x05 => some [(8, 16)]
  | 0x06 => some [(8, 4), (16, 8)]
  | 0x07 => some [(8, 12), (24, 16)]
  | 0x08 => some [(8, 12)]
  | 0x10 => some [(8, 4), (16, 16)]
  | 0x11 => some [(8, 7), (16, 24)]
  | 0x12 => some [(8, 25), (40, 8)]
  | 0x13 => some [(8, 22)]
  | _ => none

/-- Where the address words of each opcode stand (Table QU-5). -/
def addressWords (d : Desc) : List Nat :=
  match d.op with
  | 0x01 => [8, 16]
  | 0x02 => [8]
  | 0x03 => [8]
  | 0x05 => [8]
  | 0x06 => [16]
  | 0x07 => [24]
  | 0x10 => [16]
  | 0x11 => [16, 24, 32]
  | 0x12 => [8, 16, 40]
  | 0x13 => [8, 16]
  | _ => []

/-- Whether a reserved bit or byte of a descriptor is not 0 (R77, Table QU-1). -/
def reservedSet (d : Desc) (used : List (Nat × Nat)) : Bool :=
  8 ≤ d.u 1 1 || (addressWords d).any (fun i => 2 ^ 50 ≤ d.u i 8) ||
  ((List.range 56).any fun i => !(used.any fun r => r.1 ≤ i + 8 && i + 8 < r.1 + r.2) && d.u (i + 8) 1 != 0)

/-- Whether an address is not aligned as its operation asks (R149, R150). -/
def misaligned (d : Desc) : Bool :=
  match d.op with
  | 0x02 => d.u 8 8 % 8 != 0
  | 0x03 => addrOf (d.u 8 8) % atomicSize (d.u 16 1) != 0
  | _ => false

/-- Whether a row of one end of a MOVE meets a row of the other. -/
def rowsMeet (a b : End) (len rows : Nat) : Bool :=
  (List.range rows).any fun r =>
    let lo := a.row r
    let base := addrOf b.word
    if b.stride = 0 then decide (lo < base + len) && decide (base < lo + len)
    else
      let first := if base + len ≤ lo then (lo - base - len) / b.stride + 1 else 0
      decide (first < rows) && decide (b.row first < lo + len)

/-- The last byte of the rows of an end. -/
def End.last (e : End) (len rows : Nat) : Nat := e.row (rows - 1) + len - 1

/-- Whether a field of a descriptor is out of range, or a space is 3 (Table QU-5, R148 to R150, R305, R308, R313). -/
def outOfRange (d : Desc) : Bool :=
  (addressWords d).any (fun i => spaceOf (d.u i 8) == 3) ||
  match d.op with
  | 0x01 =>
    let (len, rows, a, b) := (moveRowLen d, moveRowCount d, moveSrc d, moveDst d)
    len == 0 || rows == 0 || 2 ^ 24 < rows || (spaceOf a.word != 0 && 2 ^ 48 ≤ a.last len rows) ||
    (spaceOf b.word != 0 && 2 ^ 48 ≤ b.last len rows) || (spaceOf a.word == spaceOf b.word && rowsMeet a b len rows)
  | 0x02 => d.u 24 8 % 8 != 0 || 2 ^ 44 < d.u 24 8 || (spaceOf (d.u 8 8) != 0 && 2 ^ 48 < addrOf (d.u 8 8) + d.u 24 8)
  | 0x03 => 4 < d.u 16 1 || spaceOf (d.u 8 8) != 0
  | 0x05 => spaceOf (d.u 8 8) != 0 || d.u 16 8 == 0
  | 0x06 => 7 < d.u 8 1 || 1 < d.u 9 1 || 511 < d.u 10 2 || (d.u 9 1 == 0 && spaceOf (d.u 16 8) != 1)
  | 0x07 => spaceOf (d.u 24 8) != 0 || d.u 32 8 == 0
  | 0x08 => d.u 8 8 == 0 || 600000 < d.u 16 4
  | 0x10 => 1023 < d.u 8 2 || d.u 10 2 == 0 || 4096 < d.u 10 2
  | 0x11 =>
    d.u 8 2 == 0 || 4096 < d.u 8 2 || d.u 10 2 < 64 || 32768 < d.u 10 2 || d.u 10 2 % 64 != 0 || 1 < d.u 12 1 || 1 < d.u 13 1 ||
    d.u 14 1 == 0 || 8 < d.u 14 1
  | 0x12 => d.u 24 4 == 0 || 4096 < d.u 24 4 || 256 < d.u 28 2 || 64 < d.u 30 1 || 4 < d.u 31 1 || 1 < d.u 32 1
  | 0x13 => spaceOf (d.u 8 8) != 0 || d.u 28 2 == 0 || 4096 < d.u 28 2
  | _ => false

/-- The class 8 status of a descriptor, 0 where it is well formed (R81, R91). -/
def malformed (d : Desc) : Nat :=
  match operandBytes d with
  | none => 0x8001
  | some used => if reservedSet d used then 0x8002 else if misaligned d then 0x8003 else if outOfRange d then 0x8004 else 0

/-- The ranges in space 0 that a descriptor names and that its own bytes give (R106). Those that rest on what it reads from memory as it issues are checked when that is read. -/
def rangesOf (d : Desc) : List Tile :=
  let one (i len : Nat) (write : Bool) : List Tile := if spaceOf (d.u i 8) = 0 then [⟨addrOf (d.u i 8), len, 1, 0, write⟩] else []
  match d.op with
  | 0x01 =>
    let rows (e : End) (write : Bool) : List Tile :=
      if spaceOf e.word = 0 then [⟨addrOf e.word, moveRowLen d, moveRowCount d, e.stride, write⟩] else []
    rows (moveSrc d) false ++ rows (moveDst d) true
  | 0x02 => one 8 (d.u 24 8) true
  | 0x03 => one 8 (atomicSize (d.u 16 1)) true
  | 0x05 => one 8 (d.u 16 8) false
  | 0x07 => one 24 (d.u 32 8) false
  | 0x10 => one 16 (512 + 32 * d.u 10 2) false
  | 0x12 => one 16 (32 * d.seqCount) false
  | 0x13 =>
    let p0 := d.u 24 4 / 64
    let n := (d.u 24 4 + d.u 28 2 - 1) / 64 + 1 - p0
    one 8 64 false ++ [⟨addrOf (d.u 8 8) + 64 + 8 * p0, 8 * n, 1, 0, false⟩]
  | _ => []

/-- The segments whose entries a descriptor's snapshot holds (R107). -/
def State.snapshotOf (s : State) (d : Desc) : List SegEnt :=
  let all := s.validSegs d.client
  if readsAddresses d.op then all else all.filter fun e => (rangesOf d).any fun t => e.holds t.va

/-- The status that refuses a well-formed descriptor before its ranges are looked at: SEG_SYNC without privilege or across quadrants (R82), or work of a client that is not a tenant (Table SE-7). -/
def State.refusedAtIssue (s : State) (d : Desc) : Nat :=
  if d.op = 0x06 && (!s.on (clientReg d.client) Fld.QUE_CLIENT_priv || syncClient d % 4 != d.key.q.val) then 0x3002
  else if 0x10 ≤ d.op && s.sealed && !s.isTenant d.client then 0xA001
  else 0

/-- A descriptor issues: its issue instant and order are taken, for a paired client its journal slot is written, and the client of a FENCE or PUBLISH is held (R83, R86, R305, R423). -/
def State.markIssued (s : State) (d : Desc) : State :=
  let s := s.setDesc d
  let s : State := { s with que := { s.que with order := s.que.order + 1 } }
  let s := s.observe 5 d.key.q 0x101 1 d.work
    (leBytes 4 d.key.seq ++ [BitVec.ofNat 8 d.op, BitVec.ofNat 8 (d.key.j % 8)] ++ leBytes 2 (d.u 2 2))
  if s.paired d.client then
    let (s, ids) := s.journal d [] 1 0 [] []
    s.setDesc { d with waits := ids }
  else s

/-- A descriptor that issues and ends at once with a status, work of it undone (R91). -/
def State.issueEnd (s : State) (d : Desc) (status detail : Nat) : State :=
  let s := s.markIssued d
  match s.desc d.key with
  | some d => s.endDesc d status 0 detail
  | none => s

/-- Whether a bind fill runs: fetched descriptors are held until the Bezel is BOUND (R445). -/
def State.bindFilling (s : State) : Bool :=
  match s.sec.job with
  | some (.bindFill _) => true
  | _ => false

/-- Whether the queue engine may issue a descriptor now (R86, R87, R412, R423, R445, R473, R477). A descriptor that is still reading what its issue needs holds those after it in its queue pair (R83, R108). -/
def State.mayIssue (s : State) (d : Desc) : Bool :=
  let (q, j) := (d.key.q.val, d.key.j.val)
  s.engineUp q && !s.hung q && !s.bindFilling && !s.on (Reg.QUE_QP_CTL q j) Fld.QUE_QP_CTL_busy && s.runs d.client &&
  !(s.que.fences.any fun f => f.client == d.client) && !((s.qpDescs q j).any Desc.issuing) &&
  decide (s.inflight q j < s.fld (Reg.QUE_QP_CFG q j) Fld.QUE_QP_CFG_max_inflight) && decide (s.quadInflight q < 4096) &&
  !(s.paired d.client && (s.qpDescs q j).any fun x => x.phase != .fetched && x.key.seq % 64 == d.key.seq % 64)

/-- DESCRIPTOR_ISSUE: the next fetched descriptor of a queue pair is checked, and its translation and leases are snapshotted (R83, R91, R106, R107). A bitmap line that is missing makes it wait (R108). -/
def descriptorIssueEff (q : Quad) (j : Fin 1024) (s : State) : State :=
  match (s.qpDescs q j).find? fun d => d.phase == .fetched with
  | none => s
  | some d =>
    if !s.mayIssue d then s
    else
      let d := { d with phase := .issued, issueNt := if d.journal = 2 then d.issueNt else s.nt, order := s.que.order + 1, journal := 0 }
      if s.bezel = 2 then s.issueEnd d 0xA002 0
      else if malformed d != 0 then s.issueEnd d (malformed d) 0
      else if s.refusedAtIssue d != 0 then s.issueEnd d (s.refusedAtIssue d) 0
      else
        let d := { d with snap := s.snapshotOf d }
        match s.issueChecks d.key d ((rangesOf d).map fun t => [t]) with
        | (s, none) => s
        | (s, some (some (st, detail))) => s.issueEnd d st detail
        | (s, some none) =>
          let d := d.leasesOf ((rangesOf d).map fun t => [t])
          let s := s.markIssued d
          if d.op = 0x04 || d.op = 0x07 then s.holdClient d else s

def execDescriptorIssue (q : Quad) (j : Fin 1024) (s : State) : Result := .next (descriptorIssueEff q j s)

/-- Whether an opcode is one of those that run one at a time in the package (R215, R426). -/
def exclusive (op : Nat) : Bool := op == 0x10 || op == 0x11 || op == 0x12

/-- Whether one descriptor comes before another in the order of R215. -/
def issuedBefore (a b : Desc) : Bool :=
  decide (a.issueNt < b.issueNt) ||
  (a.issueNt == b.issueNt && (decide (a.key.q < b.key.q) || (a.key.q == b.key.q && decide (a.order < b.order))))

/-- Whether the unit that executes an opcode accepts descriptors. DEDUCED: MOVE and FILL need the movers of their own quadrant, attention and expert batches the Settings of every quadrant (FAC_CTL.enable, assumption 83). A RECIPE_RUN waits for RCP_CTL.enable, attention for ATN_CTL.enable, expert batches for EXD_CTL.enable, and shared-region work for SHR_CTL.enable (Tables RC-11, EX-10, AT-9, SH-5). -/
def State.accepts (s : State) (d : Desc) : Bool :=
  let q := d.key.q.val
  if d.op = 0x10 then s.on (Reg.RCP_CTL q) Fld.RCP_CTL_enable
  else if d.op = 0x12 || d.op = 0x13 then s.on (Reg.ATN_CTL q) Fld.ATN_CTL_enable && s.settingsAccept
  else if d.op = 0x11 then s.on (Reg.EXD_CTL q) Fld.EXD_CTL_enable && s.settingsAccept
  else if d.op = 0x01 || d.op = 0x02 then s.on (Reg.FAC_CTL q) Fld.FAC_CTL_enable
  else if d.op = 0x05 || d.op = 0x08 then s.on (Reg.SHR_CTL q) Fld.SHR_CTL_enable
  else true

/-- Whether an issued descriptor may start (R83, R85, R215, R305, R423). -/
def State.mayStart (s : State) (d : Desc) : Bool :=
  let peers := (s.qpDescs d.key.q d.key.j).filter fun x => decide (x.order < d.order) && x.phase != .fetched
  s.engineUp d.key.q && d.phase == .issued && !s.mirrorOpen d.waits &&
  !(peers.any fun x => x.phase == .issued && !(x.flag 1 && (peers.any fun y => decide (y.order < x.order)))) &&
  (!d.flag 1 || peers.isEmpty) && (d.op != 0x07 || s.earlierDone d) && (!readsAddresses d.op || d.progress == 1) && s.accepts d &&
  (!exclusive d.op || !(s.que.descs.any fun x => exclusive x.op &&
    (x.phase == .started || ((x.phase == .issued || x.journal == 2) && issuedBefore x d))))

/-- DESCRIPTOR_START: the executing unit accepts an issued descriptor (R83, R85). -/
def descriptorStartEff (k : DescKey) (s : State) : State :=
  match s.desc k with
  | none => s
  | some d => if s.mayStart d then s.setDesc { d with phase := .started, progress := 0, waits := [] } else s

def execDescriptorStart (k : DescKey) (s : State) : Result := .next (descriptorStartEff k s)

/-- Whether a write of a descriptor to its client's node has not been acknowledged (R84). -/
def State.writesOpen (s : State) (k : DescKey) : Bool := !(s.operandWrites k fun _ => true).isEmpty

/-- The completion of a descriptor written: it leaves the queue engine (R78, R84, R86). -/
def State.retireDesc (s : State) (d : Desc) : State :=
  let (q, j) := (d.key.q.val, d.key.j.val)
  let s : State := { s with que := { s.que with
    descs := s.que.descs.filter fun (x : Desc) => x.key != d.key
    fences := s.que.fences.filter fun f => f.key != d.key
    syncs := s.que.syncs.filter fun y => y.key != d.key
    written := mset (fun _ => 0) s.que.written (q * 1024 + j) (s.cqWritten q j + 1)
    announces := s.que.announces ++ (if d.flag 0 && s.on (Reg.QUE_QP_EV q j) Fld.QUE_QP_EV_enable then [⟨d.key, d.u 2 2, d.status⟩] else []) } }
  let s := s.observe 5 q 0x102 1 d.work
    (leBytes 4 d.key.seq ++ leBytes 2 d.status ++ [BitVec.ofNat 8 (j % 8), 0] ++ leBytes 4 (d.result % 2 ^ 32))
  s.feedWatchdog q

/-- COMPLETION_WRITE: every write of a descriptor is visible, and its completion is written to its slot (R78, R79, R84), not before start-up is complete (R43); for a paired client after its journal slot (R423). -/
def completionWriteEff (k : DescKey) (env : Env) (s : State) : State :=
  match s.desc k with
  | none => s
  | some d =>
    if d.phase != .ended || !s.engineUp k.q || s.doneStep < 13 || s.mirrorOpen d.waits || s.writesOpen k then s
    else
      let cpl := s.completionBytes d d.status d.result d.detail
      if s.paired d.client && d.journal = 0 then
        let (s, ids) := s.journal d cpl 4 0 [] []
        s.setDesc { d with journal := 1, waits := ids }
      else
        let base := (s.reg (Reg.QUE_QP_CQ_BASE k.q k.j)).toNat
        match s.ringWrite env d.client (base + k.seq % 2 ^ s.ringLog k.q k.j * 32) cpl (.completion k.q k.j k.seq) with
        | (s, true) => s.retireDesc d
        | (s, false) => s

def execCompletionWrite (k : DescKey) (env : Env) (s : State) : Result := .next (completionWriteEff k env s)

/-- The 16 bytes of an event message (R89). -/
def messageBytes (a : Announce) : List Byte :=
  leBytes 2 a.tag ++ leBytes 2 a.status ++ leBytes 4 a.key.seq ++ leBytes 2 (keyClient a.key) ++ leBytes 1 (a.key.j % 8) ++ List.replicate 5 0

/-- EVENT_MESSAGE: the completion is visible, and its event message is written (R89). -/
def eventMessageEff (k : DescKey) (env : Env) (s : State) : State :=
  match s.que.announces.find? fun a => a.key == k with
  | none => s
  | some a =>
    let mine (p : Purpose) : Bool := p == .completion k.q k.j k.seq
    if !s.engineUp k.q || (s.router.tags.any fun t => mine t.purpose) || (s.router.waiting.any fun w => mine w.2.2.1) then s
    else
      match s.ringWrite env (keyClient k) (s.fld (Reg.QUE_QP_EV k.q k.j) Fld.QUE_QP_EV_target) (messageBytes a) (.event k.q k.j k.seq) with
      | (s, true) => { s with que := { s.que with announces := s.que.announces.erase a } }
      | (s, false) => s

def execEventMessage (k : DescKey) (env : Env) (s : State) : Result := .next (eventMessageEff k env s)

end Sys2Proof.Machine
end

