-- ==== Sys2Proof/Machine/Shared.lean ====
section
/-! DEFINITION. Shared regions, leases and flushes, and the end of a loss event (R301 to R315, R337). -/

namespace Sys2Proof.Machine

open Sys2Proof

/-- The fold of a region ID into 16 bits (R301). -/
def regionFold (id : Nat) : Nat := bitsAt id 0 16 ^^^ bitsAt id 16 16 ^^^ bitsAt id 32 16 ^^^ bitsAt id 48 16

/-- The home quadrant of a region (R301). -/
def regionHome (id : Nat) : Nat := regionFold id % 4

/-- PA of the record of a way of a region's bucket (R301). -/
def State.recordAt (s : State) (id w : Nat) : Nat :=
  s.fld (Reg.SHR_RGN_BASE (regionHome id)) Fld.SHR_RGN_BASE_base + regionFold id / 4 * 128 + w * 32

/-- A region record (Table SH-1). -/
structure Region where
  id : Nat
  version : Nat
  valid : Bool
  publisher : Nat
  extent : Nat
  len : Nat
deriving DecidableEq, Repr

/-- The record in 32 bytes (Table SH-1). -/
def regionOf (bs : List Byte) : Region :=
  ⟨leAt bs 0 8, leAt bs 8 4, (leAt bs 12 1).testBit 0, leAt bs 14 2, leAt bs 16 8 % 2 ^ 44, leAt bs 24 8⟩

/-- The 32 bytes of a record (Table SH-1). -/
def regionBytes (r : Region) : List Byte :=
  leBytes 8 r.id ++ leBytes 4 r.version ++ leBytes 1 (bit r.valid) ++ [0] ++ leBytes 2 r.publisher ++ leBytes 8 r.extent ++ leBytes 8 r.len

/-- The version after a version (R304). -/
def nextVersion (v : Nat) : Nat := if v % 2 ^ 32 = 2 ^ 32 - 1 then 1 else v + 1

/-- A region's bucket as read: its 128 bytes, and whether a granule of it was reconstructed (R301, R15). -/
structure RegionBucket where
  bytes : List Byte
  rebuilt : Bool
deriving DecidableEq, Repr

/-- A record of a bucket. -/
def RegionBucket.record (b : RegionBucket) (w : Nat) : Region := regionOf (slice b.bytes (32 * w) 32)

/-- The four records of a bucket. -/
def RegionBucket.records (b : RegionBucket) : List Region := (List.range 4).map b.record

/-- The 64-byte line of a bucket that holds way w, with a record written into the way (R302). -/
def RegionBucket.lineWith (b : RegionBucket) (w : Nat) (r : Region) : List Byte :=
  slice (splice b.bytes (32 * w) (regionBytes r)) (64 * (w / 2)) 64

/-- A region's bucket; none while it is held, an error where it cannot be read. -/
def State.bucket (s : State) (env : Env) (id : Nat) : State × Option (Except Nat RegionBucket) :=
  match s.poolRead env .home [regionFold id, 5] (s.recordAt id 0) 128 with
  | (s, .held) => (s, none)
  | (s, .fail st _) => (s, some (.error st))
  | (s, .ok bs rebuilt _) => (s, some (.ok ⟨bs, rebuilt⟩))

/-- The way of a bucket that holds a region. -/
def wayOf (rs : List Region) (id : Nat) : Option Nat := rs.findIdx? fun r => r.valid && r.id == id

/-- The line of a record written at the home as one aligned 64-byte write: cached copies are recalled first (R302). None while the home cannot serve it. -/
def State.writeRegion (s : State) (env : Env) (line : Nat) (data : List Byte) (both : Bool) : Option (State × PoolSeen × List Nat) :=
  match s.serve env ⟨.agent 15, 0, .recall, line, 0, []⟩ with
  | none => none
  | some (s, _) => some (s.writePool env.ecc (64 * line) data both)

/-- The result and version of a region action (Table SH-2). -/
def State.regionResult (s : State) (q code : Nat) (version : Option Nat) : State :=
  let s := s.setFld (Reg.SHR_RGN_CTL q) Fld.SHR_RGN_CTL_result code
  match version with
  | some v => s.setFld (Reg.SHR_RGN_CTL q) Fld.SHR_RGN_CTL_version v
  | none => s

/-- A region action: create 1, delete 2, bump 3 (R303, Table SH-2); the state with what it has met so far, and none while the home cannot carry it out. A table that cannot be read leaves the result open. -/
def State.regionAction (s : State) (env : Env) (q action id : Nat) : State × Option State :=
  if regionHome id != q then (s, some (s.regionResult q 4 none))
  else
    match s.bucket env id with
    | (s', none) => (s', none)
    | (s', some (.error _)) =>
      let (n, s') := s'.draw
      (s', some (s'.regionResult q (Config.free n % 8) none))
    | (s', some (.ok b)) =>
      let put (w : Nat) (r : Region) : State × Option State :=
        (s, (s'.writeRegion env (s.recordAt id w / 64) (b.lineWith w r) false).map fun x => x.1.regionResult q 0 (some r.version))
      match action, wayOf b.records id with
      | 1, some _ => (s', some (s'.regionResult q 1 none))
      | 1, none =>
        match b.records.findIdx? fun r => !r.valid with
        | some w => put w ⟨id, 0, true, 0xFFFF, 0, 0⟩
        | none => (s', some (s'.regionResult q 2 none))
      | 2, some w => put w { b.record w with valid := false }
      | 3, some w => put w { b.record w with version := nextVersion (b.record w).version, publisher := 0xFFFF }
      | _, _ => (s', some (s'.regionResult q 3 none))

/-- A region action begun, or held at its home and tried again (R303): SHR_RGN_CTL.busy stays 1 until it has been carried out. -/
def State.tryAction (s : State) (a : HeldAction) : State :=
  let drop (s : State) : State := { s with coh := { s.coh with actions := s.coh.actions.filter fun x => x.q != a.q } }
  match s.regionAction a.env a.q a.action a.id with
  | (_, some s') => (drop s').setFld (Reg.SHR_RGN_CTL a.q) Fld.SHR_RGN_CTL_busy 0
  | (s', none) =>
    let s' := s'.setFld (Reg.SHR_RGN_CTL a.q) Fld.SHR_RGN_CTL_busy 1
    if s'.coh.actions.any fun x => x.q == a.q then s' else { s' with coh := { s'.coh with actions := s'.coh.actions ++ [a] } }

/-- The region actions that wait at their homes tried again, in their order of arrival. -/
def State.retryActions (s : State) : State :=
  if s.workStopped then s else s.coh.actions.foldl State.tryAction s

/-- A write of SHR_RGN_CTL (Table SH-5). -/
def regionCtlWrite (path : Path) (q : Nat) (value : Word) (env : Env) (s : State) : State :=
  let off := Reg.SHR_RGN_CTL q
  let action := getF value Fld.SHR_RGN_CTL_action
  if action = 0 then s
  else if s.on off Fld.SHR_RGN_CTL_busy || !s.on (Reg.SHR_CTL q) Fld.SHR_CTL_enable then s.logViol path 4 off
  else s.tryAction ⟨q, action, (s.reg (Reg.SHR_RGN_ID q)).toNat, env⟩

def execRegionCreate (path : Path) (q : Quad) (value : Word) (env : Env) (s : State) : Result :=
  .next (regionCtlWrite path q (setF value Fld.SHR_RGN_CTL_action 1) env s)

def execRegionDelete (path : Path) (q : Quad) (value : Word) (env : Env) (s : State) : Result :=
  .next (regionCtlWrite path q (setF value Fld.SHR_RGN_CTL_action 2) env s)

def execRegionBump (path : Path) (q : Quad) (value : Word) (env : Env) (s : State) : Result :=
  .next (regionCtlWrite path q (setF value Fld.SHR_RGN_CTL_action 3) env s)

/-- A commit or a loss counted at a region's home. -/
def State.countPublish (s : State) (home : Nat) (won : Bool) : State :=
  if won then s.countWrap (Reg.SHR_CNT home) Fld.SHR_CNT_published 1 else s.countSat (Reg.SHR_CNT home) Fld.SHR_CNT_lost 1

/-- PUBLISH at the region's home: a new version where the record holds the expected one (R305, R306). It waits for an action on the region that arrived before it (R303), and while the home accepts no shared-region work (Table SH-5). For a paired client the journal's steps surround the write (R423). -/
def publishEff (k : DescKey) (env : Env) (s : State) : State :=
  match s.jobOf k 0x07 with
  | none => s
  | some d =>
    let id := d.u 8 8
    let home := regionHome id
    let expected := d.u 16 4
    if !s.earlierDone d then s
    else if d.progress != 0 then s.applyJournalled env k fun s => s.countPublish home true
    else if !s.on (Reg.SHR_CTL home) Fld.SHR_CTL_enable || s.coh.actions.any fun a => a.id == id then s
    else
      match s.bucket env id with
      | (s', none) => s'
      | (s', some (.error _)) => s'.endDesc d 0x8004 0 0
      | (s', some (.ok b)) =>
        let d := { d with rebuilt := d.rebuilt || b.rebuilt }
        match wayOf b.records id with
        | none => s'.endDesc d 0x8004 0 0
        | some w =>
          let r := b.record w
          let pa := s.recordAt id w
          if r.version != expected then (s'.countPublish home false).endDesc d 0x5001 0 r.version
          else
            let va := addrOf (d.u 24 8)
            match segOf d.snap va with
            | none => s'.endDesc d 0x8004 0 0
            | some e =>
              let new : Region := ⟨id, nextVersion expected, true, d.client, e.paOf va, d.u 32 8⟩
              if s.paired d.client then
                match s'.serve env ⟨.agent 15, 0, .recall, pa / 64, 0, []⟩ with
                | none => s
                | some (s2, _) =>
                  (s2.startJournalled { d with result := new.version }
                    ⟨pa, regionBytes new, slice b.bytes (32 * w) 32, pa / 64 * 64, b.lineWith w new⟩).applyJournalled env k
                    fun s => s.countPublish home true
              else
                match s'.writeRegion env (pa / 64) (b.lineWith w new) true with
                | none => s
                | some (s2, seen, ids) =>
                  if seen.lost then s2.endDesc d 0x6001 0 0
                  else (s2.countPublish home true).endDesc { d with waits := ids, rebuilt := d.rebuilt || seen.rebuilt } 0 new.version 0

def execPublish (k : DescKey) (env : Env) (s : State) : Result := .next (publishEff k env s)

/-- The directory lookups of a FLUSH counted: of each line of a range of at most 1 MiB; for a larger range the slices are walked (R314). -/
def State.countFlush (s : State) (lo n : Nat) (served : List Nat) : State :=
  if 2 ^ 14 < n then s
  else
    (List.range n).foldl (fun (s : State) i =>
      match s.homeOf (lo + i) with
      | some q => if served.contains (lo + i) then s else s.countLookup q
      | none => s) s

/-- FLUSH writes back every modified or owned line of its range (R313). -/
def flushEff (k : DescKey) (env : Env) (s : State) : State :=
  match s.jobOf k 0x05 with
  | none => s
  | some d =>
    let va := addrOf (d.u 8 8)
    match segOf d.snap va with
    | none => s.endDesc d 0 0 0
    | some e =>
      let lo := e.paOf va / 64
      let hi := (e.paOf va + d.u 16 8 - 1) / 64
      let lines := ((List.range 4).flatMap fun q => s.coh.dir.getD q []).filterMap fun x =>
        if 2 ≤ x.state && lo ≤ x.line && x.line ≤ hi && (s.homeOf x.line).isSome then some x.line else none
      match lines.foldl (fun (a : Option (State × List Nat)) l =>
        match a with
        | none => none
        | some (s, ids) => (s.serve env ⟨.agent 15, 0, .flush, l, 0, []⟩).map fun r => (r.1, ids ++ r.2.ids)) (some (s, [])) with
      | none => s
      | some (s', ids) => (s'.countFlush lo (hi + 1 - lo) lines).endDesc { d with waits := d.waits ++ ids } 0 0 0

def execFlush (k : DescKey) (env : Env) (s : State) : Result := .next (flushEff k env s)

/-- The expiry, in ms of NT, that a renewal of D ms computes from an issue instant (R308). -/
def renewTo (issueNt d : Nat) : Nat := cdiv (issueNt + d * 1000000) 1000000

/-- A LEASE_RENEW refused with a status; class 4 is counted (Table SH-5). -/
def State.refuseRenew (s : State) (d : Desc) (status : Nat) : State :=
  (if status / 0x1000 = 4 then s.countSat (Reg.SHR_CNT d.key.q) Fld.SHR_CNT_renew_refused 1 else s).endDesc d status 0 0

/-- LEASE_RENEW creates or extends a lease entry, or is refused (R307, R308). -/
def leaseRenewEff (k : DescKey) (s : State) : State :=
  match s.jobOf k 0x08 with
  | none => s
  | some d =>
    let q := k.q.val
    let c := d.client
    let id := d.u 8 8
    let dur := if d.u 16 4 = 0 then s.fld (Reg.SHR_CTL q) Fld.SHR_CTL_default_ms else d.u 16 4
    let ms := renewTo d.issueNt dur
    match s.leaseOf c id with
    | some e =>
      let w := s.reg (Reg.SHR_LEASE1 q e)
      let old := getF w Fld.SHR_LEASE1_expiry_ms
      if getF w Fld.SHR_LEASE1_state != 1 || old * 1000000 ≤ d.issueNt then s.refuseRenew d 0x4001
      else
        let new := max old ms
        (s.setFld (Reg.SHR_LEASE1 q e) Fld.SHR_LEASE1_expiry_ms new).endDesc d 0 (new * 1000000) 0
    | none =>
      if !(s.validSegs c).any fun x => x.lease == id then s.refuseRenew d 0x4002
      else
        match (List.range 256).find? fun e => s.fld (Reg.SHR_LEASE1 q e) Fld.SHR_LEASE1_state == 0 with
        | none => s.refuseRenew d 0x9002
        | some e =>
          let s := s.setReg (Reg.SHR_LEASE0 q e) (BitVec.ofNat 64 id)
          let w := setF (setF (setF 0 Fld.SHR_LEASE1_client c) Fld.SHR_LEASE1_state 1) Fld.SHR_LEASE1_expiry_ms ms
          ((s.setReg (Reg.SHR_LEASE1 q e) w).noteSegs c).endDesc d 0 (ms * 1000000) 0

def execLeaseRenew (k : DescKey) (s : State) : Result := .next (leaseRenewEff k s)

/-- A lease event (0x0B01). -/
def State.leaseEvent (s : State) (q e : Nat) (skipped : Bool) : State :=
  let w := s.reg (Reg.SHR_LEASE1 q e)
  s.raise 0x0B01 5 q ([BitVec.ofNat 8 q, BitVec.ofNat 8 e] ++ leBytes 2 (getF w Fld.SHR_LEASE1_client) ++
    [BitVec.ofNat 8 (getF w Fld.SHR_LEASE1_state), BitVec.ofNat 8 (bit skipped)])

/-- A lease entry enters DRAINING (Table SH-3). -/
def State.drainLease (s : State) (q e : Nat) : State :=
  let s := s.setFld (Reg.SHR_LEASE1 q e) Fld.SHR_LEASE1_state 2
  (s.countSat (Reg.SHR_CNT q) Fld.SHR_CNT_expired 1).leaseEvent q e false

/-- The state of a lease entry (Table SH-6). -/
def State.leaseState (s : State) (q e : Nat) : Nat := s.fld (Reg.SHR_LEASE1 q e) Fld.SHR_LEASE1_state

/-- LEASE_EXPIRY: NT reaches the expiry of an ACTIVE entry; entries of paired clients wait for the takeover (R310, R424). -/
def leaseExpiryEff (q : Quad) (e : Fin 256) (s : State) : State :=
  let w := s.reg (Reg.SHR_LEASE1 q e)
  if getF w Fld.SHR_LEASE1_state = 1 && getF w Fld.SHR_LEASE1_expiry_ms * 1000000 ≤ s.nt && !s.workStopped &&
      s.serves (getF w Fld.SHR_LEASE1_client) then s.drainLease q e
  else s

def execLeaseExpiry (q : Quad) (e : Fin 256) (s : State) : Result := .next (leaseExpiryEff q e s)

/-- A write of SHR_LEASE_CTL: release of a RECLAIMED entry, revoke of an ACTIVE one; else ignored and logged (Table SH-5). -/
def leaseCtlWrite (path : Path) (q : Nat) (value : Word) (s : State) : State :=
  let off := Reg.SHR_LEASE_CTL q
  let s := s.writeFields path off value
  let e := getF value Fld.SHR_LEASE_CTL_index
  let s := if getF value Fld.SHR_LEASE_CTL_release = 1 then
      (if s.leaseState q e = 4 then (s.setReg (Reg.SHR_LEASE0 q e) 0).setReg (Reg.SHR_LEASE1 q e) 0 else s.logViol path 4 off)
    else s
  if getF value Fld.SHR_LEASE_CTL_revoke = 1 then
    (if s.leaseState q e = 1 then
      (s.setFld (Reg.SHR_LEASE1 q e) Fld.SHR_LEASE1_expiry_ms (s.nt / 1000000)).drainLease q e
    else s.logViol path 4 off)
  else s

def execLeaseRevoke (path : Path) (q : Quad) (value : Word) (s : State) : Result :=
  .next (leaseCtlWrite path q (setF value Fld.SHR_LEASE_CTL_revoke 1) s)

def execLeaseRelease (path : Path) (q : Quad) (value : Word) (s : State) : Result :=
  .next (leaseCtlWrite path q (setF value Fld.SHR_LEASE_CTL_release 1) s)

/-- The present pages of a segment, as pool addresses: every bitmap line is read; none while one is held, and the Boolean says that one could not be read (R312). -/
def State.presentPages (s : State) (env : Env) (e : SegEnt) : State × Option (List Nat × Bool) :=
  let n := e.len / pageSize
  (List.range (cdiv n 512)).foldl (fun (a : State × Option (List Nat × Bool)) i =>
    match a.2 with
    | none => a
    | some (pages, skipped) =>
      match a.1.poolRead env .lineCache [e.bitmap, i, 6] (e.bitmap + 64 * i) 64 with
      | (s, .held) => (s, none)
      | (s, .fail _ _) => (s, some (pages, true))
      | (s, .ok bs _ _) =>
        let here := (List.range (min 512 (n - 512 * i))).filter fun p => pageBit bs (512 * i + p)
        (s, some (pages ++ here.map fun p => e.pa + (512 * i + p) * pageSize, skipped))) (s, some ([], false))

/-- The pages that the fill of a lease writes (R312). -/
def State.leasePages (s : State) (env : Env) (c id : Nat) : State × Option (List Nat × Bool) :=
  ((s.validSegs c).filter fun x => x.lease == id).foldl (fun (a : State × Option (List Nat × Bool)) e =>
    match a.2 with
    | none => a
    | some (pages, skipped) =>
      match a.1.presentPages env e with
      | (s, none) => (s, none)
      | (s, some (p, b)) => (s, some (pages ++ p, skipped || b))) (s, some ([], false))

/-- LEASE_DRAIN_COMPLETE: the client's descriptors that issued before the expiry have completed, those that a takeover re-executes among them (Table SH-3, R426). -/
def leaseDrainCompleteEff (q : Quad) (e : Fin 256) (env : Env) (s : State) : State :=
  let w := s.reg (Reg.SHR_LEASE1 q e)
  let c := getF w Fld.SHR_LEASE1_client
  let expiry := getF w Fld.SHR_LEASE1_expiry_ms * 1000000
  if getF w Fld.SHR_LEASE1_state != 2 || s.workStopped || !s.runs c ||
      s.que.descs.any fun d => d.client == c && (d.phase != .fetched || d.journal == 2) && decide (d.issueNt < expiry) then s
  else if !s.on (Reg.SHR_CTL q) Fld.SHR_CTL_zero_fill then
    (s.setFld (Reg.SHR_LEASE1 q e) Fld.SHR_LEASE1_state 4).leaseEvent q e false
  else
    match s.leasePages env c (s.reg (Reg.SHR_LEASE0 q e)).toNat with
    | (s', none) => s'
    | (s', some (pages, skipped)) =>
      let f : LeaseFill := ⟨q, e, pages, skipped⟩
      let s' := s'.setFld (Reg.SHR_LEASE1 q e) Fld.SHR_LEASE1_state 3
      { s' with leaseFills := s'.leaseFills ++ [f] }

def execLeaseDrainComplete (q : Quad) (e : Fin 256) (env : Env) (s : State) : Result :=
  .next (leaseDrainCompleteEff q e env s)

/-- A range written with zero through its homes; none while a line of it is held. A line whose write is dropped is passed over, and a range in a disabled slab is counted and left (R132, R145). The first argument bounds the lines. -/
def State.zeroRange (env : Env) : Nat → State → Nat → Nat → Option State
  | 0, s, _, _ => some s
  | lines + 1, s, pa, n =>
    match s.poolWrite env .home pa (List.replicate n 0) with
    | (_, .held) => none
    | (s', .ok _ _ _) => some s'
    | (s', .fail status done) =>
      if status = 0x8004 || n ≤ done + 64 then some s' else State.zeroRange env lines s' (pa + done + 64) (n - done - 64)

/-- The pages of a fill written with zero (R312). -/
def State.zeroPages (s : State) (env : Env) (pages : List Nat) : Option State :=
  pages.foldl (fun (a : Option State) pa => a.bind fun s => s.zeroRange env (pageSize / 64) pa pageSize) (some s)

/-- LEASE_FILL_COMPLETE: every page is zero and the entry is RECLAIMED (R312). -/
def leaseFillCompleteEff (q : Quad) (e : Fin 256) (env : Env) (s : State) : State :=
  match s.leaseFills.find? fun f => f.q == q.val && f.e == e.val with
  | none => s
  | some f =>
    if s.workStopped then s
    else
      match s.zeroPages env f.pages with
      | none => s
      | some s' =>
        let s' := { s' with leaseFills := s'.leaseFills.erase f }
        (s'.setFld (Reg.SHR_LEASE1 q e) Fld.SHR_LEASE1_state 4).leaseEvent q e f.skipped

def execLeaseFillComplete (q : Quad) (e : Fin 256) (env : Env) (s : State) : Result :=
  .next (leaseFillCompleteEff q e env s)

/-- Whether a loss event bumps a region: its extent holds a lost line, or a lost line was not logged (R337). -/
def lossTouches (l : Loss) (r : Region) : Bool :=
  r.valid && (decide (0 < l.spill) || l.lines.any fun x => decide (r.extent < 64 * x + 64) && decide (64 * x < r.extent + r.len))

/-- A bucket of a region table with each of its regions that a loss event touches bumped, one record at a time; none while the home is held. A bucket that cannot be read is passed over. -/
def State.bumpBucket (s : State) (env : Env) (l : Loss) (pa : Nat) : Option State :=
  match s.poolRead env .home [pa, 7] pa 128 with
  | (_, .held) => none
  | (s', .fail _ _) => some s'
  | (s', .ok bs _ _) =>
    ((List.range 4).foldl (fun (a : Option (State × RegionBucket)) w =>
      a.bind fun (s, b) =>
        let r := b.record w
        if lossTouches l r then
          let new := { r with version := nextVersion r.version, publisher := 0xFFFF }
          (s.writeRegion env (pa / 64 + w / 2) (b.lineWith w new) false).map fun x =>
            (x.1, { b with bytes := splice b.bytes (32 * w) (regionBytes new) })
        else some (s, b)) (some (s', ⟨bs, false⟩))).map (·.1)

/-- The region tables scanned, where they lie in enabled slabs, and every region that a loss event touches bumped; none while a bump cannot be written (R337). -/
def State.bumpRegions (s : State) (ecc : EccList) (l : Loss) : Option State :=
  (List.range 4).foldl (fun (a : Option State) q =>
    a.bind fun s =>
      let base := s.fld (Reg.SHR_RGN_BASE q) Fld.SHR_RGN_BASE_base
      if !s.inSlabs base (2 ^ 21) then some s
      else (List.range 16384).foldl (fun (a : Option State) i => a.bind fun s => s.bumpBucket ⟨[], false, [], ecc, []⟩ l (base + 128 * i))
        (some s)) (some s)

/-- LOSS_EVENT_COMPLETE: the regions are bumped, the event is raised, and the accesses that waited for the lost lines go on with status lost (R337, R338). -/
def lossEventCompleteEff (ecc : EccList) (s : State) : State :=
  if s.workStopped then s
  else
    match s.coh.losses.find? fun l => l.walked with
    | none => s
    | some l =>
      let held := s.coh.losses
      match ({ s with coh := { s.coh with losses := [] } } : State).bumpRegions ecc l with
      | none => s
      | some s =>
      let st := Reg.COH_LLL_STATUS 0
      let s := s.countWrap st Fld.COH_LLL_STATUS_events 1
      let s := s.raise 0x0801 7 0 ([BitVec.ofNat 8 (l.agents.headD (l.owners.headD 0)), 0] ++ leBytes 2 l.event ++ leBytes 4 l.logged ++ leBytes 2 l.spill)
      let keys := ((s.coh.txns.filter fun t => !t.dropped).map fun t => (t.req.line, [whoCode t.req.who, t.req.txn])) ++
        (s.coh.waiting.map fun r => (r.line, [whoCode r.who, r.txn]))
      let waits := keys.filter fun x => l.lines.contains x.1
      let s := { s with coh := { s.coh with losses := held.erase l, lossWaits := s.coh.lossWaits ++ waits } }
      let s := if s.coh.losses.isEmpty && (List.range 8).all fun a => s.agentState a != 2 then
          s.setFld (Reg.ILC_AGENT_CTL 0) Fld.ILC_AGENT_CTL_busy 0 else s
      l.lines.foldl (fun (s : State) x => s.tryFinish ecc x) s

def execLossEventComplete (ecc : EccList) (s : State) : Result := .next (lossEventCompleteEff ecc s)

end Sys2Proof.Machine
end

