-- ==== Sys2Proof/Machine/Pairing.lean ====
section
/-! DEFINITION. Active/standby pairing: heartbeats and roles, the mirror engine, fencing, claims, takeover, joining and handover (R411 to R433, R450). -/

namespace Sys2Proof.Machine

open Sys2Proof

/-- RTE_ALIAS.valid as pairing sets it (R411). -/
def State.setAlias (s : State) (v : Bool) : State := s.setBoth Reg.RTE_ALIAS Fld.RTE_ALIAS_valid (bit v)

/-- The pair partner. -/
def State.partner (s : State) : Nat := s.fld Reg.PAI_CTL Fld.PAI_CTL_partner

/-- The client of mirror and heartbeat packets. -/
def State.mirrorClient (s : State) : Nat := s.fld Reg.PAI_CTL Fld.PAI_CTL_mirror_client

/-- The pair term. -/
def State.term (s : State) : Nat := s.fld Reg.PAI_STATUS Fld.PAI_STATUS_term

/-- A raised write, WRITE_ACK or Ilcen answer is free of the mirror: doorbells take effect, an older one never over a newer (R74), and answers go out (R423, Table PF-3). -/
def State.releaseHeld (s : State) : State :=
  let open' (id : Nat) : Bool := s.pair.log.any fun r => r.id == id
  let bells := s.pair.doorbells.filter fun d => !open' d.id
  let answers := s.pair.answers.filter fun a => !a.1.any open'
  let grants := s.coh.heldGrants.filter fun g => !g.1.any open'
  let s : State := { s with
    pair := { s.pair with doorbells := s.pair.doorbells.filter fun d => open' d.id
                          answers := s.pair.answers.filter fun a => a.1.any open' }
    coh := { s.coh with heldGrants := s.coh.heldGrants.filter fun g => g.1.any open' } }
  let s := bells.foldl (fun (s : State) d =>
    let x := diff32 d.value (s.ptr d.q d.j d.tail)
    if x = 0 || 2 ^ 31 ≤ x then s else s.setPtr d.q d.j d.tail d.value) s
  let s := answers.foldl (fun (s : State) a => s.inject a.2.1 a.2.2) s
  grants.foldl (fun (s : State) g => s.emit g.2) s

/-- Whether a request was sent by the mirror engine. -/
def isMirror (p : Purpose) : Bool := match p with
  | .mirror _ _ _ => true
  | _ => false

/-- Nothing is mirrored any more: the log is empty, its requests are given up, and everything that was held is released. -/
def State.stopMirror (s : State) : State :=
  let s := (s.tagsFor isMirror).foldl (fun (s : State) t => s.releaseTag t.tag) s
  let s : State := { s with pair := { s.pair with log := [], copying := false } }
  s.releaseHeld

/-- The partner is given up: an ACTIVE node becomes SOLO, and a copy to a joining partner ends (Table PF-6, R420). -/
def State.goSolo (s : State) : State := (if s.role = 4 then s.setRole 5 else s).stopMirror

/-- The age of the oldest unsent range that a heartbeat states (Table PF-2). -/
def State.lagStated (s : State) : Nat := if s.role = 4 then s.mirrorLag % 2 ^ 32 else 0

/-- A heartbeat message of a kind: 0 BEAT, 1 CLAIM, 2 HANDOVER (Table PF-2). -/
def State.heartbeat (s : State) (kind : Nat) : List Byte :=
  let body := [(0x48 : Byte), 0x42] ++ leBytes 1 kind ++ leBytes 1 (s.role + (if s.bezel = 1 then 128 else 0)) ++ leBytes 2 s.node ++
    leBytes 2 (s.fld Reg.RTE_ALIAS Fld.RTE_ALIAS_alias) ++ leBytes 4 s.term ++ leBytes 4 s.pair.beats ++ leBytes 8 s.nt ++
    leBytes 4 s.lagStated
  body ++ leBytes 4 (crc32c body)

/-- A HEARTBEAT packet sent to a node (R415). -/
def State.sendHeartbeat (s : State) (dst : Nat) (msg : List Byte) : State :=
  s.inject 32 (s.originate s.mirrorClient dst opHeartbeat 3 (s.fld Reg.PAI_CFG Fld.PAI_CFG_hb_tc) 0 0 msg)

/-- A message sent on both paths. -/
def State.sendBoth (s : State) (kind : Nat) : State :=
  let msg := s.heartbeat kind
  let s := (s.emit (.heartbeat msg)).sendHeartbeat s.partner msg
  { s with pair := { s.pair with beats := (s.pair.beats + 1) % 2 ^ 32 } }

/-- Whether the heartbeat generator runs (R24, R43, R415, R488, Table PK-5). -/
def State.beating (s : State) : Bool :=
  s.role != 0 && s.pins.pwrok && s.pins.perstN && s.pins.thermN && !s.mgmt.stopped && !s.events.fatal && decide (13 ≤ s.doneStep)

/-- HEARTBEAT_TICK: a BEAT on both paths, every 100 µs of NT (R415). -/
def heartbeatTickEff (s : State) : State :=
  if !s.beating || s.nt < s.pair.nextBeat then s
  else { s.sendBoth 0 with pair := { (s.sendBoth 0).pair with nextBeat := s.nt + 100000 } }

def execHeartbeatTick (s : State) : Result := .next (heartbeatTickEff s)

/-- The STANDBY declares the active failed, or has been handed over to: it claims (R416, R431). -/
def State.claim (s : State) : State :=
  let s := s.setRole 3
  { s with pair := { s.pair with claimNt := s.nt, nextClaim := s.nt } }

/-- A descriptor is dropped without a completion, with what it was doing (R429). -/
def State.dropDesc (s : State) (k : DescKey) : State :=
  let s := s.releaseTiles k
  let s := match s.runOf k with
    | some _ => { s with rcp := { s.rcp with run := none, jobs := [], transfers := [], sums := [], sends := [], decoding := []
                                             channels := s.rcp.channels.filter fun c => c.key != k } }
    | none => s
  let s := s.dropUnits k
  { s with que := { s.que with
      descs := s.que.descs.filter fun (x : Desc) => x.key != k
      fences := s.que.fences.filter fun f => f.key != k
      syncs := s.que.syncs.filter fun y => y.key != k
      fills := s.que.fills.map fun (f : BmcFill) => { f with waiters := f.waiters.filter (· != k) } } }

/-- The work of paired clients ends: descriptors, fetches and announcements go, what they sent is given up, and the lines that their journalled operations held are free (R429). -/
def State.dropPaired (s : State) : State :=
  let mine (q j : Nat) : Bool := s.paired (clientOf q j)
  let sent (c : Nat) (p : Purpose) : Bool := s.paired c && !isMirror p
  let keys := (s.que.descs.filter fun d => s.paired d.client).map (·.key)
  let s := (s.router.tags.filter fun t => sent t.pkt.client t.purpose).foldl (fun (s : State) t => s.releaseTag t.tag) s
  let s : State := { s with
    router := { s.router with waiting := s.router.waiting.filter fun w => !sent w.2.1.client w.2.2.1 }
    que := { s.que with fetches := s.que.fetches.filter fun f => !mine f.q f.j
                        announces := s.que.announces.filter fun a => !mine a.key.q a.key.j }
    coh := { s.coh with txns := s.coh.txns.filter fun t => t.waiting != [(99, 0)] }
    pair := { s.pair with doorbells := [], answers := [] } }
  keys.foldl State.dropDesc s

/-- The node enters FENCED (R429). -/
def State.enterFenced (s : State) : State :=
  let s := ((s.setRole 6).setAlias false).dropPaired
  { s.stopMirror with pair := { s.stopMirror.pair with leaving := false, takeover := none } }

/-- A commit sets PAI_CTL.enable (Table PF-6). -/
def State.startPairing (s : State) : State :=
  let s : State := { s with pair := { s.pair with
    pinNt := s.nt, fabNt := s.nt, nextBeat := s.nt, partnerRole := 0, partnerSealed := false, leaving := false, takeover := none } }
  let s := (s.setFld Reg.PAI_STATUS Fld.PAI_STATUS_pin_ok 1).setFld Reg.PAI_STATUS Fld.PAI_STATUS_fab_ok 1
  if s.on Reg.PAI_CTL Fld.PAI_CTL_init_active then (s.setRole 5).setAlias true else (s.setRole 1).setAlias false

/-- A commit clears PAI_CTL.enable (Table PF-6). -/
def State.endPairing (s : State) : State :=
  let s := ((s.setRole 0).setAlias false).stopMirror
  let s : State := { s with pair := { s.pair with leaving := false, takeover := none, doorbells := [], answers := [] } }
  (s.setFld Reg.PAI_STATUS Fld.PAI_STATUS_pin_ok 0).setFld Reg.PAI_STATUS Fld.PAI_STATUS_fab_ok 0

/-- Whether a message is valid (R416). -/
def State.heartbeatValid (s : State) (m : List Byte) : Bool :=
  m.length == 32 && leAt m 0 2 == 0x4248 && leAt m 28 4 == crc32c (m.take 28) && leAt m 4 2 == s.partner &&
  leAt m 6 2 == s.fld Reg.RTE_ALIAS Fld.RTE_ALIAS_alias

/-- A path carries a valid message: it is not silent, with an event where it was (R416). -/
def State.pathAlive (s : State) (fabric : Bool) : State :=
  let f := if fabric then Fld.PAI_STATUS_fab_ok else Fld.PAI_STATUS_pin_ok
  let s : State := { s with pair := if fabric then { s.pair with fabNt := s.nt } else { s.pair with pinNt := s.nt } }
  if s.on Reg.PAI_STATUS f then s
  else (s.setFld Reg.PAI_STATUS f 1).raise 0x0C01 11 0 [BitVec.ofNat 8 (bit fabric), 0]

/-- What a valid message of the partner does to the roles (R417, R430, R450). -/
def State.heard (s : State) (m : List Byte) : State :=
  let term := leAt m 8 4
  let role := leAt m 3 1 % 8
  let isSealed := (leAt m 3 1).testBit 7
  let s : State := { s with pair := { s.pair with
    partnerRole := role, partnerSealed := isSealed, highTerm := max s.pair.highTerm term } }
  let s := if s.role = 1 || s.role = 2 then s.setFld Reg.PAI_STATUS Fld.PAI_STATUS_term term else s
  if 3 ≤ s.role && s.role ≤ 5 && s.term < term then s.enterFenced
  else if (s.role = 4 || s.pair.copying) && s.bezel = 1 && !isSealed then s.goSolo
  else if s.role = 5 && role = 1 && !s.pair.copying && (s.bezel != 1 || isSealed) then
    { s.setReg Reg.PAI_SYNC 0 with pair := { s.pair with copying := true } }
  else s

/-- A message received on a path: valid ones count as the partner's, others are discarded and counted (R416). -/
def State.hear (s : State) (fabric : Bool) (m : List Byte) : State :=
  if s.role = 0 then s
  else if s.heartbeatValid m then (s.pathAlive fabric).heard m
  else s.countSat Reg.PAI_CNT Fld.PAI_CNT_hb_bad 1

/-- The message of a heartbeat command, after the local port's checks where a packet brings it; none where nothing arrives. -/
def State.heartbeatOf (s : State) (src : HbSrc) : State × Option (Bool × List Byte) :=
  match src with
  | .pins m => (s, some (false, m))
  | .packet port p =>
    if s.coreStopped || p.opcode != opHeartbeat then (s, none)
    else
      let (s, ok) := (s.takeEjected port p).arrives p
      (s, if ok then some (true, p.payload) else none)

/-- BEAT: a message that is no HANDOVER (R416). -/
def beatEff (src : HbSrc) (s : State) : State :=
  match s.heartbeatOf src with
  | (s', some (fabric, m)) => if leAt m 2 1 = 2 then s else s'.hear fabric m
  | (s', none) => s'

def execBeat (src : HbSrc) (s : State) : Result := .next (beatEff src s)

/-- HANDOVER: a valid HANDOVER message makes a STANDBY claim at once (R431). -/
def handoverEff (src : HbSrc) (s : State) : State :=
  match s.heartbeatOf src with
  | (s', some (fabric, m)) =>
    if leAt m 2 1 != 2 then s
    else
      let ok := s'.heartbeatValid m
      let s := s'.hear fabric m
      if ok && s.role = 2 then s.claim else s
  | (s', none) => s'

def execHandover (src : HbSrc) (s : State) : Result := .next (handoverEff src s)

/-- What both paths silent does to a role (R416). DEDUCED: a JOINING node's pair event is that of the path that has gone silent last (assumption 94). -/
def State.bothSilent (s : State) : State :=
  if s.on Reg.PAI_STATUS Fld.PAI_STATUS_pin_ok || s.on Reg.PAI_STATUS Fld.PAI_STATUS_fab_ok then s
  else if s.role = 2 then (s.setReg Reg.PAI_DECLARE_NT (BitVec.ofNat 64 s.nt)).claim
  else if s.role = 4 then (s.setReg Reg.PAI_DECLARE_NT (BitVec.ofNat 64 s.nt)).goSolo
  else s

/-- PATH_SILENT: a path has carried no valid message for 800 µs (R416). -/
def pathSilentEff (fabric : Bool) (s : State) : State :=
  let f := if fabric then Fld.PAI_STATUS_fab_ok else Fld.PAI_STATUS_pin_ok
  if s.role = 0 || s.nt < (if fabric then s.pair.fabNt else s.pair.pinNt) + 800000 then s
  else
    let s := if s.on Reg.PAI_STATUS f then
        ((s.setFld Reg.PAI_STATUS f 0).setFld Reg.PAI_STATUS Fld.PAI_STATUS_degraded 1).raise 0x0C01 11 0 [BitVec.ofNat 8 (bit fabric), 1]
      else s
    s.bothSilent

def execPathSilent (fabric : Bool) (s : State) : Result := .next (pathSilentEff fabric s)

/-- CLAIM_TICK: a CLAIMING node sends a CLAIM to the fabric manager, every 100 µs over Quagen (R425). -/
def claimTickEff (s : State) : State :=
  if s.role != 3 || !s.beating || s.nt < s.pair.nextClaim then s
  else
    let s := s.sendHeartbeat (s.fld Reg.RTE_CTL Fld.RTE_CTL_fm_node) (s.heartbeat 1)
    { s with pair := { s.pair with beats := (s.pair.beats + 1) % 2 ^ 32, nextClaim := s.nt + 100000 } }

def execClaimTick (s : State) : Result := .next (claimTickEff s)

/-- CLAIM_TIMEOUT: no grant within claim_ms (R425). -/
def claimTimeoutEff (s : State) : State :=
  if s.role = 3 && s.pair.claimNt + s.fld Reg.PAI_CFG Fld.PAI_CFG_claim_ms * 1000000 ≤ s.nt then s.setRole 2 else s

def execClaimTimeout (s : State) : Result := .next (claimTimeoutEff s)

/-- The paired queue pairs: quadrant and local index. -/
def State.pairedQps (s : State) : List (Quad × Fin 1024) :=
  (List.finRange 4).flatMap fun (q : Quad) => ((List.finRange 1024).filter fun (j : Fin 1024) => s.paired (clientOf q.val j.val)).map fun (j : Fin 1024) => (q, j)

/-- The journal slots of a queue pair that are not empty, as seq and bytes, in ascending seq from the completion head (R426). -/
def State.journalSlots (s : State) (q j : Nat) : List (Nat × List Byte) :=
  let head := s.ptr q j false
  let all := (List.range 64).map fun i => s.peekPool (s.journalAt q j i) 256
  let kept := all.filterMap fun b => if leAt b 100 1 = 0 then none else some (leAt b 96 4, b)
  let start := diff32 head 64
  (List.range 64).foldl (fun l _ =>
    match kept.filter (fun x => !(l.any fun y => y.1 == x.1)) with
    | [] => l
    | x :: xs => l ++ [xs.foldl (fun best y => if diff32 y.1 start < diff32 best.1 start then y else best) x]) []

/-- The slots from the completion head on. -/
def State.journalFrom (s : State) (q j : Nat) : List (Nat × List Byte) :=
  (s.journalSlots q j).filter fun x => decide (diff32 x.1 (s.ptr q j false) < 2 ^ 31)

/-- The pointers of a paired queue pair as the mirrored records give them (R426). -/
def State.takeQp (s : State) (q j : Nat) : State :=
  let r := s.peekPool (s.queueRecordAt q j) 8
  let s := (s.setPtr q j true (leAt r 0 4)).setPtr q j false (leAt r 4 4)
  let next := match (s.journalSlots q j).getLast? with
    | some x => (x.1 + 1) % 2 ^ 32
    | none => 0
  let undone := ((s.journalFrom q j).filter fun x => leAt x.2 100 1 == 1).length
  let s := s.setFld (Reg.QUE_QP_SQ_PTR q j) Fld.QUE_QP_SQ_PTR_fetched next
  { s with que := { s.que with written := mset (fun _ => 0) s.que.written (q * 1024 + j) (diff32 next undone) } }

/-- Every free tag enters quarantine for 2 × the packet lifetime (R390, R426). Tags in use enter it when they are freed. -/
def State.quarantineAll (s : State) : State :=
  let until' := s.nt + s.quarantineNs
  let free := (List.range 4096).filter fun t => !(s.router.tags.any fun x => x.tag == t)
  { s with router := { s.router with quarantine := free.map fun t => (t, until') } }

/-- A grant makes the claimant the server of the alias (R425, R426). -/
def State.takeOver (s : State) : State :=
  let s := s.setFld Reg.PAI_STATUS Fld.PAI_STATUS_term (s.pair.highTerm + 1)
  let s := ((s.setRole (if s.pair.partnerRole = 2 then 4 else 5)).setAlias true).quarantineAll
  let s := s.countSat Reg.PAI_CNT Fld.PAI_CNT_takeovers 1
  let s : State := { s with pair := { s.pair with
    highTerm := (s.pair.highTerm + 1) % 2 ^ 32, takeover := some (s.nt + s.quarantineNs), leaving := false } }
  let s := s.pairedQps.foldl (fun (s : State) k => s.takeQp k.1 k.2) s
  (List.range 1024).foldl (fun (s : State) i =>
    let w := s.reg (Reg.SHR_LEASE1 (i / 256) (i % 256))
    if getF w Fld.SHR_LEASE1_state = 1 && s.paired (getF w Fld.SHR_LEASE1_client) && getF w Fld.SHR_LEASE1_expiry_ms * 1000000 ≤ s.nt then
      s.drainLease (i / 256) (i % 256)
    else s) s

/-- A planned handover begins: no descriptor of a paired client issues any more (R431). -/
def State.beginHandover (s : State) : State := { s with pair := { s.pair with leaving := true } }

/-- A write of PAI_CTL: fence, grant and handover (Table PF-8). -/
def paiCtlWrite (path : Path) (value : Word) (s : State) : State :=
  let s := s.writeFields path Reg.PAI_CTL value
  let s := if getF value Fld.PAI_CTL_fence = 1 && s.role != 0 && s.role != 6 then s.enterFenced else s
  let s := if getF value Fld.PAI_CTL_grant = 1 then (if s.role = 3 then s.takeOver else s.logViol path 4 Reg.PAI_CTL) else s
  if getF value Fld.PAI_CTL_handover = 1 then (if s.role = 4 then s.beginHandover else s.logViol path 4 Reg.PAI_CTL) else s

def execPaiGrant (path : Path) (value : Word) (s : State) : Result :=
  .next (paiCtlWrite path (setF value Fld.PAI_CTL_grant 1) s)

def execPaiFence (path : Path) (value : Word) (s : State) : Result :=
  .next (paiCtlWrite path (setF value Fld.PAI_CTL_fence 1) s)

def execPaiHandover (path : Path) (value : Word) (s : State) : Result :=
  .next (paiCtlWrite path (setF value Fld.PAI_CTL_handover 1) s)

/-- A completion that the journal holds is written again to its slot; false where the write is held (R426). -/
def State.rewriteCpl (s : State) (env : Env) (q j seq : Nat) (cpl : List Byte) : State × Bool :=
  let base := (s.reg (Reg.QUE_QP_CQ_BASE q j)).toNat
  s.ringWrite env (clientOf q j) (base + seq % 2 ^ s.ringLog q j * 32) cpl (.completion q j seq)

/-- A journal slot taken up: what was issued is to run again, what was applying is stored, and known completions are written again (R426). -/
def State.takeSlot (s : State) (env : Env) (q : Quad) (j : Fin 1024) (seq : Nat) (b : List Byte) : State × Bool :=
  let d := newDesc ⟨q, j, seq⟩ (slice b 0 64)
  let cpl := slice b 64 32
  let state := leAt b 100 1
  if state = 1 then
    let d := { d with issueNt := leAt b 104 8, journal := 2 }
    let s := s.countSat Reg.PAI_CNT Fld.PAI_CNT_reexec 1
    ({ s with que := { s.que with descs := s.que.descs ++ [d] } }, true)
  else if state = 2 then
    let n := if d.op = 0x07 then 32 else atomicSize (d.u 16 1)
    let (s, _, _) := s.writePool env.ecc (leAt b 112 8) (slice b 128 n) true
    let (s, _, _) := s.writePool env.ecc (s.journalAt q j seq) (splice b 100 [3]) false
    s.rewriteCpl env q j seq cpl
  else s.rewriteCpl env q j seq cpl

/-- TAKEOVER_QUARANTINE_END: the journal of every paired queue pair is taken up and fetching resumes (R426). Where a ring write is held, nothing is done yet. -/
def takeoverQuarantineEndEff (env : Env) (s : State) : State :=
  match s.pair.takeover with
  | none => s
  | some t =>
    if s.nt < t || s.doneStep < 13 then s
    else
      let slots := s.pairedQps.flatMap fun k => (s.journalFrom k.1 k.2).map fun x => (k, x)
      let (s', ok) := slots.foldl (fun (a : State × Bool) e =>
        let (s, ok) := a.1.takeSlot env e.1.1 e.1.2 e.2.1 e.2.2
        (s, a.2 && ok)) (s, true)
      if !ok then s
      else
        let s' := s'.setReg Reg.PAI_SERVICE_NT (BitVec.ofNat 64 s'.nt)
        { s' with pair := { s'.pair with takeover := none } }

def execTakeoverQuarantineEnd (env : Env) (s : State) : Result := .next (takeoverQuarantineEndEff env s)

/-- HANDOVER_DRAIN_DONE: nothing of a paired client is issued and not completed, and every completion is visible: the HANDOVER message goes out and the node becomes STANDBY (R431). -/
def handoverDrainDoneEff (s : State) : State :=
  let unseen (w : Packet × Purpose) : Bool := s.paired w.1.client && (match w.2 with
    | .completion _ _ _ => true
    | _ => false)
  if !s.pair.leaving || s.role != 4 || s.doneStep < 13 || (s.que.descs.any fun d => s.paired d.client && d.phase != .fetched) ||
      (s.router.tags.any fun t => unseen (t.pkt, t.purpose)) || (s.router.waiting.any fun w => unseen (w.2.1, w.2.2.1)) ||
      s.pair.takeover.isSome then s
  else
    let s := ((s.sendBoth 2).setRole 2).setAlias false
    let s := s.dropPaired
    { s.stopMirror with pair := { s.stopMirror.pair with leaving := false } }

def execHandoverDrainDone (s : State) : Result := .next (handoverDrainDoneEff s)

/-- The mirror link that is next in rotation among those that are ACTIVE (R420). -/
def State.mirrorLink (s : State) : Option Nat :=
  ((List.range 4).map fun i => (s.pair.lastLink + 1 + i) % 4).find? fun i => s.linkState (8 * i + 7) == 6

/-- The bytes of a range as it holds them now; bytes that cannot be read are open. -/
def State.mirrorData (s : State) (pa n : Nat) : List Byte :=
  (granulePieces pa n).flatMap fun p =>
    match s.readPiece [] p.1 p.2 with
    | some (d, .direct) => d
    | some (d, .rebuilt) => d
    | _ => (List.range p.2).map fun i => BitVec.ofNat 8 (Config.free (s.fresh + p.1 - pa + i))

/-- One piece of a range sent to the partner on a link, under a tag of the link's quadrant (R420). -/
def State.sendMirrorPiece (s : State) (i t : Nat) (r : MirrorRange) (off n : Nat) : State :=
  let g := (mget genDefault s.router.gens t + 1) % 16
  let p := s.originate s.mirrorClient s.partner opWrite 2 7 (r.pa + off) 0 (s.mirrorData (r.pa + off) n)
  let p := { p with tag := t, gen := g }
  let r := { r with open' := r.open' ++ [(off, n)] }
  let s : State := { s with
    fresh := s.fresh + n
    router := { s.router with
      gens := mset genDefault s.router.gens t g
      tags := s.router.tags ++ [Tag.mk t g (.mirror r.id off n) p s.nt s.nt (s.reg Reg.RTE_TIMING)] }
    pair := { s.pair with
      lastLink := i
      log := s.pair.log.map fun (x : MirrorRange) => if x.id == r.id then r else x } }
  s.injectTo (8 * i + 7) p

/-- The first slab at or above the watermark that the copy is still to take (R430). -/
def State.nextSlab (s : State) : Option Nat :=
  let from' := s.fld Reg.PAI_SYNC Fld.PAI_SYNC_watermark
  ((List.range (s.slabCount - from')).map (· + from')).find? fun n =>
    s.on (slabReg n) Fld.STK_SLAB_enable && (s.mirrorClass n == 1 || s.mirrorClass n == 2)

/-- The copy takes its next slab as a range of its own, where nothing else is left to be sent; the watermark stands at that slab until all of it is sent (R430). -/
def State.copyNext (s : State) : State :=
  if s.role = 5 && s.pair.copying && s.pair.log.all (fun r => r.sent && r.again.isEmpty) then
    match s.nextSlab with
    | some n => (s.setFld Reg.PAI_SYNC Fld.PAI_SYNC_watermark n).addRange (n * 2 ^ 30) (2 ^ 30) false true
    | none => s.setFld Reg.PAI_SYNC Fld.PAI_SYNC_watermark s.slabCount
  else s

/-- The range to be sent next: a piece to be sent again, then captured ranges in their order, and the copy last. -/
def State.nextRange (s : State) : Option MirrorRange :=
  (s.pair.log.find? fun r => !r.again.isEmpty).or
    ((s.pair.log.find? fun r => !r.sent && !r.copy).or (s.pair.log.find? fun r => !r.sent))

/-- MIRROR_SEND: one WRITE packet of a captured range, or of the copy to a joining partner, leaves for the partner (R420, R421, R430). -/
def mirrorSendEff (s : State) : State :=
  if !s.serving || s.workStopped then s
  else
    let s := s.copyNext
    match s.nextRange, s.mirrorLink with
    | some r, some i =>
      match s.freeTag i with
      | none => s
      | some t =>
        match r.again with
        | (off, n) :: more => (s.countSat Reg.PAI_CNT Fld.PAI_CNT_retries 1).sendMirrorPiece i t { r with again := more } off n
        | [] =>
          let n := min 8192 (r.len - r.off)
          let s := if r.copy && decide (r.len ≤ r.off + n) then s.setFld Reg.PAI_SYNC Fld.PAI_SYNC_watermark (r.pa / 2 ^ 30 + 1) else s
          s.sendMirrorPiece i t { r with off := r.off + n, sent := decide (r.len ≤ r.off + n) } r.off n
    | _, _ => s

def execMirrorSend (s : State) : Result := .next (mirrorSendEff s)

/-- A mirror WRITE is acknowledged: its range is done when nothing of it is left (R420). Any result but success makes the node SOLO. -/
def State.mirrorAck (s : State) (id off n status : Nat) : State :=
  if status % 16 != 0 then s.goSolo
  else
    let step (r : MirrorRange) : MirrorRange := if r.id == id then { r with open' := r.open'.erase (off, n) } else r
    let s : State := { s with pair := { s.pair with
      log := (s.pair.log.map step).filter fun r => !(r.id == id && r.sent && r.open'.isEmpty && r.again.isEmpty) } }
    s.releaseHeld

/-- A mirror WRITE has timed out: its piece is sent again, and the third timeout of a range makes the node SOLO (R420). -/
def State.mirrorTimeout (s : State) (id off n : Nat) : State :=
  match s.pair.log.find? fun r => r.id == id with
  | none => s
  | some r =>
    if 2 ≤ r.timeouts then s.goSolo
    else
      let r := { r with timeouts := r.timeouts + 1, open' := r.open'.erase (off, n), again := r.again ++ [(off, n)] }
      { s with pair := { s.pair with log := s.pair.log.map fun (x : MirrorRange) => if x.id == id then r else x } }

/-- JOIN_COPY_COMPLETE: at the sender every slab is copied and every mirror write acknowledged; at the joiner the partner has become ACTIVE (R430, Table PF-6). -/
def joinCopyCompleteEff (s : State) : State :=
  if s.role = 5 && s.pair.copying && s.nextSlab.isNone && s.pair.log.isEmpty then
    { s.setRole 4 with pair := { (s.setRole 4).pair with copying := false } }
  else if s.role = 1 && s.pair.partnerRole = 4 then s.setRole 2
  else s

def execJoinCopyComplete (s : State) : Result := .next (joinCopyCompleteEff s)

/-- The lease entry of a client that a LEASE_RENEW of the active node renewed, as its journal slot reports it (R424). -/
def State.installRenewal (s : State) (c : Nat) (b : List Byte) : State :=
  let d := newDesc ⟨0, 0, 0⟩ (slice b 0 64)
  let q := c % 4
  let id := d.u 8 8
  let ms := leAt b 72 8 / 1000000
  if d.op != 0x08 || leAt b 100 1 != 4 || 2 ≤ leAt b 66 2 / 0x1000 then s
  else
    match s.leaseOf c id with
    | some e => s.setFld (Reg.SHR_LEASE1 q e) Fld.SHR_LEASE1_expiry_ms ms
    | none =>
      match (List.range 256).find? fun e => s.leaseState q e == 0 with
      | none => s
      | some e =>
        let s := s.setReg (Reg.SHR_LEASE0 q e) (BitVec.ofNat 64 id)
        let w := setF (setF (setF 0 Fld.SHR_LEASE1_client c) Fld.SHR_LEASE1_state 1) Fld.SHR_LEASE1_expiry_ms ms
        (s.setReg (Reg.SHR_LEASE1 q e) w).noteSegs c

/-- The journal slots that a mirror WRITE has changed at a STANDBY are looked at for renewals (R424). -/
def State.watchJournal (s : State) (pa n : Nat) : State :=
  let base := s.pairArea
  if s.role != 2 || pa < base || base + 2 ^ 26 ≤ pa then s
  else
    let first := (pa - base) / 256
    (List.range (cdiv (pa + n - (base + first * 256)) 256)).foldl (fun (s : State) i =>
      let g := (first + i) / 64
      if g < 4096 then s.installRenewal (clientOf (g / 1024) (g % 1024)) (s.peekPool (base + (first + i) * 256) 256) else s) s

end Sys2Proof.Machine
end

