-- ==== Sys2Proof/Machine/Endpoint.lean ====
section
/-! DEFINITION. The endpoint: READ, WRITE and activation packets served, answers matched to their requests, and tag timeouts (R373 to R377, R391, R407, R238). -/

namespace Sys2Proof.Machine

open Sys2Proof

/-- A packet of an opcode at the endpoint, after policing and the checks of R393 where it is not dropped: the state, and whether it is acted on. Under a global stop it waits. -/
def State.admission (s : State) (port : Nat) (p : Packet) (opcode : Nat) : State × Bool :=
  if s.workStopped || p.opcode != opcode then (s, false)
  else
    let (s, ok) := (s.takeEjected port p).arrives p
    if ok then s.police port p else (s, false)

/-- The cause of a refused access (Table RT-3): 1 translation, 2 permission, 3 lease, 4 sealed, 5 slab, 6 malformed. -/
def causeOf (status : Nat) : Nat :=
  if status = 0x8004 then 5
  else if status / 0x1000 = 2 then 1
  else if status / 0x1000 = 3 then 2
  else if status / 0x1000 = 4 then 3
  else if status / 0x1000 = 0xA then 4
  else 6

/-- The response status of an access that ended with a completion status (Table RT-3). DEDUCED: a bank error of a line cache is a data error (assumption 93). -/
def responseOf (status : Nat) : Nat :=
  if status = 0x6001 || status = 0xF002 then 1 else if status = 0x6002 then 3 else 2 + 16 * causeOf status

/-- Whether a WRITE is one of the partner's mirror writes, which a bound Bezel lets into tenant slabs (R450). -/
def State.mirrorWrite (s : State) (p : Packet) : Bool :=
  p.opcode == opWrite && s.pairing && p.client == s.mirrorClient && p.src == s.partner

/-- Checks 1 to 5 of Table SG-2 on a READ or WRITE, under the current segments and the arrival NT (R375, R450). -/
def State.packetCheck (s : State) (p : Packet) (t : Tile) : Except Nat SegEnt :=
  let snap := s.validSegs p.client
  match s.rangeCheck p.client snap s.nt [] [t] with
  | .ok e => .ok e
  | .error (st, _) =>
    if st = 0xA001 && s.bezel = 1 && s.mirrorWrite p && s.isPeer p.src then
      match segOf snap t.va with
      | some e =>
        let l := s.leaseCheck p.client e s.nt
        if l = 0 then .ok e else .error l
      | none => .error st
    else .error st

/-- What the pages of an access gave: they wait, they are present, or the access ends with a status (R375, R112). -/
inductive PageCheck where
  | held | fine | ends (status : Nat)
deriving DecidableEq, Repr

/-- The bitmap lines of an access of a packet looked up one by one, through the bitmap cache of the client's quadrant (R112, R375). -/
def State.packetPages (s : State) (env : Env) (p : Packet) (e : SegEnt) (t : Tile) : State × PageCheck :=
  let q := clientQuad p.client
  (tilePages e t).foldl (fun (a : State × PageCheck) pg =>
    match a.2 with
    | .fine =>
      let s := a.1
      let idx := pg.1 / 512
      let judge (line : List Byte) : PageCheck := if pageBit line pg.1 then .fine else .ends 0x2002
      match s.bmcLine q p.client e.seg e.gen idx with
      | some l => ((s.countWrap (Reg.SEG_BMC_CNT q) Fld.SEG_BMC_CNT_hits 1).bmcPut q l, judge l.data)
      | none =>
        let s := s.countWrap (Reg.SEG_BMC_CNT q) Fld.SEG_BMC_CNT_misses 1
        match s.poolRead env .lineCache [p.src, p.tag, p.gen, 7] (e.bitmap + 64 * idx) 64 with
        | (s', .held) => (s', .held)
        | (s', .fail st _) => (s', .ends st)
        | (s', .ok d _ _) => (s'.bmcPut q ⟨p.client, e.seg, e.gen, idx, d, []⟩, judge d)
    | _ => a) (s, .fine)

/-- An access that waits: nothing of it is done but its place among those that wait for a loss event, and its packet stays at the endpoint. -/
def State.holdAccess (s t : State) : State := { s with coh := { s.coh with lossWaits := t.coh.lossWaits } }

/-- The READ_DATA of a READ: its data, or nothing where it was not done (Table RT-2, Table RT-3). -/
def State.answerRead (s : State) (port : Nat) (p : Packet) (status : Nat) (data : List Byte) : State :=
  s.answer port (answerTo p opReadData 1 status 0 data)

/-- The WRITE_ACK of a WRITE, held while the partner has not acknowledged an M2 write (Table PF-3). -/
def State.answerWrite (s : State) (port : Nat) (p : Packet) (status done : Nat) (ids : List Nat) : State :=
  let a := answerTo p opWriteAck 1 status done []
  if s.mirrorOpen ids then { s with pair := { s.pair with answers := s.pair.answers ++ [(ids, port, a)] } }
  else s.answer port a

/-- READ: checked, read through the line-cache path, and answered (R375, R412). -/
def readEff (port : Fin 36) (p : Packet) (env : Env) (s : State) : State :=
  match s.admission port p opRead with
  | (t, false) => t
  | (t, true) =>
    let tile : Tile := ⟨p.addr, p.aux, 1, 0, false⟩
    if !t.serves p.client then t.answerRead port p 2 []
    else
      match t.packetCheck p tile with
      | .error st => t.answerRead port p (responseOf st) []
      | .ok e =>
        match t.packetPages env p e tile with
        | (t', .held) => s.holdAccess t'
        | (t', .ends st) => t'.answerRead port p (responseOf st) []
        | (t', .fine) =>
          match t'.poolRead env .lineCache [p.src, p.tag, p.gen, 8] (e.paOf p.addr) p.aux with
          | (t2, .held) => s.holdAccess t2
          | (t2, .fail st _) => t2.answerRead port p (responseOf st) []
          | (t2, .ok d _ _) => t2.answerRead port p 0 d

def execRead (port : Fin 36) (p : Packet) (env : Env) (s : State) : Result := .next (readEff port p env s)

/-- WRITE: checked, applied through the line-cache path, and acknowledged (R375, R412, R424). -/
def writeEff (port : Fin 36) (p : Packet) (env : Env) (s : State) : State :=
  match s.admission port p opWrite with
  | (t, false) => t
  | (t, true) =>
    let n := p.payload.length
    let tile : Tile := ⟨p.addr, n, 1, 0, true⟩
    if !t.serves p.client then t.answerWrite port p 2 0 []
    else
      match t.packetCheck p tile with
      | .error st => t.answerWrite port p (responseOf st) 0 []
      | .ok e =>
        match t.packetPages env p e tile with
        | (t', .held) => s.holdAccess t'
        | (t', .ends st) => t'.answerWrite port p (responseOf st) 0 []
        | (t', .fine) =>
          match t'.poolWrite env .lineCache (e.paOf p.addr) p.payload with
          | (t2, .held) => s.holdAccess t2
          | (t2, .fail st done) => t2.answerWrite port p (responseOf st) (if st = 0x8004 then 0 else done) []
          | (t2, .ok _ _ ids) =>
            let t2 := if t2.mirrorWrite p then t2.watchJournal (e.paOf p.addr) n else t2
            t2.answerWrite port p 0 n ids

def execWrite (port : Fin 36) (p : Packet) (env : Env) (s : State) : Result := .next (writeEff port p env s)

/-- Whether a channel accepts an activation packet: format and row size are those of its RECV, and the fragment lies in a row of its batch (R238). -/
def Channel.accepts (c : Channel) (m : List Byte) : Bool :=
  leAt m 8 1 == c.fmt && leAt m 12 4 == c.rowBytes && decide (leAt m 2 2 < c.at'.length) &&
  decide (32 * leAt m 6 2 + (m.length - 16) ≤ c.rowBytes)

/-- The answer to an activation packet: 0 accepted, 1 refused and counted (R238). -/
def State.answerActivation (s : State) (port : Nat) (p : Packet) (refused : Bool) : State :=
  let s := if refused then s.countSat (Reg.RCP_CNT (clientQuad p.client)) Fld.RCP_CNT_recv_refused 1 else s
  s.answer port (answerTo p opActAck 1 0 (bit refused) [])

/-- ACTIVATION: written into its open channel at once, or refused (R237, R238). DESIGN CHOICE: where one recipe opens a channel for several RECVs, the first of them that is still open takes the packets (assumption 76). -/
def activationEff (port : Fin 36) (p : Packet) (s : State) : State :=
  match s.admission port p opActivation with
  | (t, false) => t
  | (t, true) =>
    let m := p.payload
    match t.rcp.channels.find? fun c => c.id == leAt m 0 2 with
    | none => t.answerActivation port p true
    | some c =>
      if m.length < 16 || !c.accepts m then t.answerActivation port p true
      else
        let (b, off, n) := (leAt m 2 2, 32 * leAt m 6 2, m.length - 16)
        let (st, f, oa) := c.at'.getD b (0, 0, 0)
        let w := (Doing.look ⟨t, [], .go, [], []⟩ st f (oa + off) n).put st f (oa + off) (m.drop 16)
        match w.halt with
        | .wait => s
        | .fail _ => w.s.answerActivation port p true
        | .go =>
          let note (x : Channel) : Channel :=
            if x.key == c.key && x.op == c.op && !x.got.contains (b, off, n) then { x with got := x.got ++ [(b, off, n)] } else x
          State.answerActivation { w.s with rcp := { w.s.rcp with channels := w.s.rcp.channels.map note } } port p false

def execActivation (port : Fin 36) (p : Packet) (s : State) : Result := .next (activationEff port p s)

/-- An answer at the local port that its request has waited for: its tag is freed (R391). None where it matches no outstanding request of an opcode. -/
def State.takeAnswer (s : State) (port : Nat) (p : Packet) (opcode request : Nat) : State × Option Tag :=
  if s.workStopped || p.opcode != opcode then (s, none)
  else
    let (s, ok) := (s.takeEjected port p).arrives p
    if !ok then (s, none)
    else
      match s.matchTag p with
      | some t => if t.pkt.opcode = request then (s.releaseTag t.tag, some t) else (s.countSat Reg.RTE_CNT1 Fld.RTE_CNT1_stale_gen 1, none)
      | none => (s.countSat Reg.RTE_CNT1 Fld.RTE_CNT1_stale_gen 1, none)

/-- The completion status of a descriptor whose operand request was answered so, 0 where it was done (R391). -/
def operandStatus (status : Nat) : Nat :=
  if status % 16 = 0 then 0 else if status % 16 = 1 then 0x6002 else 0xF002

/-- Bytes that a descriptor has written and its destination has taken, some bytes of a failed write apart (R91): those of a MOVE or FILL, of the rows of an EXPERT_BATCH or ATTN_STEP, or of the positions of a KV_APPEND. -/
def State.bytesDone (s : State) (d : Desc) (failed : Nat) : Nat :=
  let all := if d.op = 0x11 then s.exd.batchBytes else if d.op = 0x12 then (s.attn.map fun a => a.bytes).getD 0 else d.written
  all - failed - ((s.operandWrites d.key fun _ => true).map fun p => p.payload.length).foldl (· + ·) 0

/-- A descriptor ends because of an answer or a timeout of its operand traffic, with the bytes written as detail. One whose work has ended well takes the status too, since its completion is not written yet (R91, R391). -/
def State.failOperand (s : State) (t : Tag) (q j seq status : Nat) : State :=
  match s.que.descs.find? fun d => d.key.q.val == q && d.key.j.val == j && d.key.seq == seq with
  | none => s
  | some d =>
    let done := s.bytesDone d (if t.pkt.opcode = opWrite then t.pkt.payload.length else 0)
    if d.phase == .ended then (if d.status < 0x2000 then s.finishDesc d status 0 done else s)
    else s.endDesc d status (if d.op = 0x11 then s.exd.batchPairs else 0) done

/-- The data of one piece of a source in space 2 (R391). -/
def State.bringPiece (s : State) (q j seq piece : Nat) (data : List Byte) : State :=
  match s.que.descs.find? fun d => d.key.q.val == q && d.key.j.val == j && d.key.seq == seq with
  | none => s
  | some d => s.setDesc { d with pieces := d.pieces ++ [(piece, data)] }

/-- READ_DATA: the data of a ring fetch or of a source in space 2 (R391, R503). -/
def readDataEff (port : Fin 36) (p : Packet) (s : State) : State :=
  match s.takeAnswer port p opReadData opRead with
  | (s, none) => s
  | (s, some t) =>
    let whole := p.payload.length == t.pkt.aux
    match t.purpose with
    | .fetch q j seq _ =>
      match s.que.fetches.find? fun f => f.q == q && f.j == j && f.seq == seq with
      | none => s
      | some f =>
        let r := p.status % 16
        if r = 0 && whole then
          { s with que := { s.que with fetches := s.que.fetches.map fun (x : Fetch) => if x == f then { x with data := some p.payload } else x } }
        else s.fetchFail f (if r = 2 then 1 else if r = 3 then 2 else 0)
    | .operand q j seq piece =>
      if operandStatus p.status != 0 then s.failOperand t q j seq (operandStatus p.status)
      else if !whole then s.failOperand t q j seq 0x6002
      else s.bringPiece q j seq piece p.payload
    | _ => s

def execReadData (port : Fin 36) (p : Packet) (s : State) : Result := .next (readDataEff port p s)

/-- WRITE_ACK: a write of a descriptor or of the mirror is answered (R391, R420). -/
def writeAckEff (port : Fin 36) (p : Packet) (s : State) : State :=
  match s.takeAnswer port p opWriteAck opWrite with
  | (s, none) => s
  | (s, some t) =>
    match t.purpose with
    | .operand q j seq _ => if operandStatus p.status = 0 then s else s.failOperand t q j seq (operandStatus p.status)
    | .mirror id off n => s.mirrorAck id off n p.status
    | _ => s

def execWriteAck (port : Fin 36) (p : Packet) (s : State) : Result := .next (writeAckEff port p s)

/-- Whether the run of an order number is the run in progress. -/
def State.runIs (s : State) (order : Nat) : Bool :=
  match s.rcp.run with
  | some r => ((s.desc r.key).map (·.order)) == some order
  | none => false

/-- An activation packet has not been accepted: it waits to be sent again (R238). -/
def State.sendAgainLater (s : State) (inst piece : Nat) : State :=
  match s.sending inst piece with
  | none => s
  | some x => s.setSending { x with firstNt := x.firstNt.or (some s.nt), lastNt := s.nt, asked := false }

/-- ACT_ACK: the packet was accepted, or refused and is sent again (R238). -/
def actAckEff (port : Fin 36) (p : Packet) (s : State) : State :=
  match s.takeAnswer port p opActAck opActivation with
  | (s, none) => s
  | (s, some t) =>
    match t.purpose with
    | .send order inst piece =>
      if !s.runIs order then s
      else if operandStatus p.status != 0 then s.failInst inst (operandStatus p.status)
      else if p.aux = 0 then
        { s with rcp := { s.rcp with sends := s.rcp.sends.filter fun x => !(x.inst == inst && x.piece == piece) } }
      else s.sendAgainLater inst piece
    | _ => s

def execActAck (port : Fin 36) (p : Packet) (s : State) : Result := .next (actAckEff port p s)

/-- DROP_NOTICE: it is checked like every packet, and calls for nothing here (R408). -/
def dropNoticeEff (port : Fin 36) (p : Packet) (s : State) : State :=
  if s.coreStopped || p.opcode != opDropNotice then s else ((s.takeEjected port p).arrives p).1

def execDropNotice (port : Fin 36) (p : Packet) (s : State) : Result := .next (dropNoticeEff port p s)

/-- What a timeout of a request does once its tag is freed (R391, R420). -/
def State.afterTimeout (s : State) (t : Tag) : State :=
  let q := t.tag / 1024
  match t.purpose with
  | .fetch q' j seq _ =>
    if s.que.fetches.any fun f => f.q == q' && f.j == j && f.seq == seq then s.sendAgain q t.pkt t.purpose t.firstNt else s
  | .completion _ _ _ => s.sendAgain q t.pkt t.purpose t.firstNt
  | .event _ _ _ => s.sendAgain q t.pkt t.purpose t.firstNt
  | .operand q' j seq _ =>
    if s.nt < t.firstNt + getF t.timing Fld.RTE_TIMING_give_up_ms * 1000000 then s.sendAgain q t.pkt t.purpose t.firstNt
    else s.failOperand t q' j seq 0xF002
  | .send order inst piece => if s.runIs order then s.sendAgainLater inst piece else s
  | .spill _ _ => s
  | .mirror id off n => s.mirrorTimeout id off n

/-- TAG_TIMEOUT: an outstanding request has had no answer for tag_timeout_us; its tag is freed, and its unit acts (R391). The unit is a CORE unit: under a global stop it acts at the resume (R473). -/
def tagTimeoutEff (tag : Nat) (s : State) : State :=
  match s.router.tags.find? fun t => t.tag == tag with
  | none => s
  | some t =>
    if s.workStopped || s.nt < t.sentNt + getF t.timing Fld.RTE_TIMING_tag_timeout_us * 1000 then s
    else
      ((s.countWrap (Reg.RTE_TAG_STATUS (tag / 1024)) Fld.RTE_TAG_STATUS_timeouts 1).releaseTag tag).afterTimeout t

def execTagTimeout (tag : Fin 4096) (s : State) : Result := .next (tagTimeoutEff tag s)

end Sys2Proof.Machine
end

