-- ==== Sys2Proof/Machine/Power.lean ====
section
/-! DEFINITION. Rails, temperature, reference clock, droop and recalibration (chapter 02, R127). -/

namespace Sys2Proof.Machine

open Sys2Proof

/-- A temperature reading in 0.125 °C units as a signed number (Table PK-13). -/
def tempOf (t : BitVec 12) : Int := signedOf 12 t.toNat

/-- A threshold in °C is reached. -/
def hot (t : Int) (deg : Nat) : Bool := decide ((deg : Int) * 8 ≤ t)

/-- A temperature has fallen 5 °C below a threshold (R27). -/
def cooled (t : Int) (deg : Nat) : Bool := decide (t ≤ ((deg : Int) - 5) * 8)

/-- A level with its hysteresis: entered at the threshold, left 5 °C below it (R27). -/
def levelNext (now : Bool) (t : Int) (deg : Nat) : Bool := if now then !cooled t deg else hot t deg

/-- The clock of a quadrant. -/
def State.clock (s : State) (q : Nat) : QuadClock := s.clocks.getD q ⟨false, false, false, false, 0, 0⟩

/-- The clock of a quadrant replaced. -/
def State.setClock (s : State) (q : Nat) (c : QuadClock) : State := { s with clocks := s.clocks.set q c }

/-- The thermal event of Table ER-4 for a level that has been entered: level, die or stack, and its index. -/
def State.thermalEvent (s : State) (level : Nat) (stack : Bool) (idx temp : Nat) : State :=
  s.raise 0x0103 (if stack then 3 else 10) idx
    ([BitVec.ofNat 8 level, BitVec.ofNat 8 (bit stack), BitVec.ofNat 8 idx, 0] ++ leBytes 2 temp)

/-- THERM_N goes low, and all CORE clocks and the heartbeats stop with it (Table PK-5). -/
def State.thermLow (s : State) : State := { s with pins := { s.pins with thermN := false } }

/-- A die temperature read: warn, throttle and critical levels of the quadrant (R27, R37). -/
def thermalSampleEff (q : Quad) (temp : BitVec 12) (s : State) : State :=
  let t := tempOf temp
  let cfg := s.reg Reg.PWR_THERM_CFG
  let c := s.clock q
  let w := levelNext c.warn t (getF cfg Fld.PWR_THERM_CFG_die_warn)
  let h := levelNext c.throttled t (getF cfg Fld.PWR_THERM_CFG_die_throttle)
  let k := levelNext c.crit t (getF cfg Fld.PWR_THERM_CFG_die_crit)
  let s := s.setFld (Reg.PWR_SENSE q) Fld.PWR_SENSE_die_temp temp.toNat
  let s := s.setClock q { c with warn := w, throttled := h, crit := k }
  let s := if w && !c.warn then s.thermalEvent 1 false q temp.toNat else s
  let s := if h && !c.throttled then s.thermalEvent 2 false q temp.toNat else s
  if k && !c.crit then (s.thermalEvent 3 false q temp.toNat).thermLow else s

def execThermalSample (q : Quad) (temp : BitVec 12) (s : State) : Result := .next (thermalSampleEff q temp s)

/-- The hottest of a quadrant's eight stacks, as the 12-bit code of its temperature (Table PK-13). -/
def State.hottestStack (s : State) (q : Nat) : Nat :=
  (List.range 8).foldl (fun best p =>
    let t := s.fld (Reg.STK_PORT_STATUS q p) Fld.STK_PORT_STATUS_temp
    if signedOf 12 best < signedOf 12 t then t else best) (s.fld (Reg.STK_PORT_STATUS q 0) Fld.STK_PORT_STATUS_temp)

/-- The 1 ms sensor read of a stack: temperature, refresh interval, command-rate throttle, warn and critical levels (R127, R27). -/
def stackSensorReadEff (n : Setting) (temp : BitVec 12) (s : State) : State :=
  let t := tempOf temp
  let cfg := s.reg Reg.PWR_THERM_CFG
  let lim := s.fld (Reg.STK_CTL (n / 8)) Fld.STK_CTL_throttle_c
  let th := s.stackTherm.getD n ⟨false, false⟩
  let thr := s.on (portStatus n) Fld.STK_PORT_STATUS_throttled
  let w := levelNext th.warn t (getF cfg Fld.PWR_THERM_CFG_stk_warn)
  let k := levelNext th.crit t (getF cfg Fld.PWR_THERM_CFG_stk_crit)
  let h := levelNext thr t lim
  let s := s.setFld (portStatus n) Fld.STK_PORT_STATUS_temp temp.toNat
  let s := s.setFld (portStatus n) Fld.STK_PORT_STATUS_refresh_2x (bit (hot t 85))
  let s := s.setFld (portStatus n) Fld.STK_PORT_STATUS_throttled (bit h)
  let s := s.setFld (Reg.PWR_SENSE (n / 8)) Fld.PWR_SENSE_stk_temp (s.hottestStack (n / 8))
  let s := { s with stackTherm := s.stackTherm.set n ⟨w, k⟩ }
  let s := if w && !th.warn then s.thermalEvent 1 true n temp.toNat else s
  let s := if h && !thr then s.thermalEvent 2 true n temp.toNat else s
  if k && !th.crit then (s.thermalEvent 3 true n temp.toNat).thermLow else s

def execStackSensorRead (n : Setting) (temp : BitVec 12) (s : State) : Result := .next (stackSensorReadEff n temp s)

/-- A rail has been out of tolerance for 10 µs while PWROK is high (R25). -/
def railOutEff (rail : Fin 8) (s : State) : State :=
  if s.pins.pwrok then
    let s := s.setFld Reg.PWR_SENSE_STATUS Fld.PWR_SENSE_STATUS_rail_out
      (s.fld Reg.PWR_SENSE_STATUS Fld.PWR_SENSE_STATUS_rail_out ||| 2 ^ rail.val)
    s.raise 0x0101 10 4 (leBytes 1 (s.fld Reg.PWR_SENSE_STATUS Fld.PWR_SENSE_STATUS_rail_out))
  else s

def execRailOutOfTolerance (rail : Fin 8) (s : State) : Result := .next (railOutEff rail s)

/-- REFCLK has been lost: ref_lost is set, a clock event is raised and the PLLs hold over (R35). -/
def refclkLostEff (s : State) : State :=
  let s := s.setFld Reg.CLK_STATUS Fld.CLK_STATUS_ref_lost 1
  let s := s.setFld Reg.CLK_STATUS Fld.CLK_STATUS_holdover 1
  s.raise 0x0102 10 4 [1]

def execRefclkLost (s : State) : Result := .next (refclkLostEff s)

/-- REFCLK is back: holdover ends without a step of NT, and ref_lost stays (R35). -/
def refclkReturnEff (s : State) : State :=
  if s.on Reg.CLK_STATUS Fld.CLK_STATUS_holdover then
    (s.setFld Reg.CLK_STATUS Fld.CLK_STATUS_holdover 0).raise 0x0102 10 4 [0]
  else s

def execRefclkReturn (s : State) : Result := .next (refclkReturnEff s)

/-- The stretch just begun is counted in the NT millisecond, with the power event of R38 once the bound is exceeded. -/
def State.countStretch (s : State) (q : Nat) : State :=
  let c := s.clock q
  let ms := s.nt / 1000000
  let n := if c.stretchMs = ms then c.stretches + 1 else 1
  let s := s.setClock q { c with stretchMs := ms, stretches := n }
  let bound := s.fld (Reg.PWR_DROOP_CFG q) Fld.PWR_DROOP_CFG_alert_per_ms
  if bound != 0 && bound < n then
    s.raiseLimited 0x0104 10 q ([BitVec.ofNat 8 q, 0, 0, 0] ++ leBytes 4 n)
  else s

/-- A droop sensor reads VDD_CORE in mV. Below nominal less the threshold, and with the sensors enabled, the quadrant's CORE clock goes to half rate (R36, R37). -/
def droopTripEff (q : Quad) (mv : Nat) (s : State) : State :=
  let s := s.setFld (Reg.PWR_SENSE q) Fld.PWR_SENSE_vcore_min_mv
    (min mv (s.fld (Reg.PWR_SENSE q) Fld.PWR_SENSE_vcore_min_mv))
  let cfg := s.reg (Reg.PWR_DROOP_CFG q)
  let c := s.clock q
  if getF cfg Fld.PWR_DROOP_CFG_enable = 1 && mv + getF cfg Fld.PWR_DROOP_CFG_threshold_mv < 750 && !c.stretching then
    let s := s.setClock q { c with stretching := true }
    let s := s.countWrap (Reg.PWR_STRETCH_CNT q) Fld.PWR_STRETCH_CNT_count 1
    let s := s.observe 10 q 0x281 1 noWork [BitVec.ofNat 8 q]
    s.countStretch q
  else s

def execDroopTrip (q : Quad) (mv : Nat) (s : State) : Result := .next (droopTripEff q mv s)

/-- A count of 256 half-rate cycles ends: the clock returns to full rate, or the stretch extends while a sensor sees the sag (R36). -/
def stretchEndEff (q : Quad) (sag : Bool) (s : State) : State :=
  let c := s.clock q
  if c.stretching && !sag then s.setClock q { c with stretching := false } else s

def execStretchEnd (q : Quad) (sag : Bool) (s : State) : Result := .next (stretchEndEff q sag s)

/-- The units of the recalibration rotation: 16,384 memory PHY byte lanes, 512 for each stack's 4,096-bit interface in the order of the stacks, then 96 Quagen SerDes lanes, 16 Ilcen lanes and 10 PLLs. DESIGN CHOICE: R39 gives no order of the units, and the heartbeat lanes are none of its units (assumption 63). -/
def recalUnits : Nat := 16506

/-- The at-limit bit of a unit of the rotation, as field and value to be set; the PLLs have none (Table PK-14). -/
def recalBit (u : Nat) : Option (Field × Nat) :=
  if u < 16384 then some (Fld.PWR_CAL_STATUS_phy_at_limit, 2 ^ (u / 4096))
  else if u < 16480 then some (Fld.PWR_CAL_STATUS_at_limit, 2 ^ ((u - 16384) / 3))
  else if u < 16496 then some (Fld.PWR_CAL_STATUS_ilc_at_limit, 1)
  else none

/-- The next unit of the rotation is recalibrated; at the end of its range its bit is set and an event raised (R39). -/
def backgroundRecalibrationEff (atLimit : Bool) (s : State) : State :=
  if s.boot.recal then
    let u := s.boot.recalNext
    let next := (u + 1) % recalUnits
    let s := { s with boot := { s.boot with recalNext := next } }
    let s := if next = 0 then s.countWrap Reg.PWR_CAL_STATUS Fld.PWR_CAL_STATUS_passes 1 else s
    if atLimit then
      let s := match recalBit u with
        | some (f, v) => s.setFld Reg.PWR_CAL_STATUS f (s.fld Reg.PWR_CAL_STATUS f ||| v)
        | none => s
      s.raise 0x0105 10 4 (leBytes 8 (s.reg Reg.PWR_CAL_STATUS).toNat)
    else s
  else s

def execBackgroundRecalibration (atLimit : Bool) (s : State) : Result := .next (backgroundRecalibrationEff atLimit s)

/-- Whether a management core has beaten within the last 1 ms of NT (Table RM-8). -/
def aliveAt (nt : Nat) (beat : Option Nat) : Bool :=
  match beat with
  | none => false
  | some t => decide (nt < t + 1000000)

/-- A write of GLB_MGMT_LIVE: beat bits from firmware; any other path is ignored and logged with kind 9 (R502). -/
def mgmtBeatEff (path : Path) (value : Word) (s : State) : State :=
  if path = .firmware then
    let b0 := getF value Fld.GLB_MGMT_LIVE_beat0 = 1
    let b1 := getF value Fld.GLB_MGMT_LIVE_beat1 = 1
    { s with mgmt :=
      { beat0 := if b0 then some s.nt else s.mgmt.beat0
        beat1 := if b1 then some s.nt else s.mgmt.beat1
        stopped := s.mgmt.stopped && !(b0 || b1) } }
  else s.logViol path 9 Reg.GLB_MGMT_LIVE

def execMgmtBeat (path : Path) (value : Word) (s : State) : Result := .next (mgmtBeatEff path value s)

/-- Neither management core has beaten for 1 ms: the heartbeat generator stops (R488, R502). -/
def mgmtLivenessLossEff (s : State) : State :=
  if !aliveAt s.nt s.mgmt.beat0 && !aliveAt s.nt s.mgmt.beat1 then
    { s with mgmt := { s.mgmt with stopped := true } }
  else s

def execMgmtLivenessLoss (s : State) : Result := .next (mgmtLivenessLossEff s)

end Sys2Proof.Machine
end

