-- ==== Sys2Proof/Machine/RegRead.lean ====
section
/-! DEFINITION. What a read of a register returns: the fields held, with the fields that show other state (R3, R5, R492 to R499, Table SC-3). -/

namespace Sys2Proof.Machine

open Sys2Proof

/-- The index of a register within its window, by the distance from the offset of its first instance. -/
def idx (rel base stride : Nat) : Nat := (rel - base) / stride

/-- GLB_STATUS (Table RM-8). -/
def State.glbStatus (s : State) : Word :=
  BitVec.ofNat 64
    (bit s.boot.defaulted + bit (decide (11 ≤ s.doneStep)) * 2 + s.fld Reg.CFG_BOOT_STATUS Fld.CFG_BOOT_STATUS_failed * 4 + bit s.stopped * 8 +
     bit (s.fld Reg.EVT_FATAL Fld.EVT_FATAL_cause != 0) * 16 + s.bezel * 32 + s.role * 128 +
     bit (s.fld Reg.CFG_COMMIT_RESULT Fld.CFG_COMMIT_RESULT_state == 1) * 1024 +
     bit (s.fld Reg.GLB_CFG_VIOL Fld.GLB_CFG_VIOL_count != 0) * 2048)

/-- A 64-bit half of the device ID, 0 until start-up step 11 completes (Table RM-8, R439). -/
def State.deviceId (s : State) (half : Nat) : Word :=
  if 11 ≤ s.doneStep then BitVec.ofNat 64 (Config.deviceId.toNat / 2 ^ (64 * half)) else 0

/-- RTE_TAG_STATUS of a quadrant (Table RT-8). -/
def State.tagStatus (s : State) (q : Nat) : Word :=
  let w := s.reg (Reg.RTE_TAG_STATUS q)
  let w := setF w Fld.RTE_TAG_STATUS_outstanding (s.router.tags.filter fun t => t.tag / 1024 == q).length
  setF w Fld.RTE_TAG_STATUS_quarantined (s.router.quarantine.filter fun t => t.1 / 1024 == q).length

/-- Whether a Facet has fill work: a MATMUL or attention in its fill context, or the shared expert of an instance (R201, R265). -/
def State.fillWork (s : State) (st f : Nat) : Bool :=
  (s.jobAt st f true).isSome ||
  (match s.rcp.run with
    | some r => r.insts.any fun i =>
        (r.opOf i).code == 0x0C && i.begun && !i.done && (r.opOf i).fill &&
        ((s.desc r.key).elim false fun d => ((List.range d.batch).drop i.row).any fun b => homeSt r.block b == st)
    | none => false) ||
  (match s.exd.work with
    | some x => decide (4 ≤ x.phase) && !x.closed && exShared x.entry != 0
    | none => false)

/-- FAC_STATUS of a Setting (Table FA-8). A tile is in progress where its decoder waits with it. -/
def State.facStatus (s : State) (st : Nat) : Word :=
  let mask (work : Nat → Bool) : Nat := ((List.range 8).filter work).foldl (fun n f => n + 2 ^ f) 0
  let busy (m : Nat) : Bool := (s.rcp.transfers.any fun t => t.mover == m) ||
    s.que.descs.any fun d => d.phase == .started && (d.op == 0x01 || d.op == 0x02) && d.mover == some m
  let movers := ((List.range 4).filter fun k => busy (st * 4 + k)).foldl (fun n k => n + 2 ^ k) 0
  let decoding := s.rcp.decoding.any fun x => x.1 == st && (s.jobAt st x.2.1 x.2.2).isSome
  setF (setF (setF (setF 0 Fld.FAC_STATUS_active (mask (s.primaryWork st))) Fld.FAC_STATUS_filling (mask (s.fillWork st)))
    Fld.FAC_STATUS_decoder_busy (bit decoding)) Fld.FAC_STATUS_mover_busy movers

/-- RCP_RUN of a quadrant (Table RC-11). -/
def State.rcpRun (s : State) (q : Nat) : Word :=
  match s.rcp.run with
  | none => 0
  | some r =>
    match s.desc r.key with
    | none => 0
    | some d =>
      if r.key.q.val != q then 0
      else
        let low := r.insts.foldl (fun (best : Option Inst) i => match best with
          | some b => if i.op < b.op then some i else best
          | none => some i) none
        let w := setF (setF (setF (setF 0 Fld.RCP_RUN_running 1) Fld.RCP_RUN_slot (d.u 8 2)) Fld.RCP_RUN_client d.client) Fld.RCP_RUN_qp (d.key.j % 8)
        match low with
        | none => w
        | some i => setF (setF w Fld.RCP_RUN_op i.op) Fld.RCP_RUN_layer_id (layerId d (r.opOf i) i.layer)

/-- EXD_STATUS of a quadrant (Table EX-10). -/
def State.exdStatus (s : State) (q : Nat) : Word :=
  match s.exd.work with
  | none => 0
  | some x =>
    if x.key.q.val != q then 0
    else
      let groups := (x.groups.filter fun g => decide (g.done < g.pairs.length)).length
      let missing (g : SpillOut) : Nat := ((List.range g.pairs.length).filter fun i => !g.whole (2 * exH x.entry) i).length
      let spilled := (x.spills.filter fun g => g.state == 1).foldl (fun n g => n + missing g) 0
      setF (setF (setF (setF 0 Fld.EXD_STATUS_phase x.phase) Fld.EXD_STATUS_entry x.index) Fld.EXD_STATUS_groups groups) Fld.EXD_STATUS_spill_open spilled

/-- ATN_STATUS of a quadrant (Table AT-9). -/
def State.atnStatus (s : State) (q : Nat) : Word :=
  let shown (left : Nat) : Word := setF (setF 0 Fld.ATN_STATUS_running 1) Fld.ATN_STATUS_remaining left
  match s.attn.filter (fun a => a.key.q.val == q) with
  | some a => shown (a.list.length / 32 - a.finished.length)
  | none =>
    match s.rcp.run.filter (fun r => r.key.q.val == q) with
    | none => 0
    | some r =>
      match r.insts.find? (fun i => (r.opOf i).code == 0x0C && i.begun && !i.done), s.desc r.key with
      | some i, some d => shown (d.batch - i.row)
      | _, _ => 0

/-- Written lines of a bank (Table BK-7). -/
def State.writtenLines (s : State) (bi : Nat) : Nat :=
  (s.banks.written.filter fun e => decide (bi * 4096 ≤ e.1) && decide (e.1 < bi * 4096 + 4096)).length

/-- COH_LC_STATUS of a Setting (Table CO-11). -/
def State.lcStatus (s : State) (st : Nat) : Word :=
  let c := s.coh.caches.getD st []
  setF (setF 0 Fld.COH_LC_STATUS_lines c.length) Fld.COH_LC_STATUS_dirty (c.filter fun l => l.state == .m || l.state == .o).length

/-- Packets of a VC that wait for a link (Table LK-10). -/
def State.vcHeld (s : State) (n v : Nat) : Nat :=
  (s.router.inputs.flatMap (·.2)).foldl (fun k p => if p.out == some n && !p.started && vcOf p.hdr.mclass p.dl == v then k + 1 else k) 0

/-- TSC_STATUS of a link (Table TS-3). -/
def State.tscStatus (s : State) (n : Nat) : Word :=
  let enabled := s.on (Reg.TSC_CTL n) Fld.TSC_CTL_enable
  let open' := ((List.range 8).filter fun t => s.gateOpen n t).foldl (fun k t => k + 2 ^ t) 0
  let es := (List.range (s.fld (Reg.TSC_CTL n) Fld.TSC_CTL_n_entries)).map fun i =>
    (s.fld (Reg.TSC_GATE n i) Fld.TSC_GATE_duration_ns, s.fld (Reg.TSC_GATE n i) Fld.TSC_GATE_mask)
  setF (setF 0 Fld.TSC_STATUS_entry (if enabled then entryAt es 0 (s.gatePos n) else 0)) Fld.TSC_STATUS_open open'

/-- The global registers that show other state. -/
def State.readGlobal (s : State) (off : Nat) : Word :=
  let w := s.reg off
  if off = Reg.GLB_STATUS then s.glbStatus
  else if off = Reg.GLB_DEVICE_ID0 then s.deviceId 0
  else if off = Reg.GLB_DEVICE_ID1 then s.deviceId 1
  else if off = Reg.GLB_NT then BitVec.ofNat 64 s.nt
  else if off = Reg.GLB_MGMT_LIVE then
    BitVec.ofNat 64 (bit (aliveAt s.nt s.mgmt.beat0) * 4 + bit (aliveAt s.nt s.mgmt.beat1) * 8)
  else if off = Reg.CFG_STAGE_STATUS then
    setF (setF 0 Fld.CFG_STAGE_STATUS_staged (min s.stagedOffsets.length 0xFFFF)) Fld.CFG_STAGE_STATUS_frozen (bit s.committing)
  else if off = Reg.CLK_STATUS then
    setF w Fld.CLK_STATUS_core_half (((List.range 4).filter s.halfRate).foldl (fun n q => n + 2 ^ q) 0)
  else if off = Reg.SEC_STATUS then
    setF (setF (setF w Fld.SEC_STATUS_busy (bit s.sec.job.isSome)) Fld.SEC_STATUS_sessions_left (1024 - s.sec.sessionsUsed))
      Fld.SEC_STATUS_svn_min s.sec.svnMin
  else if Reg.SEC_MBOX 0 ≤ off && off < Reg.SEC_MBOX 64 then (if s.sec.mboxHidden then 0 else w)
  else if off = Reg.EVT_CNT then setF w Fld.EVT_CNT_queued s.events.queue.length
  else if off = Reg.PAI_STATUS then setF w Fld.PAI_STATUS_m1_lag_us (min s.mirrorLag (2 ^ 24 - 1))
  else if Reg.RTE_TAG_STATUS 0 ≤ off && off < Reg.RTE_TAG_STATUS 4 then s.tagStatus (idx off (Reg.RTE_TAG_STATUS 0) 8)
  else w

/-- The registers of quadrant q that show other state. -/
def State.readQuad (s : State) (q rel off : Nat) : Word :=
  let w := s.reg off
  if 0x10000 ≤ rel && rel < 0x20000 then
    let j := (rel - 0x10000) / 0x40
    if rel % 0x40 = 0x28 then setF w Fld.QUE_QP_CQ_PTR_inflight (s.inflight q j) else w
  else if 0x91000 ≤ rel && rel < 0x92000 then setF w Fld.BNK_BANK_written (s.writtenLines (q * 512 + idx rel 0x91000 8))
  else if 0xA0008 ≤ rel && rel < 0xA0048 then s.facStatus (q * 8 + idx rel 0xA0008 8)
  else if rel = 0xB0200 then s.rcpRun q
  else if rel = 0xC0020 then s.exdStatus q
  else if rel = 0xD0008 then s.atnStatus q
  else if off = Reg.COH_DIR_STATUS q then setF w Fld.COH_DIR_STATUS_used (s.coh.dir.getD q []).length
  else if 0xF0100 ≤ rel && rel < 0xF0140 then s.lcStatus (q * 8 + idx rel 0xF0100 8)
  else w

/-- The registers of link n that show other state. -/
def State.readLink (s : State) (n rel off : Nat) : Word :=
  let w := s.reg off
  if 0x40 ≤ rel && rel < 0x80 then setF w Fld.LNK_VC_held (s.vcHeld n (idx rel 0x40 8))
  else if off = Reg.TSC_STATUS n then s.tscStatus n
  else w

/-- A word with its RWS fields read from the shadow copy (Table SC-3). -/
def State.withShadow (s : State) (off : Nat) (w : Word) : Word :=
  (w &&& ~~~ BitVec.ofNat 64 (accMask off .rws)) ||| s.shadowReg off

/-- What a read of an offset returns, its RWS fields from the shadow copy: 0 where it is unassigned, or a Q0 register outside Q0 (R493, R494). -/
def State.readReg (s : State) (off : Nat) : Word :=
  match regRow off, windowOf off with
  | some r, some (.glob, _, _) => if r.q0 then 0 else s.withShadow off (s.readGlobal off)
  | some r, some (.quad, q, rel) => if r.q0 && q != 0 then 0 else s.withShadow off (s.readQuad q rel off)
  | some _, some (.link, n, rel) => s.withShadow off (s.readLink n rel off)
  | _, _ => 0

/-- The receiver's measures of a lane, which no command brings: the symbols and codewords counted since the last read are free amounts, and the eye margin is a free value (Table LK-10). -/
def State.laneMeasures (s : State) (off : Nat) : State :=
  let (c, s) := s.draw
  let (u, s) := s.draw
  let (e, s) := s.draw
  let s := (s.countSat off Fld.LNK_LANE_corrected (Config.free c)).countSat off Fld.LNK_LANE_uncorrectable (Config.free u)
  s.setFld off Fld.LNK_LANE_eye (Config.free e)

/-- What a read samples before it returns the value: PWR_SENSE.vcore_mv, the mean of VDD_CORE over the last 1 ms, which no command brings and is a free value (Table PK-13), and the measures of a link's lane (Table LK-10). -/
def State.beforeRead (s : State) (off : Nat) : State :=
  if Reg.PWR_SENSE 0 ≤ off && off < Reg.PWR_SENSE 4 then
    let (x, s) := s.draw
    s.setFld off Fld.PWR_SENSE_vcore_mv (Config.free x)
  else
    match windowOf off with
    | some (.link, _, rel) => if 0x80 ≤ rel && rel < 0x98 then s.laneMeasures off else s
    | _ => s

/-- What a read does besides returning the value: PWR_SENSE.vcore_min_mv starts again (Table PK-13). -/
def State.afterRead (s : State) (off : Nat) : State :=
  if Reg.PWR_SENSE 0 ≤ off && off < Reg.PWR_SENSE 4 then s.setFld off Fld.PWR_SENSE_vcore_min_mv 0xFFF else s

end Sys2Proof.Machine
end

