-- ==== Sys2Proof/Machine/EventRing.lean ====
section
/-! DEFINITION. The event ring in companion memory, its notify writes, and node-fatal errors (R483 to R485, R488). -/

namespace Sys2Proof.Machine

open Sys2Proof

/-- k of the event ring, its base address, and the seq of the next record to be written (R483). -/
def State.evtLog (s : State) : Nat := s.fld Reg.EVT_CTL Fld.EVT_CTL_ring_log2
def State.evtBase (s : State) : Nat := addrOf (s.reg Reg.EVT_RING_BASE).toNat
def State.evtTail (s : State) : Nat := s.fld Reg.EVT_RING_PTR Fld.EVT_RING_PTR_tail

/-- Records written and not consumed (R484). -/
def State.unconsumed (s : State) : Nat := diff32 s.evtTail (s.fld Reg.EVT_RING_PTR Fld.EVT_RING_PTR_head)

/-- A record written to its slot; the tail moves past it (R483). -/
def State.writeEvent (s : State) (e : EventRec) : State :=
  let k := s.evtLog
  let s := s.emit (.ilcenWrite (s.evtBase + e.seq % 2 ^ k * 32) (eventBytes k e))
  let s := s.setFld Reg.EVT_RING_PTR Fld.EVT_RING_PTR_tail (e.seq + 1)
  { s with events := { s.events with notifyDue := true } }

/-- EVENT_RECORD_WRITE: the oldest queued record is written while the ring has room, Ilcen is ACTIVE and EVT_CTL.enable is 1 (R484). -/
def eventRecordWriteEff (s : State) : State :=
  match s.events.queue with
  | [] => s
  | e :: rest =>
    if !s.on Reg.EVT_CTL Fld.EVT_CTL_enable || !s.ilcActive || 2 ^ s.evtLog - 1 ≤ s.unconsumed then s
    else State.writeEvent { s with events := { s.events with queue := rest } } e

def execEventRecordWrite (s : State) : Result := .next (eventRecordWriteEff s)

/-- A write of EVT_RING_PTR: head moves on, up to tail; any other value is ignored and logged (R485). -/
def evtHeadWriteEff (path : Path) (value : Word) (s : State) : State :=
  let head := s.fld Reg.EVT_RING_PTR Fld.EVT_RING_PTR_head
  let h := getF value Fld.EVT_RING_PTR_head
  if diff32 h head ≤ s.unconsumed then s.setFld Reg.EVT_RING_PTR Fld.EVT_RING_PTR_head h else s.logViol path 4 Reg.EVT_RING_PTR

def execEvtHeadWrite (path : Path) (value : Word) (s : State) : Result := .next (evtHeadWriteEff path value s)

/-- EVENT_NOTIFY: the tail is written to the notify target after a record has become visible, at most once in holdoff_us (R485). -/
def eventNotifyEff (s : State) : State :=
  let w := s.reg Reg.EVT_NOTIFY
  let due := match s.events.notifyNt with
    | none => true
    | some t => decide (t + getF w Fld.EVT_NOTIFY_holdoff_us * 1000 ≤ s.nt)
  if getF w Fld.EVT_NOTIFY_enable = 1 && s.events.notifyDue && due && s.ilcActive then
    let s := s.emit (.ilcenWrite (addrOf (getF w Fld.EVT_NOTIFY_target)) (leBytes 8 s.evtTail))
    { s with events := { s.events with notifyNt := some s.nt, notifyDue := false } }
  else s

def execEventNotify (s : State) : Result := .next (eventNotifyEff s)

/-- The node-fatal record, which goes ahead of every queued record: it takes the seq that is written next, and those of the queue rise by one (R484). Where it cannot be written, only its pending bit is set. -/
def State.fatalRecord (s : State) (payload : List Byte) : State :=
  let s := s.setPending 0x0F01
  if s.on Reg.EVT_CTL Fld.EVT_CTL_enable && s.ilcActive && s.unconsumed < 2 ^ s.evtLog then
    let e : EventRec := ⟨0x0F01, 10, 4, s.evtTail, s.nt, payload, 0⟩
    let later (x : EventRec) : EventRec := { x with seq := (x.seq + 1) % 2 ^ 32 }
    State.writeEvent { s with events := { s.events with queue := s.events.queue.map later, nextSeq := (s.events.nextSeq + 1) % 2 ^ 32 } } e
  else s

/-- The links of a lost quadrant go electrically idle (R488). -/
def State.loseQuadrant (s : State) (q : Nat) : State :=
  let s : State := { s with events := { s.events with lostQuads := q :: s.events.lostQuads } }
  (List.range 8).foldl (fun (s : State) i =>
    let n := 8 * q + i
    if s.linkState n = lsDisabled || s.linkState n = lsDown then s
    else (s.enterState n lsDown).countSat (Reg.LNK_CNT2 n) Fld.LNK_CNT2_downs 1) s

/-- NODE_FATAL_ERROR: heartbeats and the queue engines stop, the node fences itself, and EVT_FATAL and the record are written (R488). The first cause is kept. -/
def nodeFatalErrorEff (cause : Nat) (quadrant : Option Quad) (s : State) : State :=
  if cause = 0 || 5 < cause || s.events.fatal then s
  else
    let s : State := { s with mgmt := { s.mgmt with stopped := true }, events := { s.events with fatal := true } }
    let s := s.enterFenced
    let s := match cause, quadrant with
      | 1, some q => s.loseQuadrant q
      | _, _ => s
    let where' : Nat := (quadrant.map (·.val)).getD 0xFF
    let s := s.setReg Reg.EVT_FATAL (setF (setF 0 Fld.EVT_FATAL_cause cause) Fld.EVT_FATAL_quadrant where')
    let s := s.setReg Reg.EVT_FATAL_NT (BitVec.ofNat 64 s.nt)
    s.fatalRecord [BitVec.ofNat 8 cause, BitVec.ofNat 8 where']

def execNodeFatalError (cause : Fin 16) (quadrant : Option Quad) (s : State) : Result := .next (nodeFatalErrorEff cause quadrant s)

end Sys2Proof.Machine
end

