-- ==== Sys2Proof/Machine/Loupe.lean ====
section
/-! DEFINITION. Loupe's commands: the trace writer, captures, the global stop and resume, snapshots, dumps and watchdogs (R458 to R480). -/

namespace Sys2Proof.Machine

open Sys2Proof

/-- Refill of the writer's bucket in 10^-11 records per ns: cap_pct percent of the path bandwidth, 32 bytes to a record (R469). -/
def State.bucketRate (s : State) : Nat :=
  let pct := s.fld Reg.LPE_TRC_CFG Fld.LPE_TRC_CFG_cap_pct
  if s.on Reg.LPE_TRC_CFG Fld.LPE_TRC_CFG_dest then
    let slab := s.fld Reg.LPE_TRC_SEG Fld.LPE_TRC_SEG_base / 2 ^ 30
    let mode := s.fld (slabReg slab) Fld.STK_SLAB_mode
    pct * (if mode = 0 then 160 else if mode = 1 then 1280 else 5120) * 10 ^ 9
  else s.loupe.buffer.length * pct * 3400000000

/-- A record dropped: the next record from its source carries the gap flag (R469). -/
def State.dropRecord (s : State) (r : TraceRec) (cnt : Nat) (f : Field) : State :=
  let key := r.cls * 4096 + r.idx % 4096
  let s := s.countSat cnt f 1
  { s with loupe := { s.loupe with gaps := if s.loupe.gaps.contains key then s.loupe.gaps else key :: s.loupe.gaps } }

/-- A record at the writer: admitted by the bucket and given to the capture, or dropped (R469). -/
def State.admitRecord (s : State) (r : TraceRec) : State :=
  let tokens := min (64 * 10 ^ 11) (s.loupe.tokens + s.bucketRate * (s.nt - s.loupe.tokensNt))
  let s : State := { s with loupe := { s.loupe with tokens := tokens, tokensNt := s.nt } }
  if tokens < 10 ^ 11 then s.dropRecord r Reg.LPE_TRC_CNT Fld.LPE_TRC_CNT_capped
  else State.captureRecord { s with loupe := { s.loupe with tokens := tokens - 10 ^ 11 } } r

/-- The writer's queue is emptied in its order. -/
def State.drainWriter (s : State) : State :=
  let l := s.loupe.writer
  l.foldl State.admitRecord { s with loupe := { s.loupe with writer := [] } }

/-- The bank events of the trace writer's refused writes, at most one per millisecond per Setting (R156). -/
def State.tellRefused (s : State) : State :=
  s.loupe.refused.foldl (fun (s : State) r =>
    s.raiseLimited 0x0601 1 (r.1 / 64) [BitVec.ofNat 8 (r.1 / 64), BitVec.ofNat 8 (r.1 % 64), BitVec.ofNat 8 r.2])
    { s with loupe := { s.loupe with refused := [] } }

/-- The oldest record of a source reaches the writer. While the Setting of a bank-mode buffer is stopped, it waits in the writer's queue of 1,024 (R469). -/
def State.writeOldest (s : State) (cls idx : Nat) : State :=
  let waits := !s.on Reg.LPE_TRC_CFG Fld.LPE_TRC_CFG_dest && s.coreStopped
  let s := if waits then s else s.drainWriter
  match s.loupe.sources.find? fun r => r.cls == cls && r.idx % 4096 == idx with
  | none => s
  | some r =>
    let s : State := { s with loupe := { s.loupe with sources := s.loupe.sources.erase r } }
    if !waits then s.admitRecord r
    else if s.loupe.writer.length < 1024 then { s with loupe := { s.loupe with writer := s.loupe.writer ++ [r] } }
    else s.dropRecord r Reg.LPE_TRC_CNT2 Fld.LPE_TRC_CNT2_overflow

/-- TRACE_RECORD_WRITE: the oldest record of a source reaches the writer. While the Setting of a bank-mode buffer is stopped, it waits in the writer's queue of 1,024 (R469). -/
def traceRecordWriteEff (cls idx : Nat) (s : State) : State := (s.writeOldest cls idx).tellRefused

def execTraceRecordWrite (cls : Fin 16) (idx : Fin 4096) (s : State) : Result := .next (traceRecordWriteEff cls idx s)

/-- A write of LPE_TRC_CTL: trigger and rearm (R471). -/
def trcCtlWrite (path : Path) (value : Word) (s : State) : State :=
  let s := s.writeFields path Reg.LPE_TRC_CTL value
  let s := if getF value Fld.LPE_TRC_CTL_trigger = 1 then s.trigger 0 0 else s
  (if getF value Fld.LPE_TRC_CTL_rearm = 1 then s.startCapture else s).tellRefused

def execTraceTrigger (path : Path) (value : Word) (s : State) : Result :=
  .next (trcCtlWrite path (setF value Fld.LPE_TRC_CTL_trigger 1) s)

def execTraceRearm (path : Path) (value : Word) (s : State) : Result :=
  .next (trcCtlWrite path (setF value Fld.LPE_TRC_CTL_rearm 1) s)

/-- A write of LPE_MARK: a software marker (Table LP-1, 0xF81). -/
def lpeMarkEff (value : Word) (s : State) : State := s.observe 14 0 0xF81 1 noWork (leBytes 8 value.toNat)

def execLpeMark (_path : Path) (value : Word) (s : State) : Result := .next (lpeMarkEff value s)

/-- A write of LPE_SEL sets the selector and its counter to 0 (R460). -/
def lpeSelWriteEff (path : Path) (q n : Nat) (value : Word) (s : State) : State :=
  (s.writeFields path (Reg.LPE_SEL q n) value).setReg (Reg.LPE_CTR q n) 0

def execLpeSelWrite (path : Path) (q : Quad) (n : Fin 512) (value : Word) (s : State) : Result :=
  .next (lpeSelWriteEff path q n value s)

/-- A write of LPE_CTR sets the counter (R460). -/
def lpeCtrWriteEff (path : Path) (q n : Nat) (value : Word) (s : State) : State := s.writeFields path (Reg.LPE_CTR q n) value

def execLpeCtrWrite (path : Path) (q : Quad) (n : Fin 512) (value : Word) (s : State) : Result :=
  .next (lpeCtrWriteEff path q n value s)

/-- Whether a dump of either kind is in progress. -/
def State.dumping (s : State) : Bool :=
  s.on Reg.LPE_DUMP_CTL Fld.LPE_DUMP_CTL_busy || (List.range 4).any fun q => s.on (Reg.LPE_WDOG q) Fld.LPE_WDOG_dumping

/-- The result of a resume request: 0 where it is accepted (R474). -/
def State.resumeResult (s : State) : Nat :=
  if !s.stopped then 1
  else if s.dumping then 2
  else if !s.loupe.lostLinks.isEmpty || !s.on Reg.LPE_STOP Fld.LPE_STOP_resumable then 3
  else if s.on Reg.LPE_STOP Fld.LPE_STOP_pin_en && !s.pins.stopInN then 4
  else if !s.pins.thermN then 5
  else 0

/-- A resume request (R474): its result, and the NT at which execution restarts. -/
def State.requestResume (s : State) : State :=
  let r := s.resumeResult
  let s := s.setFld Reg.LPE_STOP Fld.LPE_STOP_result r
  if r = 3 then s.setFld Reg.LPE_STOP Fld.LPE_STOP_resumable 0
  else if r = 0 then { s with loupe := { s.loupe with resume := some ((s.nt / 1000 + 1) * 1000) } }
  else s

/-- A write of LPE_STOP: pin_en, a stop request and a resume request (R472, R474). -/
def lpeStopWrite (path : Path) (value : Word) (s : State) : State :=
  let s := s.writeFields path Reg.LPE_STOP value
  let s := if getF value Fld.LPE_STOP_stop = 1 then s.requestStop 1 else s
  if getF value Fld.LPE_STOP_resume = 1 then s.requestResume else s

def execGlobalStopRequest (path : Path) (value : Word) (s : State) : Result :=
  .next (lpeStopWrite path (setF value Fld.LPE_STOP_stop 1) s)

/-- STOP_IN_N has been low for 20 ns: a stop request while pin_en is 1; `held` says whether it stays low (R472). -/
def stopInNLowEff (held : Bool) (s : State) : State :=
  let s : State := { s with pins := { s.pins with stopInN := !held } }
  if s.on Reg.LPE_STOP Fld.LPE_STOP_pin_en then s.requestStop 2 else s

def execStopInNLow (held : Bool) (s : State) : Result := .next (stopInNLowEff held s)

def execGlobalStopResume (path : Path) (value : Word) (s : State) : Result :=
  .next (lpeStopWrite path (setF value Fld.LPE_STOP_resume 1) s)

/-- RESUME_INSTANT: every CORE domain restarts (R474). -/
def resumeInstantEff (s : State) : State :=
  match s.loupe.resume with
  | none => s
  | some t =>
    if s.nt < t then s
    else { s.setFld Reg.LPE_STOP Fld.LPE_STOP_stopped 0 with loupe := { s.loupe with resume := none, stopLinks := [], lostLinks := [] } }

def execResumeInstant (s : State) : Result := .next (resumeInstantEff s)

/-- A write of LPE_SNAP_CTL: a snapshot at the first NT multiple of 1,000 ns that lies at least 1,000 ns after it (R462). -/
def snapCtlWrite (path : Path) (value : Word) (s : State) : State :=
  if getF value Fld.LPE_SNAP_CTL_go != 1 then s
  else if s.on Reg.LPE_SNAP_CTL Fld.LPE_SNAP_CTL_busy then s.logViol path 4 Reg.LPE_SNAP_CTL
  else { s.setFld Reg.LPE_SNAP_CTL Fld.LPE_SNAP_CTL_busy 1 with loupe := { s.loupe with snapshot := some (roundUp 1000 (s.nt + 1000)) } }

def execSnapshot (path : Path) (value : Word) (s : State) : Result :=
  .next (snapCtlWrite path (setF value Fld.LPE_SNAP_CTL_go 1) s)

/-- Every selectable counter copied into LPE_SNAP, and the cycle counts into snap_cycles (R462). -/
def State.copyCounters (s : State) : State :=
  let lo := Reg.LPE_CTR 0 0
  let hi := lo + 0x4000
  let ctrs := (s.regs.filter fun e => lo ≤ e.1 && e.1 < hi).map (·.1)
  let snaps := (s.regs.filter fun e => hi ≤ e.1 && e.1 < hi + 0x4000).map fun e => e.1 - 0x4000
  let s := (ctrs ++ snaps).foldl (fun (s : State) o => s.setReg (o + 0x4000) (s.reg o)) s
  (List.range 4).foldl (fun (s : State) q => s.setReg (Reg.LPE_FIX q 3) (s.reg (Reg.LPE_FIX q 0))) s

/-- SNAPSHOT_INSTANT (R462). -/
def snapshotInstantEff (s : State) : State :=
  match s.loupe.snapshot with
  | none => s
  | some t =>
    if s.nt < t then s
    else
      let s := (s.copyCounters.setReg Reg.LPE_SNAP_NT (BitVec.ofNat 64 t)).setFld Reg.LPE_SNAP_CTL Fld.LPE_SNAP_CTL_busy 0
      { s with loupe := { s.loupe with snapshot := none } }

def execSnapshotInstant (s : State) : Result := .next (snapshotInstantEff s)

/-- A section of a dump: type, instance and content (R476). -/
structure Section where
  type : Nat
  inst : Nat
  content : List Byte
deriving DecidableEq, Repr

/-- The offsets of the instances of a row within its window. -/
def offsetsOf : List (Nat × Nat) → Nat → List Nat
  | [], base => [base]
  | (stride, count) :: t, base => (List.range count).flatMap fun i => offsetsOf t (base + i * stride)

/-- The registers of the rows of a window whose first offset lies in a range, as pairs of offset and value; RTE_ENTRY and SEC_MBOX are left out (Table LP-5). -/
def State.dumpRegs (s : State) (w : Window) (base lo hi : Nat) : List Byte :=
  (regRows.filter fun r => r.win == w && decide (lo ≤ r.base) && decide (r.base < hi) && r.name != "RTE_ENTRY" && r.name != "SEC_MBOX").flatMap fun r =>
    (offsetsOf r.dims r.base).flatMap fun o => leBytes 8 (base + o) ++ leBytes 8 (s.readReg (base + o)).toNat

/-- The blocks of a window: first offset and end (Tables RM-5 to RM-7). -/
def blocksOf : Window → List (Nat × Nat)
  | .glob => [(0, 0x10000), (0x10000, 0x20000), (0x20000, 0x30000), (0x30000, 0x40000), (0x40000, 0x50000), (0x50000, 0x60000), (0x60000, 0x70000),
      (0x70000, 0x80000), (0x400000, 0x490000)]
  | .quad => [(0, 0x20000), (0x20000, 0x40000), (0x40000, 0x80000), (0x80000, 0x90000), (0x90000, 0xA0000), (0xA0000, 0xB0000), (0xB0000, 0xC0000),
      (0xC0000, 0xD0000), (0xD0000, 0xE0000), (0xE0000, 0xF0000), (0xF0000, 0x110000), (0x110000, 0x120000)]
  | .link => [(0, 0x800), (0x800, 0x10000)]

/-- The blocks that a hang dump holds: QUE, SEG, RCP, EXD and ATN (Table LP-5). -/
def hangBlocks : List (Nat × Nat) := [(0, 0x20000), (0x20000, 0x40000), (0xB0000, 0xC0000), (0xC0000, 0xD0000), (0xD0000, 0xE0000)]

/-- Section 1 of one block. -/
def State.blockSection (s : State) (w : Window) (inst base : Nat) (b : Nat × Nat) : Section := ⟨1, inst, s.dumpRegs w base b.1 b.2⟩

/-- Section 2 of each enabled queue pair of a quadrant. -/
def State.pairSections (s : State) (q : Nat) : List Section :=
  ((List.range 1024).filter fun j => s.on (Reg.QUE_QP_CFG q j) Fld.QUE_QP_CFG_enable).map fun j =>
    ⟨2, q * 1024 + j, (List.range 7).flatMap fun i => leBytes 8 (s.readReg (Reg.QUE_QP_SQ_BASE q j + 8 * i)).toNat⟩

/-- A section whose layout is not given. -/
def State.openSection (s : State) (type inst : Nat) : Section := ⟨type, inst, Config.dumpSection type inst s.fresh⟩

/-- Section 7 of a bank: its contents and its written-line bitmap. -/
def State.bankSection (s : State) (bi : Nat) : Section :=
  ⟨7, bi, mgetList cellDefault s.banks.cells (bi * 262144) 262144 ++ (List.range 512).map fun i =>
    BitVec.ofNat 8 ((List.range 8).foldl (fun n b => n + bit (mget (fun _ => false) s.banks.written (bi * 4096 + 8 * i + b)) * 2 ^ b) 0)⟩

/-- The sections of a global dump (Table LP-5); under a sealed Bezel sections 6 and 7 are left out (R479). -/
def State.globalSections (s : State) : List Section :=
  let blocks :=
    (blocksOf .glob).map (s.blockSection .glob 0 0) ++
    ((List.range 4).flatMap fun q => (blocksOf .quad).map (s.blockSection .quad q (quadBase q))) ++
    ((List.range 32).flatMap fun n => (blocksOf .link).map (s.blockSection .link n (linkBase n)))
  let secret := s.sealed
  blocks ++ (List.range 4).flatMap s.pairSections ++ s.que.descs.zipIdx.map (fun d => s.openSection 3 d.2) ++
  (List.range 4).map (s.openSection 4) ++ (List.range 4).map (s.openSection 5) ++
  (if secret then [] else (List.range 256).map (s.openSection 6)) ++
  (if !secret && s.on Reg.LPE_DUMP_CTL Fld.LPE_DUMP_CTL_banks then (List.range 2048).map s.bankSection else []) ++
  (List.range 4).map (s.openSection 8) ++ (List.range 32).map (s.openSection 9)

/-- The sections of the hang dump of a quadrant (Table LP-5). -/
def State.hangSections (s : State) (q : Nat) : List Section :=
  hangBlocks.map (s.blockSection .quad q (quadBase q)) ++ s.pairSections q ++
  (s.que.descs.zipIdx.filter fun d => d.1.key.q.val == q).map (fun d => s.openSection 3 d.2) ++
  [s.openSection 4 q, s.openSection 5 q, s.openSection 8 q]

/-- A section with its header (R476). -/
def sectionBytes (x : Section) : List Byte := leBytes 2 x.type ++ leBytes 2 x.inst ++ leBytes 4 x.content.length ++ List.replicate 8 0 ++ x.content

/-- The whole sections that fit a number of bytes, from the first on. -/
def fitting : List Section → Nat → List Section
  | [], _ => []
  | x :: xs, room => if (sectionBytes x).length ≤ room then x :: fitting xs (room - (sectionBytes x).length) else []

/-- The image of a dump: its header and its sections (R476). -/
def State.dumpImage (s : State) (kind q start : Nat) (xs : List Section) : List Byte :=
  let body := xs.flatMap sectionBytes
  let flags := bit (xs.any fun x => x.type == 7) + 2 * bit s.sealed
  padTo 64 (leBytes 4 0x4D44504C ++ leBytes 2 1 ++ leBytes 1 kind ++ leBytes 1 q ++ leBytes 1 flags ++ List.replicate 3 0 ++
    leBytes 4 (s.fld Reg.LPE_DUMP_CTL Fld.LPE_DUMP_CTL_seq) ++ leBytes 8 start ++ leBytes 8 (64 + body.length) ++ leBytes 4 xs.length ++
    leBytes 4 (crc32c body)) ++ body

/-- The base of the dump area. -/
def State.dumpBase (s : State) : Nat := s.fld Reg.LPE_DUMP Fld.LPE_DUMP_base

/-- A dump begins: its sequence number and its NT. `i` is the quadrant, or 4 for a global dump. -/
def State.beginDump (s : State) (i : Nat) : State :=
  let s := s.countWrap Reg.LPE_DUMP_CTL Fld.LPE_DUMP_CTL_seq 1
  { s with loupe := { s.loupe with dumpNt := s.loupe.dumpNt.set i s.nt } }

/-- A write of LPE_DUMP_CTL: banks, and go for a global dump while stopped (R475). -/
def dumpCtlWrite (path : Path) (value : Word) (s : State) : State :=
  let s := s.writeFields path Reg.LPE_DUMP_CTL value
  if getF value Fld.LPE_DUMP_CTL_go != 1 then s
  else if !s.stopped || s.on Reg.LPE_DUMP_CTL Fld.LPE_DUMP_CTL_busy then s.logViol path 4 Reg.LPE_DUMP_CTL
  else if s.dumpBase = 0 then s.setFld Reg.LPE_DUMP_CTL Fld.LPE_DUMP_CTL_result 1
  else (s.beginDump 4).setFld Reg.LPE_DUMP_CTL Fld.LPE_DUMP_CTL_busy 1

def execDump (path : Path) (value : Word) (s : State) : Result :=
  .next (dumpCtlWrite path (setF value Fld.LPE_DUMP_CTL_go 1) s)

/-- DUMP_DONE: the whole sections that fit are written through the stack ports' direct path (R475). -/
def dumpDoneEff (s : State) : State :=
  if !s.on Reg.LPE_DUMP_CTL Fld.LPE_DUMP_CTL_busy then s
  else
    let all := s.globalSections
    let xs := fitting all (s.fld Reg.LPE_DUMP_LEN Fld.LPE_DUMP_LEN_length - 64)
    let s := s.pokePool (s.dumpBase + 2 ^ 22) (s.dumpImage 0 0 (s.loupe.dumpNt.getD 4 0) xs)
    let s := s.setFld Reg.LPE_DUMP_CTL Fld.LPE_DUMP_CTL_result (if xs.length = all.length then 0 else 2)
    { s.setFld Reg.LPE_DUMP_CTL Fld.LPE_DUMP_CTL_busy 0 with fresh := s.fresh + 1 }

def execDumpDone (s : State) : Result := .next (dumpDoneEff s)

/-- WATCHDOG_EXPIRY: the watchdog of a quadrant has counted timeout_ms; fetch, issue and instance starts stop, and the hang dump begins (R477). -/
def watchdogExpiryEff (q : Nat) (s : State) : State :=
  let w := s.reg (Reg.LPE_WDOG q)
  let limit := getF w Fld.LPE_WDOG_timeout_ms * 1000000
  if limit = 0 || getF w Fld.LPE_WDOG_expired = 1 || !s.loupe.wdogArmed.getD q true || s.loupe.wdog.getD q 0 < limit then s
  else
    let s := s.setReg (Reg.LPE_WDOG q) (setF (setF w Fld.LPE_WDOG_expired 1) Fld.LPE_WDOG_dumping 1)
    let s : State := { s with loupe := { s.loupe with wdogArmed := s.loupe.wdogArmed.set q false, hung := q :: s.loupe.hung.filter (· != q) } }
    let s := if s.dumpBase = 0 then s else s.beginDump q
    if s.on Reg.LPE_TRC_CFG Fld.LPE_TRC_CFG_trig_on_wdog then s.trigger 4 q else s

def execWatchdogExpiry (q : Quad) (s : State) : Result := .next (watchdogExpiryEff q s)

/-- HANG_DUMP_DONE: the hang dump stands in its slice, fetch and issue resume, and the record and the event follow (R477). The result of a dump is that of R475: 0, 1 with no area, 2 where it was cut. -/
def hangDumpDoneEff (q : Nat) (s : State) : State :=
  if !s.on (Reg.LPE_WDOG q) Fld.LPE_WDOG_dumping then s
  else
    let s := if s.dumpBase = 0 then s.setFld Reg.LPE_DUMP_CTL Fld.LPE_DUMP_CTL_result 1
      else
        let all := s.hangSections q
        let xs := fitting all (2 ^ 20 - 64)
        let s := s.setFld Reg.LPE_DUMP_CTL Fld.LPE_DUMP_CTL_result (if xs.length = all.length then 0 else 2)
        let s := s.pokePool (s.dumpBase + q * 2 ^ 20) (s.dumpImage 1 q (s.loupe.dumpNt.getD q 0) xs)
        { s.countWrap (Reg.LPE_WDOG q) Fld.LPE_WDOG_dumps 1 with fresh := s.fresh + 1 }
    let s := s.setFld (Reg.LPE_WDOG q) Fld.LPE_WDOG_dumping 0
    let s : State := { s with loupe := { s.loupe with hung := s.loupe.hung.filter (· != q) } }
    let pl := [BitVec.ofNat 8 q, 0, 0, 0] ++ leBytes 4 (s.fld Reg.LPE_DUMP_CTL Fld.LPE_DUMP_CTL_seq)
    (s.observe 15 0 0xFC6 1 noWork pl).raise 0x0E01 15 0 pl

def execHangDumpDone (q : Quad) (s : State) : Result := .next (hangDumpDoneEff q s)

/-- A write of LPE_WDOG: the bound, and rearm (R477). -/
def wdogWrite (path : Path) (q : Nat) (value : Word) (s : State) : State :=
  let s := s.writeFields path (Reg.LPE_WDOG q) value
  if getF value Fld.LPE_WDOG_rearm = 1 then
    let s := s.setFld (Reg.LPE_WDOG q) Fld.LPE_WDOG_expired 0
    { s with loupe := { s.loupe with wdogArmed := s.loupe.wdogArmed.set q true, wdog := s.loupe.wdog.set q 0 } }
  else s

def execWatchdogRearm (path : Path) (q : Quad) (value : Word) (s : State) : Result :=
  .next (wdogWrite path q (setF value Fld.LPE_WDOG_rearm 1) s)

/-- NT_HIGH_BITS_CHANGE: NT bits [63:48] differ from those of the last time record, and the trace writer writes one (R467). -/
def ntHighBitsChangeEff (s : State) : State :=
  let high := s.nt / 2 ^ 48 % 2 ^ 16
  if high = s.loupe.ntHigh then s
  else State.timeRecord { s with loupe := { s.loupe with ntHigh := high } } false

def execNtHighBitsChange (s : State) : Result := .next (ntHighBitsChangeEff s)

end Sys2Proof.Machine
end

