-- ==== Sys2Proof/Machine/Consistency.lean ====
section
/-! DEFINITION. The consistency rules that a commit is checked against, over the configuration that would result, and the register that a broken rule names (R64, R71, R94, R123, R152, R213, R247, R277, R300, R316, R342, R371, R396, R410, R434, R457, R481, R491). -/

namespace Sys2Proof.Machine

open Sys2Proof

/-- The registers that take part in one broken rule. -/
abbrev Broken := List Nat

/-- One instance of a rule: the registers that take part in it, where it is broken. -/
def broke (b : Bool) (regs : List Nat) : List Broken := if b then [regs] else []

/-- The instances that a register decoder finds among the registers that do not hold their reset values. -/
def State.instances {α : Type} [BEq α] (s : State) (f : Nat → Option α) : List α := ((s.regs.map (·.1)).filterMap f).eraseDups

/-- Quadrant and offset of a register in a quadrant window. -/
def quadRel (off : Nat) : Option (Nat × Nat) :=
  match windowOf off with
  | some (.quad, q, rel) => some (q, rel)
  | _ => none

/-- Link and offset of a register in a link window. -/
def linkRel (off : Nat) : Option (Nat × Nat) :=
  match windowOf off with
  | some (.link, n, rel) => some (n, rel)
  | _ => none

/-- The queue pair, as quadrant and local index, that a register belongs to. -/
def qpOf (off : Nat) : Option (Nat × Nat) :=
  (quadRel off).bind fun (q, rel) => if 0x10000 ≤ rel && rel < 0x20000 then some (q, (rel - 0x10000) / 0x40) else none

/-- The client whose QUE_CLIENT a register is. -/
def clientOfReg (off : Nat) : Option Nat :=
  (quadRel off).bind fun (q, rel) => if 0x1000 ≤ rel && rel < 0x1400 then some (4 * ((rel - 0x1000) / 8) + q) else none

/-- The client whose policing registers a register belongs to. -/
def policedOf (off : Nat) : Option Nat :=
  (quadRel off).bind fun (q, rel) => if 0x2000 ≤ rel && rel < 0x3000 then some (4 * ((rel - 0x2000) / 0x20) + q) else none

/-- The slab whose STK_SLAB a register is. -/
def slabOf (off : Nat) : Option Nat :=
  (quadRel off).bind fun (q, rel) => if 0x48000 ≤ rel && rel < 0x48000 + 3584 * 8 then some (4 * ((rel - 0x48000) / 8) + q) else none

/-- The link that a register in a range of its window belongs to. -/
def linkOf (lo hi off : Nat) : Option Nat :=
  (linkRel off).bind fun (n, rel) => if lo ≤ rel && rel < hi then some n else none

/-- The enables that QUE_CTL.enable requires in its quadrant (R123, R152, R213, R247, R277, R300, R316, R342). -/
def gatedBy (q : Nat) : List (Nat × Field) :=
  [(Reg.SEG_CTL q, Fld.SEG_CTL_enable), (Reg.STK_CTL q, Fld.STK_CTL_enable), (Reg.FAC_CTL q, Fld.FAC_CTL_enable),
   (Reg.RCP_CTL q, Fld.RCP_CTL_enable), (Reg.EXD_CTL q, Fld.EXD_CTL_enable), (Reg.ATN_CTL q, Fld.ATN_CTL_enable),
   (Reg.SHR_CTL q, Fld.SHR_CTL_enable), (Reg.COH_CTL q, Fld.COH_CTL_enable)]

/-- QUE_CTL.enable requires the other blocks of its quadrant. -/
def State.gateRules (s : State) : List Broken :=
  (List.range 4).flatMap fun q =>
    if s.on (Reg.QUE_CTL q) Fld.QUE_CTL_enable then
      (gatedBy q).flatMap fun g => broke (!s.on g.1 g.2) [Reg.QUE_CTL q, g.1]
    else []

/-- The two ring bases of a queue pair: register, address word and entry size (R70). -/
def State.rings (s : State) (q j : Nat) : List (Nat × Nat × Nat) :=
  [(Reg.QUE_QP_SQ_BASE q j, (s.reg (Reg.QUE_QP_SQ_BASE q j)).toNat, 64),
   (Reg.QUE_QP_CQ_BASE q j, (s.reg (Reg.QUE_QP_CQ_BASE q j)).toNat, 32)]

/-- R71 and R94 for one queue pair. -/
def State.qpRules (s : State) (q j : Nat) : List Broken :=
  let cfg := Reg.QUE_QP_CFG q j
  let k := s.fld cfg Fld.QUE_QP_CFG_ring_log2
  let m := s.fld cfg Fld.QUE_QP_CFG_max_inflight
  broke (k < 6 || 16 < k) [cfg] ++
  broke (m < 1 || 2 ^ k < m || 64 < m) [cfg] ++
  ((s.rings q j).flatMap fun r =>
    broke (spaceOf r.2.1 == 3 || addrOf r.2.1 % (r.2.2 * 2 ^ k) != 0) [cfg, r.1]) ++
  broke (s.on cfg Fld.QUE_QP_CFG_enable &&
      !(s.on (clientReg (clientOf q j)) Fld.QUE_CLIENT_enable && s.on (Reg.QUE_CTL q) Fld.QUE_CTL_enable))
    [cfg, clientReg (clientOf q j), Reg.QUE_CTL q]

/-- The ring bases of a client's eight queue pairs. -/
def State.clientRings (s : State) (c : Nat) : List (Nat × Nat × Nat) := (qpsOf c).flatMap fun j => s.rings (c % 4) j

/-- A client that the fabric reaches is not on the NP32's own node (R94). -/
def State.clientRules (s : State) (c : Nat) : List Broken :=
  broke ((s.on (clientReg c) Fld.QUE_CLIENT_fabric_db || (s.clientRings c).any fun r => spaceOf r.2.1 == 2) &&
      s.fld (clientReg c) Fld.QUE_CLIENT_node == s.node)
    [clientReg c, Reg.RTE_CTL]

/-- R71 and R94. -/
def State.queueRules (s : State) : List Broken :=
  let qps := s.instances qpOf
  (qps.flatMap fun p => s.qpRules p.1 p.2) ++
  ((qps.map fun p => clientOf p.1 p.2) ++ s.instances clientOfReg).eraseDups.flatMap s.clientRules

/-- The frames that a slab takes: the stacks, the first frame and how many of each (R130). -/
def slabFrames (mode home frame : Nat) : List Nat × Nat × Nat :=
  if mode = 0 then ([home], frame, 32)
  else if mode = 1 then ((List.range 8).map fun i => 8 * home + i, frame, 4)
  else (List.range 32, frame, 1)

/-- Whether two placements share a frame of a stack. -/
def framesMeet (a b : List Nat × Nat × Nat) : Bool :=
  a.1.any (fun st => b.1.contains st) && decide (a.2.1 < b.2.1 + b.2.2) && decide (b.2.1 < a.2.1 + a.2.2)

/-- The placement of a slab. -/
def State.slabPlace (s : State) (n : Nat) : List Nat × Nat × Nat :=
  slabFrames (s.fld (slabReg n) Fld.STK_SLAB_mode) (s.fld (slabReg n) Fld.STK_SLAB_home) (s.fld (slabReg n) Fld.STK_SLAB_frame)

/-- The rules of R152 on one enabled slab. -/
def State.slabRules (s : State) (n : Nat) : List Broken :=
  let mode := s.fld (slabReg n) Fld.STK_SLAB_mode
  let home := s.fld (slabReg n) Fld.STK_SLAB_home
  let (_, frame, count) := s.slabPlace n
  broke (decide (s.slabCount ≤ n)) [slabReg n] ++
  broke (mode == 3) [slabReg n] ++
  broke (mode == 1 && decide (3 < home)) [slabReg n] ++
  broke (mode != 3 && (frame % count != 0 || decide (s.slabCount < frame + count))) [slabReg n]

/-- The slabs that an enabled slab, first of the list, collides with. -/
def State.slabClashes (s : State) : List Nat → List Broken
  | [] => []
  | n :: rest => (rest.flatMap fun m => broke (framesMeet (s.slabPlace n) (s.slabPlace m)) [slabReg n, slabReg m]) ++ s.slabClashes rest

/-- R152. -/
def State.poolRules (s : State) : List Broken :=
  let on := (s.instances slabOf).filter fun n => s.on (slabReg n) Fld.STK_SLAB_enable
  let modes := (List.range 4).map fun q => s.fld (Reg.STK_CTL q) Fld.STK_CTL_pool_mode
  broke (modes.eraseDups.length != 1) ((List.range 4).map fun q => Reg.STK_CTL q) ++
  on.flatMap s.slabRules ++
  s.slabClashes (on.filter fun n => s.fld (slabReg n) Fld.STK_SLAB_mode != 3)

/-- The registers that keep a range of pool memory from lying in enabled slabs: the STK_SLAB of each slab that is not enabled, or STK_CTL past the slab count. -/
def State.outside (s : State) (pa n : Nat) : List Nat :=
  ((List.range ((pa + n - 1) / 2 ^ 30 + 1 - pa / 2 ^ 30)).map fun i => pa / 2 ^ 30 + i).filterMap fun k =>
    if s.slabCount ≤ k then some (Reg.STK_CTL 0)
    else if s.on (slabReg k) Fld.STK_SLAB_enable then none else some (slabReg k)

/-- A range that registers name must lie in enabled slabs. -/
def State.inEnabled (s : State) (pa n : Nat) (regs : List Nat) : List Broken :=
  match s.outside pa n with
  | [] => []
  | l => [regs ++ l]

/-- The quadrants in which a block is enabled, as its control registers. -/
def State.enabledIn (s : State) (reg : Nat → Nat) (f : Field) : List Nat :=
  ((List.range 4).map reg).filter fun r => s.on r f

/-- R247, R277 and R316: tables inside enabled slabs. -/
def State.tableRules (s : State) : List Broken :=
  let rcp := s.enabledIn Reg.RCP_CTL Fld.RCP_CTL_enable
  let exd := s.enabledIn Reg.EXD_CTL Fld.EXD_CTL_enable
  let work := s.fld (Reg.EXD_WORK 0) Fld.EXD_WORK_base
  (if rcp.isEmpty then [] else
    s.inEnabled (s.fld (Reg.RCP_STORE 0) Fld.RCP_STORE_base) (2 ^ 23) (rcp ++ [Reg.RCP_STORE 0])) ++
  (if exd.isEmpty then [] else
    s.inEnabled (s.fld (Reg.EXD_TABLE 0) Fld.EXD_TABLE_base) (2 ^ 14) (exd ++ [Reg.EXD_TABLE 0])) ++
  (if work = 0 then [] else s.inEnabled work (2 ^ 27) [Reg.EXD_WORK 0]) ++
  (List.range 4).flatMap fun q =>
    if s.on (Reg.SHR_CTL q) Fld.SHR_CTL_enable then
      s.inEnabled (s.fld (Reg.SHR_RGN_BASE q) Fld.SHR_RGN_BASE_base) (2 ^ 21) [Reg.SHR_CTL q, Reg.SHR_RGN_BASE q]
    else []

/-- R342. -/
def State.ilcenRules (s : State) : List Broken :=
  let on := s.on (Reg.ILC_CTL 0) Fld.ILC_CTL_enable
  ((List.range 4).flatMap fun q =>
    broke (on && !s.on (Reg.COH_CTL q) Fld.COH_CTL_enable) [Reg.ILC_CTL 0, Reg.COH_CTL q]) ++
  (List.range 8).flatMap fun a =>
    broke (!on && s.on (Reg.ILC_AGENT 0 a) Fld.ILC_AGENT_enable) [Reg.ILC_CTL 0, Reg.ILC_AGENT 0 a]

/-- R371. -/
def State.linkRules (s : State) : List Broken :=
  let sources := ((List.range 32).filter fun n => s.timeSource n).map fun n => Reg.LNK_TIME_CFG n
  broke (decide (1 < sources.length)) sources ++
  (s.instances (linkOf 0x40 0x80)).flatMap fun n =>
    let allocs := (List.range 8).map fun v => s.fld (Reg.LNK_VC n v) Fld.LNK_VC_alloc
    broke (decide (1536 < allocs.foldl (· + ·) 0)) ((List.range 8).map fun v => Reg.LNK_VC n v) ++
    (List.range 8).flatMap fun v => broke (decide (allocs.getD v 0 < 4)) [Reg.LNK_VC n v]

/-- R396. -/
def State.routeRules (s : State) : List Broken :=
  let any := s.verValid 0 || s.verValid 1
  broke (any && !s.verValid (s.fld Reg.RTE_CTL Fld.RTE_CTL_inj_epoch)) [Reg.RTE_CTL, Reg.RTE_VER] ++
  broke (s.pairing && s.fld Reg.RTE_ALIAS Fld.RTE_ALIAS_alias == s.node) [Reg.PAI_CTL, Reg.RTE_CTL, Reg.RTE_ALIAS] ++
  broke (decide (s.fld Reg.RTE_TIMING Fld.RTE_TIMING_drain_us < s.fld Reg.RTE_TIMING Fld.RTE_TIMING_lifetime_us)) [Reg.RTE_TIMING]

/-- The longest run of open time of a class in a list of durations and masks, `run` being the run that leads to its start (R400). -/
def longestOpen (t : Nat) : List (Nat × Nat) → Nat → Nat
  | [], run => run
  | (d, m) :: rest, run => if m.testBit t then longestOpen t rest (run + d) else max run (longestOpen t rest 0)

/-- R410 for one link. -/
def State.gateListRules (s : State) (n : Nat) : List Broken :=
  if s.on (Reg.TSC_CTL n) Fld.TSC_CTL_enable then
    let ctl := Reg.TSC_CTL n
    let k := s.fld ctl Fld.TSC_CTL_n_entries
    let gates := (List.range (min k 256)).map fun i => Reg.TSC_GATE n i
    let durs := gates.map fun g => s.fld g Fld.TSC_GATE_duration_ns
    let cyc := s.fld (Reg.TSC_CYCLE n) Fld.TSC_CYCLE_cycle_ns
    let list := s.gateList n
    broke (k < 1 || 256 < k) [ctl] ++
    broke (durs.any (· == 0)) (ctl :: gates) ++
    broke (decide (cyc < durs.foldl (· + ·) 0) || decide (16000000 < cyc)) (ctl :: Reg.TSC_CYCLE n :: gates) ++
    (List.range 8).flatMap fun t =>
      broke (!(list.all fun e => e.2.testBit t) && decide (longestOpen t (list ++ list) 0 < 180)) (ctl :: Reg.TSC_CYCLE n :: gates)
  else []

/-- R410. -/
def State.trafficRules (s : State) : List Broken :=
  (s.instances (linkOf 0x800 0x1000)).flatMap s.gateListRules ++
  (s.instances policedOf).flatMap fun c =>
    broke (s.fld (Reg.QUE_POL_RATE (c % 4) (c / 4)) Fld.QUE_POL_RATE_rate_mbs != 0 &&
        decide (s.fld (Reg.QUE_POL_BURST (c % 4) (c / 4)) Fld.QUE_POL_BURST_burst < 8479))
      [Reg.QUE_POL_RATE (c % 4) (c / 4), Reg.QUE_POL_BURST (c % 4) (c / 4)]

/-- A mirror region: register, first slab, slab count and class. -/
def State.mregions (s : State) : List (Nat × Nat × Nat × Nat) :=
  (List.range 64).filterMap fun r =>
    let w := s.reg (Reg.PAI_MREGION r)
    if getF w Fld.PAI_MREGION_valid = 1 then
      some (Reg.PAI_MREGION r, getF w Fld.PAI_MREGION_first, getF w Fld.PAI_MREGION_count, getF w Fld.PAI_MREGION_class)
    else none

/-- The pairs of mirror regions that overlap. -/
def regionClashes : List (Nat × Nat × Nat × Nat) → List Broken
  | [] => []
  | a :: rest =>
    (rest.flatMap fun b => broke (decide (a.2.1 < b.2.1 + b.2.2.1) && decide (b.2.1 < a.2.1 + a.2.2.1)) [Reg.PAI_CTL, a.1, b.1]) ++
    regionClashes rest

/-- R434, while pairing is enabled. -/
def State.pairRules (s : State) : List Broken :=
  if s.pairing then
    let m := s.mirrorClient
    let pol := Reg.QUE_POL_RATE (m % 4) (m / 4)
    let fabricName := s.fld Reg.RTE_ALIAS Fld.RTE_ALIAS_alias
    let area := s.pairArea
    let areaSlabs := (List.range ((area + 2 ^ 26 + 2 ^ 18 - 1) / 2 ^ 30 + 1 - area / 2 ^ 30)).map fun i => area / 2 ^ 30 + i
    broke (s.partner == s.node) [Reg.PAI_CTL, Reg.RTE_CTL] ++
    broke (s.partner == fabricName) [Reg.PAI_CTL, Reg.RTE_ALIAS] ++
    broke (fabricName == s.node) [Reg.PAI_CTL, Reg.RTE_CTL, Reg.RTE_ALIAS] ++
    broke (!s.on (clientReg m) Fld.QUE_CLIENT_enable || s.on (clientReg m) Fld.QUE_CLIENT_priv) [Reg.PAI_CTL, clientReg m] ++
    broke (s.fld pol Fld.QUE_POL_RATE_rate_mbs != 0) [Reg.PAI_CTL, pol] ++
    broke (s.paired m) [Reg.PAI_CTL, Reg.PAI_CLIENT (m / 64)] ++
    ((List.range 512).filter s.paired).flatMap (fun c =>
      let own := [Reg.PAI_CTL, Reg.PAI_CLIENT (c / 64)]
      broke (s.on (clientReg c) Fld.QUE_CLIENT_priv) (own ++ [clientReg c]) ++
      (s.clientRings c).flatMap fun r =>
        broke (spaceOf r.2.1 == 1 || (spaceOf r.2.1 == 0 && s.mirrorClass (addrOf r.2.1 / 2 ^ 30) != 2)) (own ++ [r.1])) ++
    regionClashes s.mregions ++
    s.mregions.flatMap (fun r =>
      broke (r.2.2.2 == 3 || decide (s.slabCount < r.2.1 + r.2.2.1)) [Reg.PAI_CTL, r.1]) ++
    s.inEnabled area (2 ^ 26 + 2 ^ 18) [Reg.PAI_CTL, Reg.PAI_JOURNAL] ++
    broke (areaSlabs.any fun n => s.mirrorClass n != 2) [Reg.PAI_CTL, Reg.PAI_JOURNAL] ++
    [7, 15, 23, 31].flatMap fun n => broke (!s.on (Reg.LNK_CTL n) Fld.LNK_CTL_enable) [Reg.PAI_CTL, Reg.LNK_CTL n]
  else []

/-- The registers that keep a range from lying inside tenant slabs. -/
def State.inTenant (s : State) (pa n : Nat) (regs : List Nat) : List Broken :=
  broke (!((List.range ((pa + n - 1) / 2 ^ 30 + 1 - pa / 2 ^ 30)).all fun i => s.tenantSlab (pa / 2 ^ 30 + i))) regs

/-- The ring bases and the event target of a queue pair, as register and address word. -/
def State.qpAddrs (s : State) (q j : Nat) : List (Nat × Nat) :=
  ((s.rings q j).map fun r => (r.1, r.2.1)) ++ [(Reg.QUE_QP_EV q j, s.fld (Reg.QUE_QP_EV q j) Fld.QUE_QP_EV_target)]

/-- Table SE-9, under the tenant table and seal map that the registers hold; `old` is the configuration before the commit. -/
def State.sealRules (s old : State) : List Broken :=
  let work := s.fld (Reg.EXD_WORK 0) Fld.EXD_WORK_base
  let dst := (s.reg Reg.SEC_QUOTE_DST).toNat
  let slabs := (s.instances slabOf).filter s.tenantSlab
  (slabs.flatMap fun n =>
    broke (s.on (slabReg n) Fld.STK_SLAB_enable && old.on (slabReg n) Fld.STK_SLAB_enable && s.slabPlace n != old.slabPlace n) [slabReg n]) ++
  s.inTenant (s.fld (Reg.RCP_STORE 0) Fld.RCP_STORE_base) (2 ^ 23) [Reg.RCP_STORE 0] ++
  s.inTenant (s.fld (Reg.EXD_TABLE 0) Fld.EXD_TABLE_base) (2 ^ 14) [Reg.EXD_TABLE 0] ++
  (if work = 0 then [] else s.inTenant work (2 ^ 27) [Reg.EXD_WORK 0]) ++
  ((List.range 512).flatMap fun c =>
    if s.isTenant c then
      ((s.clientRings c).flatMap fun r =>
        broke (!(spaceOf r.2.1 == 2 || (spaceOf r.2.1 == 0 && s.tenantSlab (addrOf r.2.1 / 2 ^ 30)))) [r.1]) ++
      (qpsOf c).flatMap fun j => (s.qpAddrs (c % 4) j).flatMap fun a => broke (spaceOf a.2 == 1) [a.1]
    else
      (qpsOf c).flatMap fun j => (s.qpAddrs (c % 4) j).flatMap fun a =>
        broke (spaceOf a.2 == 0 && s.tenantSlab (addrOf a.2 / 2 ^ 30)) [a.1]) ++
  broke (spaceOf dst == 0 && s.touchesTenant (addrOf dst) (3652 + 65536)) [Reg.SEC_QUOTE_DST] ++
  broke (s.pairing && !s.isPeer s.partner) [Reg.PAI_CTL]

/-- The tenant table emptied, as a commit during RELEASING sees it (R452). -/
def State.withoutTenants (s : State) : State := (List.range 16).foldl (fun (s : State) e => s.setReg (Reg.SEC_TENANT e) 0) s

/-- R457 at a commit. -/
def State.bezelRules (s old : State) : List Broken :=
  if s.bezel = 1 then s.sealRules old else if s.bezel = 2 then s.withoutTenants.sealRules old else []

/-- R481. -/
def State.loupeRules (s : State) : List Broken :=
  let len := s.fld Reg.LPE_TRC_LEN Fld.LPE_TRC_LEN_length
  let dlen := s.fld Reg.LPE_DUMP_LEN Fld.LPE_DUMP_LEN_length
  let dump := s.fld Reg.LPE_DUMP Fld.LPE_DUMP_base
  (if s.on Reg.LPE_TRC_CTL Fld.LPE_TRC_CTL_enable && s.on Reg.LPE_TRC_CFG Fld.LPE_TRC_CFG_dest then
    broke (len % 4096 != 0 || decide (len < 65536) || decide (2 ^ 36 < len)) [Reg.LPE_TRC_CTL, Reg.LPE_TRC_CFG, Reg.LPE_TRC_LEN] ++
    s.inEnabled (s.fld Reg.LPE_TRC_SEG Fld.LPE_TRC_SEG_base) (max len 1)
      [Reg.LPE_TRC_CTL, Reg.LPE_TRC_CFG, Reg.LPE_TRC_SEG, Reg.LPE_TRC_LEN]
  else []) ++
  (if dump = 0 then [] else
    broke (dlen % 2 ^ 20 != 0) [Reg.LPE_DUMP, Reg.LPE_DUMP_LEN] ++
    s.inEnabled dump (2 ^ 22 + dlen) [Reg.LPE_DUMP, Reg.LPE_DUMP_LEN])

/-- R491. -/
def State.eventRules (s : State) : List Broken :=
  if s.on Reg.EVT_CTL Fld.EVT_CTL_enable then
    let w := (s.reg Reg.EVT_RING_BASE).toNat
    let k := s.evtLog
    broke (spaceOf w != 1 || addrOf w % (32 * 2 ^ k) != 0) [Reg.EVT_CTL, Reg.EVT_RING_BASE] ++
    broke (k < 6 || 16 < k) [Reg.EVT_CTL]
  else []

/-- Every rule that a configuration breaks. `s` holds the configuration as live values, `old` the one before the commit. -/
def State.brokenRules (s old : State) : List Broken :=
  s.gateRules ++ s.queueRules ++ s.poolRules ++ s.tableRules ++ s.ilcenRules ++ s.linkRules ++ s.routeRules ++ s.trafficRules ++
  s.pairRules ++ s.bezelRules old ++ s.loupeRules ++ s.eventRules

/-- Whether a register has an RWS field. -/
def isStagedReg (off : Nat) : Bool := accMask off .rws != 0

/-- The lowest of a list of offsets. -/
def lowest : List Nat → Option Nat
  | [] => none
  | a :: l => some (l.foldl min a)

/-- The offset that broken rules report: the lowest RWS register that takes part in one, or else the lowest register that does; none where no rule is broken (R64). -/
def faultOffset (bs : List Broken) : Option Nat :=
  match lowest (bs.flatten.filter isStagedReg) with
  | some o => some o
  | none => lowest bs.flatten

end Sys2Proof.Machine
end

