-- ==== Sys2Proof/Machine/Security.lean ====
section
/-! DEFINITION. Hallmark and the Bezel: quotes, binding, release and svn commit (R437 to R457). -/

namespace Sys2Proof.Machine

open Sys2Proof

/-- SEC_STATUS.result. -/
def State.secResult (s : State) (code : Nat) : State := s.setFld Reg.SEC_STATUS Fld.SEC_STATUS_result code

/-- What Hallmark is at work on, set. -/
def State.setSecJob (s : State) (j : Option SecJob) : State := { s with sec := { s.sec with job := j } }

/-- Quotes left in the current session. -/
def State.quotesLeft (s : State) : Nat := s.fld Reg.SEC_STATUS Fld.SEC_STATUS_quotes_left

/-- The bytes of the mailbox. -/
def State.mailbox (s : State) : List Byte := (List.range 64).flatMap fun w => leBytes 8 (s.reg (Reg.SEC_MBOX w)).toNat

/-- A quote request is accepted: a session is opened where none is, which blows a fuse bit, one of its quotes is used, and the ephemeral key of the quote before is destroyed (R440, R441). Without a session left the request fails with result 2. -/
def State.startQuote (s : State) : State :=
  let s := { s with sec := { s.sec with mboxHidden := false } }
  if s.sec.session.isNone && 1024 ≤ s.sec.sessionsUsed then s.secResult 2
  else
    let s :=
      match s.sec.session with
      | some _ => s
      | none =>
        ({ s with sec := { s.sec with session := some s.sec.sessionsUsed, sessionsUsed := s.sec.sessionsUsed + 1 } } : State).setFld
          Reg.SEC_STATUS Fld.SEC_STATUS_quotes_left 32768
    let s := s.setFld Reg.SEC_STATUS Fld.SEC_STATUS_quotes_left (s.quotesLeft - 1)
    { s with sec := { s.sec with ephemeral := none, job := some (.quote (s.mailbox.take 48) (s.reg Reg.SEC_QUOTE_DST).toNat) } }

/-- A digest as its byte string, first byte first. -/
def digestBytes (d : Nat) : List Byte := (leBytes 48 d).reverse

/-- Bytes 0 to 383 of a quote (Table SE-4). -/
def State.quoteBody (s : State) (nonce : List Byte) (session certLength draw : Nat) : List Byte :=
  leBytes 4 0x4B4D4C48 ++ leBytes 2 1 ++ leBytes 1 s.bezel ++ [0] ++ leBytes 16 Config.deviceId.toNat ++ leBytes 8 s.nt ++
  padTo 48 nonce ++ digestBytes s.boot.fwDigest ++ (if s.boot.defaulted then List.replicate 48 0 else digestBytes s.boot.cfgDigest) ++
  leBytes 4 s.boot.fwSvn ++ leBytes 4 s.sec.svnMin ++ leBytes 8 (s.reg Reg.SEC_KEY_ID).toNat ++ leBytes 4 session ++ leBytes 4 certLength ++
  padTo 97 (Config.ecdhPub draw) ++ List.replicate 87 0

/-- A quote of 3,652 bytes: the body and the two signatures over its SHA-384 (Table SE-4). -/
def quoteBytes (body : List Byte) (session left : Nat) : List Byte :=
  let digest := Config.sha384 body
  body ++ padTo 96 (Config.ecdsaSig digest) ++ padTo 3172 (Config.hssSig session left digest)

/-- The quote and certificate written at an address word: outside every tenant slab, in enabled slabs or in companion memory over an ACTIVE Ilcen link (R441). None where the destination cannot be written; the state unchanged with `false` where the write must wait. -/
def State.writeQuote (s : State) (env : Env) (dst : Nat) (bytes : List Byte) : Option (State × Bool) :=
  match spaceOf dst with
  | 0 =>
    if s.touchesTenant (addrOf dst) (3652 + 65536) || !s.inSlabs (addrOf dst) (3652 + 65536) then none
    else
      match s.poolWrite env .home (addrOf dst) bytes with
      | (s', .ok _ _ _) => some (s', true)
      | (_, .fail _ _) => none
      | (_, .held) => some (s, false)
  | 1 => if s.ilcActive then some (s.emit (.ilcenWrite (addrOf dst) bytes), true) else none
  | _ => none

/-- QUOTE_DONE: the quote and the certificate blob are written and the result is set (R441). -/
def quoteDoneEff (cert : List Byte) (env : Env) (s : State) : State :=
  match s.sec.job with
  | some (.quote nonce dst) =>
    let session := s.sec.session.getD 0
    let (draw, s1) := s.draw
    let blob := cert.take 65536
    let body := s1.quoteBody nonce session blob.length draw
    let done (s : State) (code : Nat) : State :=
      let s := (s.setSecJob none).secResult code
      if s.quotesLeft = 0 then { s with sec := { s.sec with session := none } } else s
    match s1.writeQuote env dst (quoteBytes body session s.quotesLeft ++ blob) with
    | none => done s1 3
    | some (_, false) => s
    | some (s2, true) =>
      done { s2 with sec := { s2.sec with ephemeral := some (draw, (Config.sha384 body).toNat) } } 0
  | _ => s

def execQuoteDone (cert : List Byte) (env : Env) (s : State) : Result := .next (quoteDoneEff cert env s)

/-- A tenant entry of a bind record: its four bytes as SEC_TENANT holds them (Table SE-5). -/
def recordEntry (r : List Byte) (e : Nat) : Nat := leAt r (72 + 4 * e) 4

/-- A slab range of a bind record: first slab and count (Table SE-5). -/
def recordRange (r : List Byte) (i : Nat) : Nat × Nat := (leAt r (136 + 4 * i) 2, leAt r (138 + 4 * i) 2)

/-- The slabs that the ranges of a bind record name. -/
def recordSlabs (r : List Byte) : List Nat :=
  ((List.range 16).flatMap fun i => (List.range (recordRange r i).2).map fun k => (recordRange r i).1 + k).eraseDups

/-- The clients of the tenant entries of a bind record with their nodes. -/
def recordClients (r : List Byte) : List (Nat × Nat) :=
  (List.range 16).filterMap fun e =>
    let w := recordEntry r e
    if w.testBit 15 && !w.testBit 14 then some (w % 512, w / 65536) else none

/-- The tenant table, the seal map and the key ID loaded from a bind record (Table SE-2). -/
def State.loadTenant (s : State) (r : List Byte) : State :=
  let s := (List.range 16).foldl (fun (s : State) e => s.setReg (Reg.SEC_TENANT e) (BitVec.ofNat 64 (recordEntry r e))) s
  let s := (recordSlabs r).foldl (fun (s : State) n =>
    s.setReg (Reg.SEC_SEAL_MAP (n / 64)) (s.reg (Reg.SEC_SEAL_MAP (n / 64)) ||| BitVec.ofNat 64 (2 ^ (n % 64)))) s
  s.setReg Reg.SEC_KEY_ID (BitVec.ofNat 64 (leAt r 64 8))

/-- The tenant table, the seal map and the key ID cleared (R451). -/
def State.clearTenant (s : State) : State :=
  let s := s.withoutTenants
  let s := (List.range 224).foldl (fun (s : State) w => s.setReg (Reg.SEC_SEAL_MAP w) 0) s
  s.setReg Reg.SEC_KEY_ID 0

/-- The form of a bind record (Table SE-6, check 6). -/
def State.recordForm (s : State) (r : List Byte) : Bool :=
  ((slice r 200 56).all (· == 0)) && leAt r 64 8 != 0 && slice r 0 32 != slice r 32 32 && !(recordClients r).isEmpty &&
  (recordSlabs r).all fun n => decide (n < s.slabCount) && s.on (slabReg n) Fld.STK_SLAB_enable

/-- The result of a bind request: the first check of Table SE-6 that fails, or the record accepted. -/
def State.bindCheck (s : State) : Nat × List Byte :=
  let m := s.mailbox
  let pub := slice m 0 97
  if s.bezel != 0 || s.sec.job.isSome then (1, [])
  else if (s.que.descs.any fun d => d.phase != .fetched) || s.rcp.run.isSome || s.pairing then (2, [])
  else
    match s.sec.ephemeral with
    | none => (3, [])
    | some (draw, hash) =>
      if !Config.validPoint pub then (4, [])
      else
        match Config.unwrapRecord draw hash pub (slice m 104 264) with
        | none => (5, [])
        | some r0 =>
          let r := padTo 256 r0
          if !s.recordForm r then (6, [])
          else if !((recordClients r).all fun c =>
              s.on (clientReg c.1) Fld.QUE_CLIENT_enable && s.fld (clientReg c.1) Fld.QUE_CLIENT_node == c.2 &&
              s.on (clientReg c.1) Fld.QUE_CLIENT_fabric_db) then (7, [])
          else
            let t := (s.loadTenant r).setFld Reg.SEC_STATUS Fld.SEC_STATUS_state 1
            if !(t.sealRules t).isEmpty then (8, []) else (0, r)

/-- A bind request: it is checked, the ephemeral key is destroyed whatever the result, and the mailbox reads 0 from now on; an accepted one starts the bind fill (R444, Table SE-2, Table SE-7). -/
def State.startBind (s : State) : State :=
  let (code, r) := s.bindCheck
  let s := { s with sec := { s.sec with ephemeral := none, mboxHidden := true } }
  let s := s.secResult code
  if code = 0 then s.setSecJob (some (.bindFill r)) else s

/-- Every line of every line cache and companion agent back-invalidated, its data discarded (R445, R451). Lines of open transactions are left to their end. -/
def State.backInvAll (s : State) : State :=
  let free (e : DirEntry) : Bool := !s.lineBusy e.line
  let held := (s.coh.dir.flatten.filter free).flatMap fun e => ((s.holders e).filter fun h => decide (32 ≤ h)).map fun h => (h - 32, e.line)
  let s := held.foldl (fun (s : State) h => s.emit (.snoop h.1 .backInv h.2 0)) s
  { s with coh := { s.coh with
      caches := s.coh.caches.map fun _ => []
      dir := s.coh.dir.map fun l => l.filter fun e => !free e } }

/-- Every recipe slot emptied. -/
def State.emptyRecipes (s : State) : State := (List.range 16).foldl (fun (s : State) w => s.setReg (Reg.RCP_VALID 0 w) 0) s

/-- The written-line bitmap of every bank cleared (R164). -/
def State.clearBitmaps (s : State) : State := { s with banks := { s.banks with written := [] } }

/-- Every granule of every working stack written: what the cells held is gone, and a row that lost granules keeps only those of failed stacks (R445, R451). -/
def State.fillStacks (s : State) : State :=
  let s : State := { s with pool := { s.pool with cells := s.pool.cells.filter fun e => s.stackFailed (e.1 / 2 ^ 39) } }
  (List.range 4).foldl (fun (s : State) q =>
    (List.range 256).foldl (fun (s : State) e =>
      let w := s.reg (Reg.CLS_ROW_LOG q e)
      if getF w Fld.CLS_ROW_LOG_valid = 1 then
        let m := getF w Fld.CLS_ROW_LOG_lost &&& s.fld (Reg.CLS_STATUS q) Fld.CLS_STATUS_failed
        if m = 0 then s.freeRow q e else s.setFld (Reg.CLS_ROW_LOG q e) Fld.CLS_ROW_LOG_lost m
      else s) s) s

/-- The segments of every client that map a byte of a tenant slab are invalidated (R445). -/
def State.dropTenantSegs (s : State) (slabs : List Nat) : State :=
  (List.range 512).foldl (fun (s : State) c =>
    ((s.validSegs c).filter fun e => slabs.any fun n => decide (e.pa < (n + 1) * 2 ^ 30) && decide (n * 2 ^ 30 < e.pa + e.len)).foldl
      (fun (s : State) e => s.installEntry c e.seg []) s) s

/-- BIND_FILL_DONE: the bind fill of R445 has run, and the Bezel enters BOUND. -/
def bindFillDoneEff (s : State) : State :=
  match s.sec.job with
  | some (.bindFill r) =>
    let s := s.backInvAll
    let s := s.dropTenantSegs (recordSlabs r)
    let s := s.emptyRecipes.clearBitmaps
    let s := { s with sec := { s.sec with key := some ⟨leAt r 0 32, leAt r 32 32⟩ } }
    let s := s.fillStacks.loadTenant r
    (s.setSecJob none).setBezel 1
  | _ => s

def execBindFillDone (s : State) : Result := .next (bindFillDoneEff s)

/-- RELEASE accepted: descriptors that have not started end with 0xA002, and started work runs on (R451). -/
def State.startRelease (s : State) : State :=
  let s := (s.setBezel 2).setSecJob (some .drain)
  let s := { s with sec := { s.sec with releaseNt := s.nt } }
  (s.que.descs.filter fun d => d.phase == .fetched || d.phase == .issued).foldl (fun (s : State) d => s.endDesc d 0xA002 0 0) s

/-- Whether work that had started before the release is still to end. -/
def State.draining (s : State) : Bool := (s.que.descs.any fun d => d.phase == .issued || d.phase == .started) || s.rcp.run.isSome

/-- Started work of a descriptor ends with 0xA002: what its executing unit holds for it is dropped (R451). -/
def State.abandon (s : State) (d : Desc) : State :=
  let s := s.releaseTiles d.key
  let s : State :=
    match s.runOf d.key with
    | some _ => { s with rcp := { s.rcp with run := none, jobs := [], transfers := [], sums := [], sends := [], decoding := []
                                             channels := s.rcp.channels.filter fun c => c.key != d.key } }
    | none => s
  let s : State := { s with que := { s.que with syncs := s.que.syncs.filter fun y => y.key != d.key } }
  s.finishDesc d 0xA002 0 0

/-- RELEASE_DRAIN_END: started work has ended, or ends with 0xA002 when SEC_CFG.drain_ms has passed; the key is destroyed and the stacks are zero-written (R451). -/
def releaseDrainEndEff (s : State) : State :=
  match s.sec.job with
  | some .drain =>
    if s.draining && decide (s.nt < s.sec.releaseNt + s.fld Reg.SEC_CFG Fld.SEC_CFG_drain_ms * 1000000) then s
    else
      let s := (s.que.descs.filter fun d => d.phase == .issued || d.phase == .started).foldl State.abandon s
      let s := { s with sec := { s.sec with key := none, job := some .scrub } }
      s.fillStacks
  | _ => s

def execReleaseDrainEnd (s : State) : Result := .next (releaseDrainEndEff s)

/-- RELEASE_SCRUB_DONE: caches, bitmaps, recipe slots and the tenant tables are cleared, and the Bezel enters OPEN (R451). -/
def releaseScrubDoneEff (s : State) : State :=
  match s.sec.job with
  | some .scrub => ((s.backInvAll.clearBitmaps.emptyRecipes.clearTenant).setSecJob none).setBezel 0
  | _ => s

def execReleaseScrubDone (s : State) : Result := .next (releaseScrubDoneEff s)

/-- SVN_COMMIT_DONE: the count of blown bits is the svn of the running image, where that is higher (R455). -/
def svnCommitDoneEff (s : State) : State :=
  match s.sec.job with
  | some .svn => ({ s with sec := { s.sec with svnMin := max s.sec.svnMin s.boot.fwSvn } } : State).setSecJob none
  | _ => s

def execSvnCommitDone (s : State) : Result := .next (svnCommitDoneEff s)

/-- Whether Hallmark takes quote and bind requests: it is enabled and start-up step 11 has completed (R456, Table SU-2). -/
def State.hallmarkOn (s : State) : Bool := s.on Reg.SEC_CTL Fld.SEC_CTL_enable && 11 ≤ s.doneStep

/-- One action bit of a write of SEC_CTL. An action written while SEC_STATUS.busy is 1 is ignored, a quote or bind then reporting result 1; so are requests that Hallmark does not take and a release of a Bezel that is not BOUND. The second component says that it was ignored (R456, Table SE-2, Table SE-10). -/
def State.secAction (s : State) (f : Field) (value : Word) : State × Bool :=
  if getF value f = 0 then (s, false)
  else
    let asks := f == Fld.SEC_CTL_quote || f == Fld.SEC_CTL_bind
    if s.sec.job.isSome then (if asks then s.secResult 1 else s, true)
    else if asks && !s.hallmarkOn then (s, true)
    else if f = Fld.SEC_CTL_quote then (s.startQuote, false)
    else if f = Fld.SEC_CTL_bind then (s.startBind, false)
    else if f = Fld.SEC_CTL_release then (if s.bezel = 1 then (s.startRelease, false) else (s, true))
    else (s.setSecJob (some .svn), false)

/-- A write of SEC_CTL: the enable is staged, and the action bits act in the order of their bits (Table SE-10). -/
def secCtlWrite (path : Path) (value : Word) (s : State) : State :=
  let s := s.writeFields path Reg.SEC_CTL value
  let (s, ignored) := [Fld.SEC_CTL_quote, Fld.SEC_CTL_bind, Fld.SEC_CTL_release, Fld.SEC_CTL_svn_commit].foldl
    (fun (a : State × Bool) f =>
      let (s, i) := a.1.secAction f value
      (s, a.2 || i)) (s, false)
  if ignored then s.logViol path 4 Reg.SEC_CTL else s

/-- A write of SEC_MBOX, ignored and logged while Hallmark is busy (R456). -/
def secMboxWrite (path : Path) (w : Nat) (value : Word) (s : State) : State :=
  if s.sec.job.isSome then s.logViol path 4 (Reg.SEC_MBOX w) else s.writeFields path (Reg.SEC_MBOX w) value

def execQuote (path : Path) (value : Word) (s : State) : Result :=
  .next (secCtlWrite path (setF value Fld.SEC_CTL_quote 1) s)

def execBind (path : Path) (value : Word) (s : State) : Result :=
  .next (secCtlWrite path (setF value Fld.SEC_CTL_bind 1) s)

def execRelease (path : Path) (value : Word) (s : State) : Result :=
  .next (secCtlWrite path (setF value Fld.SEC_CTL_release 1) s)

def execSvnCommit (path : Path) (value : Word) (s : State) : Result :=
  .next (secCtlWrite path (setF value Fld.SEC_CTL_svn_commit 1) s)

end Sys2Proof.Machine
end

