-- ==== Sys2Proof/Machine/Commit.lean ====
section
/-! DEFINITION. The staged commit: its request, check, application, cancellation and discard, and the commit of the queue enables after start-up step 11 (R52, R61 to R67, R500). -/

namespace Sys2Proof.Machine

open Sys2Proof

/-- Whether a register is one of QUE_CTL, QUE_CLIENT and QUE_QP_CFG, which hold the queue enables (R52). -/
def queueEnableReg (off : Nat) : Bool :=
  match windowOf off with
  | some (.quad, _, rel) => rel == 0 || (0x1000 ≤ rel && rel < 0x1400) || (0x10000 ≤ rel && rel < 0x20000 && rel % 0x40 == 0x10)
  | _ => false

/-- Whether a register holds a queue enable that is staged as 1 and is not live. -/
def State.stagedEnable (s : State) (off : Nat) : Bool :=
  queueEnableReg off && getF (s.shadowReg off) Fld.QUE_CTL_enable == 1 && !s.on off Fld.QUE_CTL_enable

/-- The registers that a commit applies: every staged one, but for the queue enables staged as 1 before step 11 (R52). -/
def State.commitOffsets (s : State) (early : Bool) : List Nat :=
  s.stagedOffsets.filter fun o => !(early && s.stagedEnable o)

/-- RTE_TIMING as a commit applies it: 0 as 1, and a tag timeout below 2 × lifetime_us raised to it or to 65,535 (Table RT-8). -/
def State.fixTiming (s : State) : State :=
  let off := Reg.RTE_TIMING
  let s := s.setBoth off Fld.RTE_TIMING_drain_us (max 1 (s.fld off Fld.RTE_TIMING_drain_us))
  let life := max 1 (s.fld off Fld.RTE_TIMING_lifetime_us)
  let s := s.setBoth off Fld.RTE_TIMING_lifetime_us life
  s.setBoth off Fld.RTE_TIMING_tag_timeout_us (max (s.fld off Fld.RTE_TIMING_tag_timeout_us) (min 65535 (2 * life)))

/-- The state whose live copy holds the staged values of some registers. -/
def State.applied (s : State) (offs : List Nat) : State :=
  let s := offs.foldl (fun (s : State) o => s.setReg o (s.stagedReg o)) s
  if offs.contains Reg.RTE_TIMING then s.fixTiming else s

/-- A queue pair enabled by a commit: its counts start at 0 (R70). -/
def State.startQp (s : State) (q j : Nat) : State :=
  let s := (s.setReg (Reg.QUE_QP_SQ_PTR q j) 0).setReg (Reg.QUE_QP_CQ_PTR q j) 0
  { s with que := { s.que with written := mset (fun _ => 0) s.que.written (q * 1024 + j) 0 } }

/-- What a commit that has changed a global register does besides (R386, Table PF-6, Table LP-3). -/
def State.globalChanged (s old : State) (off : Nat) : State :=
  let rose (f : Field) : Bool := s.on off f && !old.on off f
  let fell (f : Field) : Bool := !s.on off f && old.on off f
  if off = Reg.PAI_CTL then
    if rose Fld.PAI_CTL_enable then s.startPairing else if fell Fld.PAI_CTL_enable then s.endPairing else s
  else if off = Reg.LPE_TRC_CTL then
    if rose Fld.LPE_TRC_CTL_enable then s.startCapture else if fell Fld.LPE_TRC_CTL_enable then s.setCapture 0 else s
  else if off = Reg.RTE_CTL then
    if s.boot.routerOn && s.fld off Fld.RTE_CTL_inj_epoch != old.fld off Fld.RTE_CTL_inj_epoch then s.flip else s
  else s

/-- What a commit that has changed a register of a quadrant window does besides (R70, R92, R131, R334, R407, Table CO-8). -/
def State.quadChanged (s old : State) (off q rel : Nat) : State :=
  let rose : Bool := s.on off Fld.QUE_CTL_enable && !old.on off Fld.QUE_CTL_enable
  let fell : Bool := !s.on off Fld.QUE_CTL_enable && old.on off Fld.QUE_CTL_enable
  if 0x1000 ≤ rel && rel < 0x1400 then (if rose then s.resetPolicer (4 * ((rel - 0x1000) / 8) + q) else s)
  else if 0x2000 ≤ rel && rel < 0x3000 then s.resetPolicer (4 * ((rel - 0x2000) / 0x20) + q)
  else if 0x10000 ≤ rel && rel < 0x20000 then
    let j := (rel - 0x10000) / 0x40
    if rose then s.startQp q j else if fell then s.startReset q j else s
  else if 0x48000 ≤ rel && rel < 0x48000 + 3584 * 8 then
    if rose then s.setFld off Fld.STK_SLAB_state 1 else if fell then s.setFld off Fld.STK_SLAB_state 0 else s
  else if 0x110100 ≤ rel && rel < 0x110140 then
    if rose then s.enableAgent ((rel - 0x110100) / 8) true
    else if fell then s.enableAgent ((rel - 0x110100) / 8) false else s
  else if rel = 0x110000 then
    if rose then s.enableIlcen true else if fell then s.enableIlcen false else s
  else s

/-- What a commit that has changed a register does besides giving it its new value. -/
def State.changed (s old : State) (off : Nat) : State :=
  match windowOf off with
  | some (.glob, _, _) => s.globalChanged old off
  | some (.quad, q, rel) => s.quadChanged old off q rel
  | some (.link, n, rel) =>
    if rel = 0 && s.on off Fld.LNK_CTL_enable != old.on off Fld.LNK_CTL_enable then s.enableLink n (s.on off Fld.LNK_CTL_enable) else s
  | none => s

/-- The order in which the changes act: ILC_CTL last, so that the removals of the same commit have started (Table CO-8). -/
def changeOrder (offs : List Nat) : List Nat := offs.filter (· != Reg.ILC_CTL 0) ++ offs.filter (· == Reg.ILC_CTL 0)

/-- Some staged registers applied, with all that follows from the changes (R65). -/
def State.applyCommit (s : State) (offs : List Nat) : State :=
  (changeOrder offs).foldl (fun (t : State) o => t.changed s o) (s.applied offs)

/-- CFG_COMMIT_RESULT set: state and code (Table SU-10). -/
def State.commitResult (s : State) (state code : Nat) : State :=
  (s.setFld Reg.CFG_COMMIT_RESULT Fld.CFG_COMMIT_RESULT_state state).setFld Reg.CFG_COMMIT_RESULT Fld.CFG_COMMIT_RESULT_code code

/-- The token of an accepted GLB_COMMIT write. -/
def State.commitToken (s : State) (token : Nat) : State := s.setFld Reg.CFG_COMMIT_RESULT Fld.CFG_COMMIT_RESULT_token token

/-- A pending commit has ended: the commit of the staged queue enables, where it is still due, falls at the next 1 µs boundary from now (R52). -/
def State.deferAuto (s : State) : State := { s with boot := { s.boot with autoAt := s.boot.autoAt.map fun _ => roundUp 1000 s.nt } }

/-- A pending commit ends without being applied: the shadow keeps its values (R66). -/
def State.failCommit (s : State) (code : Nat) : State := ({ s with commit := none } : State).deferAuto.commitResult 3 code

/-- The offset that the check of a commit reports, none where it passes (R64). -/
def State.commitFault (s : State) (early : Bool) : Option Nat :=
  let t := s.applied (s.commitOffsets early)
  faultOffset (t.brokenRules s)

/-- Start-up step 13 completes when QUE_CTL.enable is 1 in a quadrant after step 11 (R52). -/
def State.noteQueues (s : State) : State :=
  if s.doneStep = 11 && (List.range 4).any (fun q => s.on (Reg.QUE_CTL q) Fld.QUE_CTL_enable) then
    s.setFld Reg.CFG_BOOT_STATUS Fld.CFG_BOOT_STATUS_done_step 13
  else s

/-- A commit that passed is applied at its instant (R65, R67). -/
def State.passCommit (s : State) (offs : List Nat) (instant : Nat) : State :=
  let s := ({ s with commit := none } : State).deferAuto.applyCommit offs
  ((s.commitResult 2 0).setReg Reg.CFG_COMMIT_APPLIED_NT (BitVec.ofNat 64 instant)).noteQueues

/-- The longest that a check takes, in ns (R62). -/
def checkNs (n : Nat) : Nat := 1000 + 2 * n

/-- A write of GLB_COMMIT (R61, R62, R63, R67, R500). DESIGN CHOICE: CFG_COMMIT_RESULT.token takes the token also of a write that ends at once with TOO_SOON, TOO_LATE or NOT_READY (assumption 65). -/
def glbCommitWrite (path : Path) (value : Word) (s : State) : State :=
  let token := getF value Fld.GLB_COMMIT_token
  let when' := getF value Fld.GLB_COMMIT_when
  let n := s.stagedOffsets.length
  let at' := (s.reg Reg.CFG_COMMIT_AT).toNat
  if 2 ≤ when' then s.logViol path 8 Reg.GLB_COMMIT
  else if s.committing then
    (s.setFld Reg.CFG_COMMIT_RESULT Fld.CFG_COMMIT_RESULT_busy_refused 1).logViol path 3 Reg.GLB_COMMIT
  else
    let s := s.commitToken token
    if s.doneStep < 4 then s.commitResult 3 7
    else if n = 0 then s.commitResult 2 4
    else if when' = 1 && at' < s.nt + checkNs n + 1000 then s.commitResult 3 2
    else if when' = 1 && s.nt + 1000000000 < at' then s.commitResult 3 3
    else
      let s := s.commitResult 1 0
      { s with commit := some { atInstant := when' == 1, writtenNt := s.nt, n := n, checked := false, instant := at', early := false } }

def execGlbCommitNextUs (path : Path) (value : Word) (s : State) : Result :=
  .next (glbCommitWrite path (setF value Fld.GLB_COMMIT_when 0) s)

def execGlbCommitAtInstant (path : Path) (value : Word) (s : State) : Result :=
  .next (glbCommitWrite path (setF value Fld.GLB_COMMIT_when 1) s)

/-- COMMIT_CHECK_END: the check passes, and the instant of a commit at the next 1 µs boundary is known, or it fails with RULE (R62, R64). -/
def commitCheckEndEff (s : State) : State :=
  match s.commit with
  | none => s
  | some c =>
    if c.checked then s
    else
      let early := decide (s.doneStep < 11)
      match s.commitFault early with
      | some off => (s.failCommit 1).setFld Reg.CFG_COMMIT_FAULT Fld.CFG_COMMIT_FAULT_offset off
      | none => { s with commit := some { c with
          checked := true
          instant := if c.atInstant then c.instant else roundUp 1000 s.nt
          early := early } }

def execCommitCheckEnd (s : State) : Result := .next (commitCheckEndEff s)

/-- COMMIT_APPLY: at the instant every staged value takes effect, or the commit fails with HALTED under a global stop (R65, R66). A commit that was checked before step 11 completed and is applied after it is checked again with the queue enables that it now applies (R52). -/
def commitApplyEff (s : State) : State :=
  match s.commit with
  | none => s
  | some c =>
    if !c.checked || s.nt < c.instant then s
    else if s.stopped then s.failCommit 6
    else
      let early := decide (s.doneStep < 11)
      match (if c.early && !early then s.commitFault early else none) with
      | some off => (s.failCommit 1).setFld Reg.CFG_COMMIT_FAULT Fld.CFG_COMMIT_FAULT_offset off
      | none => s.passCommit (s.commitOffsets early) c.instant

def execCommitApply (s : State) : Result := .next (commitApplyEff s)

/-- Live copied into shadow (R66). -/
def State.discardStaged (s : State) : State :=
  s.stagedOffsets.foldl (fun (s : State) o => s.setShadow o (s.reg o)) s

/-- Whether a pending commit can still be cancelled: its instant has not come (R63). -/
def State.cancellable (s : State) : Bool :=
  match s.commit with
  | none => false
  | some c => if c.checked || c.atInstant then decide (s.nt < c.instant) else true

/-- A write of CFG_COMMIT_CTL: cancel, and then discard, which a commit that is still pending makes ignored and logged (R63, R66). -/
def commitCtlWrite (path : Path) (value : Word) (s : State) : State :=
  let s := if getF value Fld.CFG_COMMIT_CTL_cancel = 1 && s.cancellable then s.failCommit 5 else s
  if getF value Fld.CFG_COMMIT_CTL_discard = 1 then
    if s.committing then s.logViol path 3 Reg.CFG_COMMIT_CTL else s.discardStaged
  else s

def execCommitCancel (path : Path) (value : Word) (s : State) : Result :=
  .next (commitCtlWrite path (setF value Fld.CFG_COMMIT_CTL_cancel 1) s)

def execCommitDiscard (path : Path) (value : Word) (s : State) : Result :=
  .next (commitCtlWrite path (setF value Fld.CFG_COMMIT_CTL_discard 1) s)

/-- AUTO_QUEUE_COMMIT: after step 11, with no commit pending, and once the 1 µs boundary has come, the queue enables that are staged are applied by a commit with token 0, checked as any commit (R52). -/
def autoQueueCommitEff (s : State) : State :=
  let at' := s.boot.autoAt.getD 0
  if s.boot.autoAt.isNone || s.committing || s.doneStep < 11 || s.nt < at' then s
  else
    let s := { s with boot := { s.boot with autoAt := none } }
    let offs := s.stagedOffsets.filter s.stagedEnable
    if offs.isEmpty then s
    else
      let s := s.commitToken 0
      if s.stopped then s.commitResult 3 6
      else
        match faultOffset ((s.applied offs).brokenRules s) with
        | some off => (s.commitResult 3 1).setFld Reg.CFG_COMMIT_FAULT Fld.CFG_COMMIT_FAULT_offset off
        | none => s.passCommit offs at'

def execAutoQueueCommit (s : State) : Result := .next (autoQueueCommitEff s)

end Sys2Proof.Machine
end

