-- ==== Sys2Proof/Machine/Reset.lean ====
section
/-! DEFINITION. The resets of the package: power-on, cold and warm (R24, R25, R29, R42 to R45, R49, R164, R452). -/

namespace Sys2Proof.Machine

open Sys2Proof

/-- What every reset keeps of a state: the commands that wait, what has left the NP32, the fuse contents, the pins, the JTAG instruction and GLB_STATUS.cfg_defaulted, which start-up clears when it accepts an image; and a new session value (R42, R58, R350, Table SE-3). -/
def State.afterReset (s : State) (cause : Nat) : State :=
  { State.reset with
    pending := s.pending
    out := s.out
    session := Config.free s.fresh % 2 ^ 64
    fresh := s.fresh + 1
    sec := { Sec.reset with sessionsUsed := s.sec.sessionsUsed, svnMin := s.sec.svnMin }
    pins := s.pins
    boot := { Boot.reset with defaulted := s.boot.defaulted }
    ports := { s.ports with smbAddr := [], regData := 0, regOffset := 0, regStatus := 0 } }.setFld
      Reg.CFG_BOOT_STATUS Fld.CFG_BOOT_STATUS_reset_cause cause

/-- Cold reset: all logic, PLLs, training and stack contents; the TIME count survives, and NT equals it. THERM_N is released (Table SU-1, R28). -/
def State.coldReset (s : State) (cause : Nat) : State :=
  { s.afterReset cause with
    time := ⟨s.time.count, s.time.count, 0, 0⟩
    pins := { s.pins with thermN := true } }

/-- The registers that a warm reset keeps (Table SU-1, Table PK-11). -/
def warmKeeps (off : Nat) : Bool :=
  off == Reg.CLK_STATUS || off == Reg.PWR_SENSE_STATUS || (Reg.PWR_STRETCH_CNT 0 ≤ off && off < Reg.PWR_STRETCH_CNT 4)

/-- The NT offset registers of a link that is trained: from ACTIVE on it stays so over a warm reset (Table SU-1). -/
def State.keepsOffset (s : State) (off : Nat) : Bool :=
  (List.range 32).any fun n => lsActive ≤ s.linkState n && (off == Reg.LNK_TIME_OFS n || off == Reg.LNK_TIME_DELAY n)

/-- The registers of the Clasp groups that a warm reset keeps with the stack contents (R49). -/
def poolKeeps (off : Nat) : Bool :=
  match windowOf off with
  | some (.quad, _, rel) => rel == 0x80000 || rel == 0x80030 || (0x81000 ≤ rel && rel < 0x81800)
  | _ => false

/-- Whether a register is a BNK_BANK. -/
def bankRegister (off : Nat) : Bool :=
  match windowOf off with
  | some (.quad, _, rel) => 0x91000 ≤ rel && rel < 0x92000
  | _ => false

/-- The repair marks of the banks kept by a warm reset. -/
def State.keepBankMarks (s old : State) : State :=
  (old.regs.filter fun e => bankRegister e.1).foldl (fun (s : State) e =>
    (s.setFld e.1 Fld.BNK_BANK_repaired (getF e.2 Fld.BNK_BANK_repaired)).setFld e.1 Fld.BNK_BANK_failed (getF e.2 Fld.BNK_BANK_failed)) s

/-- A reinstatement in progress is abandoned, and its group returns to the state it started from; a spare rebuild will restart from row 0 (R49). -/
def State.settleGroup (s : State) (q : Nat) : State :=
  let g := s.group q
  let st := s.groupState q
  if st = 4 then
    (s.setGroup q { g with task := .none, target := none, ownRows := 0, atReinstate := none, spareFrom := 0 }).setFld
      (Reg.CLS_STATUS q) Fld.CLS_STATUS_state g.origin
  else if g.task = .rebuild then s.setGroup q { g with spareFrom := 0, spareTo := 0, target := none, atReinstate := none }
  else s.setGroup q { g with target := none, atReinstate := none }

/-- The stacks, their failed marks and hard-fault counts, and the Clasp groups kept by a warm reset (R44, R49). -/
def State.keepStacks (s old : State) : State :=
  let s : State := { s with pool := { old.pool with powerDown := [], moving := [], refused := [] } }
  let s := (List.range 32).foldl (fun (s : State) n =>
    let s := s.setFld (portStatus n) Fld.STK_PORT_STATUS_cause (old.fld (portStatus n) Fld.STK_PORT_STATUS_cause)
    s.setFld (portStatus n) Fld.STK_PORT_STATUS_hard_rows (old.fld (portStatus n) Fld.STK_PORT_STATUS_hard_rows)) s
  (List.range 4).foldl State.settleGroup s

/-- Warm reset: all logic but the items of Table SU-1. Stack contents are kept when keep_pool is 1 and the Bezel is OPEN; the contents of the banks are kept, their written bits only while OPEN (R44, R164). DEDUCED: NT goes on with the TIME count (assumption 67). -/
def State.warmReset (s : State) (keepPool : Bool) : State :=
  let opened := s.bezel == 0
  let keep := keepPool && opened
  let t := s.afterReset 6
  let kept := s.regs.filter fun e => warmKeeps e.1 || s.keepsOffset e.1 || (keep && poolKeeps e.1)
  let t := kept.foldl (fun (t : State) e => t.setReg e.1 e.2) t
  let t := t.setFld Reg.PWR_SENSE_STATUS Fld.PWR_SENSE_STATUS_therm_locked 0
  let t : State := { t with
    time := s.time
    boot := { t.boot with warm := true, keep := keep }
    banks := { t.banks with cells := s.banks.cells, written := if opened then s.banks.written else [], repaired := s.banks.repaired } }
  let t := t.keepBankMarks s
  if keep then t.keepStacks s else t

/-- A write of CFG_RESET: keep_pool, and a cold or warm reset, cold prevailing (R44, R45). -/
def cfgResetWrite (path : Path) (value : Word) (s : State) : State :=
  let s := s.writeFields path Reg.CFG_RESET value
  if getF value Fld.CFG_RESET_cold = 1 then s.coldReset 5
  else if getF value Fld.CFG_RESET_warm = 1 then s.warmReset (s.on Reg.CFG_RESET Fld.CFG_RESET_keep_pool)
  else s

def execCfgResetWarm (path : Path) (value : Word) (s : State) : Result :=
  .next (cfgResetWrite path (setF value Fld.CFG_RESET_warm 1) s)

def execCfgResetCold (path : Path) (value : Word) (s : State) : Result :=
  .next (cfgResetWrite path (setF value Fld.CFG_RESET_cold 1) s)

/-- POWER_ON: PWROK rises for the first time with VDD_IO in tolerance. Everything is reset, the TIME count included (Table SU-1). -/
def powerOnEff (s : State) : State :=
  { s.afterReset 0 with time := ⟨0, 0, 0, 0⟩, boot := Boot.reset, pins := { s.pins with pwrok := true, thermN := true } }

def execPowerOn (s : State) : Result := .next (powerOnEff s)

/-- PERST_N goes low: cold reset (Table SU-1). -/
def perstNAssertEff (s : State) : State := { s with pins := { s.pins with perstN := false } }.coldReset 1

def execPerstNAssert (s : State) : Result := .next (perstNAssertEff s)

/-- PERST_N goes high, which the board may do only with PWROK high (R23, Table PK-4): the straps are sampled, and start-up resumes at step 2 (R21, Table SU-1). -/
def perstNDeassertEff (strapA strapB : Bool) (s : State) : State :=
  if s.pins.perstN then s
  else { s with pins := { s.pins with pwrok := true, perstN := true, strapA := strapA, strapB := strapB } }

def execPerstNDeassert (strapA strapB : Bool) (s : State) : Result := .next (perstNDeassertEff strapA strapB s)

/-- PWROK goes low; while PERST_N is high the NP32 enters cold reset (R24). -/
def pwrokLossEff (s : State) : State :=
  let s : State := { s with pins := { s.pins with pwrok := false } }
  if s.pins.perstN then s.coldReset 2 else s

def execPwrokLoss (s : State) : Result := .next (pwrokLossEff s)

/-- A VDD_CORE rail has been below 0.68 V for 1 µs: cold reset (R25). -/
def vddCoreUndervoltageEff (s : State) : State := s.coldReset 3

def execVddCoreUndervoltage (_q : Quad) (s : State) : Result := .next (vddCoreUndervoltageEff s)

/-- A die has been at 115 °C or more for 1 ms: cold reset, whatever PWR_THERM_CFG holds (R29). -/
def dieOverTemperatureEff (s : State) : State := s.coldReset 4

def execDieOverTemperature (_q : Quad) (s : State) : Result := .next (dieOverTemperatureEff s)

end Sys2Proof.Machine
end

