-- ==== Sys2Proof/Machine/Registers.lean ====
section
/-! DEFINITION. A register access over any path: width and alignment, the sealed Bezel, unassigned and Q0 registers, and every register's own write (R3, R5, R492 to R502, Table SE-7). -/

namespace Sys2Proof.Machine

open Sys2Proof

/-- A written value with the fields that are held to more than a constant range: STK_CTL.throttle_c to PWR_THERM_CFG.stk_crit, and the reserved codes of BNK_CTL.test_march stored as 0 (Table PM-8, Table BK-6). -/
def State.heldValue (s : State) (off : Nat) (value : Word) : Word :=
  match quadRel off with
  | some (_, rel) =>
    if rel = 0x40000 then
      setF value Fld.STK_CTL_throttle_c (min (getF value Fld.STK_CTL_throttle_c) (s.fld Reg.PWR_THERM_CFG Fld.PWR_THERM_CFG_stk_crit))
    else if rel = 0x90000 then
      (if 2 ≤ getF value Fld.BNK_CTL_test_march then setF value Fld.BNK_CTL_test_march 0 else value)
    else value
  | none => value

/-- A register that has no action: its fields take the value as their access codes say. -/
def State.plainWrite (s : State) (path : Path) (off : Nat) (value : Word) : State := s.writeFields path off (s.heldValue off value)

/-- A write of RTE_ALIAS: while pairing is enabled, valid keeps its value and the write is logged (R411). -/
def aliasWrite (path : Path) (value : Word) (s : State) : State :=
  if s.pairing then
    (s.writeFields path Reg.RTE_ALIAS (setF value Fld.RTE_ALIAS_valid (s.fld Reg.RTE_ALIAS Fld.RTE_ALIAS_valid))).logViol path 4 Reg.RTE_ALIAS
  else s.writeFields path Reg.RTE_ALIAS value

/-- A write of GLB_CFG_VIOL: with clear = 1 every field becomes 0 (R501, Table RM-8). -/
def cfgViolWrite (value : Word) (s : State) : State :=
  if getF value Fld.GLB_CFG_VIOL_clear = 1 then s.setReg Reg.GLB_CFG_VIOL 0 else s

/-- A write of TSC_SHAPE sets the count of its shaper to burst (R406). -/
def shapeWrite (path : Path) (n t off : Nat) (value : Word) (s : State) : State :=
  let s := s.writeFields path off value
  { s with traffic := { s.traffic with shapers := s.traffic.shapers.filter (·.1 != n * 8 + t) } }

/-- A write of a global register. -/
def State.writeGlobal (s : State) (path : Path) (off : Nat) (value : Word) : State :=
  if off = Reg.GLB_COMMIT then glbCommitWrite path value s
  else if off = Reg.GLB_CFG_VIOL then cfgViolWrite value s
  else if off = Reg.GLB_MGMT_LIVE then mgmtBeatEff path value s
  else if off = Reg.CFG_RESET then cfgResetWrite path value s
  else if off = Reg.CFG_COMMIT_CTL then commitCtlWrite path value s
  else if off = Reg.SEC_CTL then secCtlWrite path value s
  else if Reg.SEC_MBOX 0 ≤ off && off < Reg.SEC_MBOX 64 then secMboxWrite path (idx off (Reg.SEC_MBOX 0) 8) value s
  else if off = Reg.LPE_TRC_CTL then trcCtlWrite path value s
  else if off = Reg.LPE_MARK then lpeMarkEff value s
  else if off = Reg.LPE_STOP then lpeStopWrite path value s
  else if off = Reg.LPE_SNAP_CTL then snapCtlWrite path value s
  else if off = Reg.LPE_DUMP_CTL then dumpCtlWrite path value s
  else if Reg.LPE_WDOG 0 ≤ off && off < Reg.LPE_WDOG 4 then wdogWrite path (idx off (Reg.LPE_WDOG 0) 8) value s
  else if Reg.LPE_SEL 0 0 ≤ off && off < Reg.LPE_SEL 4 0 then
    lpeSelWriteEff path ((off - Reg.LPE_SEL 0 0) / 0x1000) ((off - Reg.LPE_SEL 0 0) % 0x1000 / 8) value s
  else if off = Reg.EVT_RING_PTR then evtHeadWriteEff path value s
  else if off = Reg.PAI_CTL then paiCtlWrite path value s
  else if off = Reg.RTE_ALIAS then aliasWrite path value s
  else s.plainWrite path off value

/-- A write of a register in the window of quadrant q, at a distance from its start. -/
def State.writeQuad (s : State) (path : Path) (q rel off : Nat) (value : Word) (env : Env) : State :=
  if rel = 0x10 then retireWrite path q value s
  else if 0x10000 ≤ rel && rel < 0x20000 && rel % 0x40 = 0x30 then qpCtlWrite path q ((rel - 0x10000) / 0x40) value s
  else if rel = 0x20018 then bmcInvWrite path q value s
  else if rel = 0x20020 then faultResolveWrite path q value s
  else if 0x40140 ≤ rel && rel < 0x40180 then stackPowerWrite path (8 * q + idx rel 0x40140 8) value s
  else if rel = 0x80008 then clsCtlWrite path q value s
  else if rel = 0x80038 then clsRowRepairWrite path q value s
  else if 0x91000 ≤ rel && rel < 0x92000 then bnkBankWrite path (q * 512 + idx rel 0x91000 8) value s
  else if rel = 0xB0018 then rcpLoadWrite path value s
  else if rel = 0xE0018 then regionCtlWrite path q value env s
  else if rel = 0xE0020 then leaseCtlWrite path q value s
  else if rel = 0xF0018 then dirProbeWrite path q value s
  else if rel = 0xF0208 then lllCtlWrite path q value s
  else if rel = 0x110200 then agentCtlWrite path value s
  else s.plainWrite path off value

/-- A write of a register in the window of link n. -/
def State.writeLink (s : State) (path : Path) (n rel off : Nat) (value : Word) : State :=
  if rel = 0 then lnkCtlWrite path n value s
  else if 0x840 ≤ rel && rel < 0x880 then shapeWrite path n (idx rel 0x840 8) off value s
  else s.plainWrite path off value

/-- A write of an aligned 64-bit word that the sealed Bezel does not refuse (R493, R494, R498). -/
def State.writeReg (s : State) (path : Path) (off : Nat) (value : Word) (env : Env) : State :=
  match regRow off, windowOf off with
  | some r, some (w, i, rel) =>
    if r.q0 && i != 0 then s.logViol path 6 off
    else
      match w with
      | .glob => s.writeGlobal path off value
      | .quad => s.writeQuad path i rel off value env
      | .link => s.writeLink path i rel off value
  | _, _ => s.logViol path 5 off

/-- A write access of `size` bytes over a path, and whether it is refused by R3 or by the sealed Bezel (R495, Table SE-7). -/
def State.accessWrite (s : State) (path : Path) (off size : Nat) (value : Word) (env : Env) : State × Bool :=
  if size != 8 || off % 8 != 0 then (s.logViol path 1 off, true)
  else if s.sealRefuses path off value then (s.logViol path 7 off, true)
  else (s.writeReg path off value env, false)

/-- A read access of `size` bytes over a path: the value, 0 where R3 refuses it, and whether it is refused. -/
def State.accessRead (s : State) (path : Path) (off size : Nat) : State × Word × Bool :=
  if size != 8 || off % 8 != 0 then (s.logViol path 1 off, 0, true)
  else
    let s := s.beforeRead off
    (s.afterRead off, s.readReg off, false)

/-- PWR_SENSE_READ: a read of PWR_SENSE, of `size` bytes, returns the sensor values and sets vcore_min_mv to 0xFFF; one that is not 64 bits wide returns 0 and is logged (R3, R40, Table PK-13). -/
def pwrSenseReadEff (path : Path) (size : Nat) (q : Quad) (s : State) : State :=
  let (s, v, _) := s.accessRead path (Reg.PWR_SENSE q) size
  s.emit (.regRead path (Reg.PWR_SENSE q) v)

def execPwrSenseRead (path : Path) (read : SizedRead) (s : State) : Result := .next (pwrSenseReadEff path read.size read.q s)

/-- REGISTER_WRITE: a write over firmware, Ilcen or another path. An Ilcen write to a doorbell page is one of its doorbells (R72), and a request past the doorbell pages is refused and counted (R492). -/
def registerWriteEff (path : Path) (offset : Nat) (size : Nat) (value : Word) (env : Env) (s : State) : State :=
  if path = .ilcen && 2 ^ 26 ≤ offset && offset < 2 ^ 26 + 2 ^ 21 then
    ilcenDoorbellWriteEff (Fin.ofNat 512 ((offset - 2 ^ 26) / 4096)) (Fin.ofNat 4096 offset) (leBytes size value.toNat) s
  else if path = .ilcen && 2 ^ 26 ≤ offset then
    (s.countSat (Reg.ILC_CNT 0) Fld.ILC_CNT_refused 1).emit (.ilcenAnswer offset 2 [])
  else (s.accessWrite path offset size value env).1

def execRegisterWrite (path : Path) (offset : Nat) (size : Nat) (value : Word) (env : Env) (s : State) : Result :=
  .next (registerWriteEff path offset size value env s)

def execGlbCfgViolClear (_path : Path) (value : Word) (s : State) : Result :=
  .next (cfgViolWrite (setF value Fld.GLB_CFG_VIOL_clear 1) s)

/-- The REG_RESP packets that wait to leave: the answer slots of the control endpoint that are taken (R376). -/
def State.regAnswers (s : State) : Nat :=
  ((s.inq (inKey 32 (vcOf 3 0))).filter fun p => p.hdr.opcode == opRegResp).length

/-- A REG_READ or REG_WRITE at the endpoint: it waits under a stop, is dropped by the checks of R377 and R393, or is dropped and counted where no answer slot is free (R376). The second component says that it is acted on. -/
def State.regRequest (s : State) (port : Nat) (p : Packet) (opcode : Nat) : State × Bool :=
  if s.coreStopped || p.opcode != opcode then (s, false)
  else
    let (s, ok) := (s.takeEjected port p).arrives p
    if !ok then (s, false)
    else if 16 ≤ s.regAnswers then (s.countSat Reg.RTE_CNT1 Fld.RTE_CNT1_ctl_dropped 1, false)
    else (s, true)

/-- The answer to a register packet, with the offset echoed (Table RT-2). -/
def regAnswer (p : Packet) (value : Word) : Packet :=
  sealPacket { answerTo p opRegResp 3 0 0 (leBytes 8 value.toNat) with addr := p.addr }

/-- REG_READ: a register read and answered (R377). -/
def regReadEff (port : Nat) (p : Packet) (s : State) : State :=
  match s.regRequest port p opRegRead with
  | (s, false) => s
  | (s, true) =>
    let (s, v, _) := s.accessRead .quagen p.addr 8
    s.answer port (regAnswer p v)

def execRegRead (port : Fin 36) (p : Packet) (s : State) : Result := .next (regReadEff port p s)

/-- REG_WRITE: a register written under its access rules and answered with the value 0; a write that resets the NP32 has no answer left to send (R377). -/
def regWriteEff (port : Nat) (p : Packet) (env : Env) (s : State) : State :=
  match s.regRequest port p opRegWrite with
  | (s, false) => s
  | (s, true) =>
    let v := BitVec.ofNat 64 (leAt p.payload 0 8)
    let (s, _) := s.accessWrite .quagen p.addr 8 v env
    if p.addr = Reg.CFG_RESET && (getF v Fld.CFG_RESET_cold = 1 || getF v Fld.CFG_RESET_warm = 1) then s
    else s.answer port (regAnswer p 0)

def execRegWrite (port : Fin 36) (p : Packet) (env : Env) (s : State) : Result := .next (regWriteEff port p env s)

/-- REG_RESP: the NP32 sends no register requests, so an answer that reaches it matches nothing (R373). -/
def regRespEff (port : Nat) (p : Packet) (s : State) : State :=
  if s.coreStopped || p.opcode != opRegResp then s else ((s.takeEjected port p).arrives p).1

def execRegResp (port : Fin 36) (p : Packet) (s : State) : Result := .next (regRespEff port p s)

end Sys2Proof.Machine
end

