-- ==== Sys2Proof/Machine/Startup.lean ====
section
/-! DEFINITION. The start-up sequence: boot ROM, firmware and configuration images, calibration, training, Clasp check, links, routes, Ilcen and attestation (R46 to R58, R438, R453, R454). -/

namespace Sys2Proof.Machine

open Sys2Proof

/-- Whether a start-up step may complete: the one before it has, start-up has not stopped, and no reset is held (R46, R47). -/
def State.atStep (s : State) (k : Nat) : Bool :=
  s.doneStep + 1 == k && !s.on Reg.CFG_BOOT_STATUS Fld.CFG_BOOT_STATUS_failed && s.pins.pwrok && s.pins.perstN

/-- A start-up step completes. -/
def State.stepDone (s : State) (k : Nat) : State := s.setFld Reg.CFG_BOOT_STATUS Fld.CFG_BOOT_STATUS_done_step k

/-- Start-up stops with a code: every link and Ilcen lane goes electrically idle, and SMBus stays available (R47). -/
def State.stopBoot (s : State) (code : Nat) : State :=
  let s := (s.setFld Reg.CFG_BOOT_STATUS Fld.CFG_BOOT_STATUS_failed 1).setFld Reg.CFG_BOOT_STATUS Fld.CFG_BOOT_STATUS_fail_code code
  let s : State := { s with boot := { s.boot with idle := true, smbus := true } }
  let s := (List.range 32).foldl (fun (s : State) n =>
    if s.linkState n = lsDisabled || s.linkState n = lsDown then s
    else (s.enterState n lsDown).countSat (Reg.LNK_CNT2 n) Fld.LNK_CNT2_downs 1) s
  if s.ilcState = 0 then s else s.ilcDown

/-- BOOT_ROM: step 2 ends with the PLLs locked and the fuses read, or start-up stops (Table SU-2, Table SU-7). -/
def bootRomEff (pllOk fuseOk : Bool) (s : State) : State :=
  if !s.atStep 2 then s
  else if !pllOk then s.stopBoot 1
  else if !fuseOk then s.stopBoot 2
  else
    let s := s.setFld Reg.CLK_STATUS Fld.CLK_STATUS_core_lock 15
    let s := s.setFld Reg.CLK_STATUS Fld.CLK_STATUS_ctl_lock 1
    let s := s.setFld Reg.CLK_STATUS Fld.CLK_STATUS_mclk_lock 15
    let s := s.setFld Reg.CLK_STATUS Fld.CLK_STATUS_time_lock 1
    let s : State := { s with boot := { s.boot with smbus := true } }
    s.stepDone 2

def execBootRom (pllOk fuseOk : Bool) (s : State) : Result := .next (bootRomEff pllOk fuseOk s)

/-- Whether the header of a firmware image is well formed and the image fits its slot (R453). -/
def fwHeaderOk (img : List Byte) : Bool :=
  let zero (a n : Nat) : Bool := (slice img a n).all (· == 0)
  let total := 256 + leAt img 12 4 + 96 + leAt img 16 4
  decide (256 ≤ img.length) && leAt img 0 4 == 0x4957464E && leAt img 4 2 == 1 && decide (leAt img 8 4 ≤ 63) &&
  decide (leAt img 16 4 ≤ 8192) && zero 6 2 && zero 20 44 && zero 161 3 && zero 216 40 &&
  decide (total ≤ 2 ^ 23) && decide (total ≤ img.length)

/-- Whether the boot ROM accepts an image (R454). -/
def State.fwAccepted (s : State) (img : List Byte) : Bool :=
  fwHeaderOk img && Config.firmwareSigned img && decide (s.sec.svnMin ≤ leAt img 8 4)

/-- The firmware of a slot runs: its digest and svn are kept (Table SE-4, Table SE-10). -/
def State.runFirmware (s : State) (slot : Nat) (img : List Byte) : State :=
  let s : State := { s with boot := { s.boot with
    fwDigest := (Config.sha384 (img.take (256 + leAt img 12 4))).toNat, fwSvn := leAt img 8 4 } }
  let s := s.setFld Reg.SEC_STATUS Fld.SEC_STATUS_fw_svn (leAt img 8 4)
  (s.setFld Reg.CFG_BOOT_STATUS Fld.CFG_BOOT_STATUS_fw_slot slot).stepDone 3

/-- FIRMWARE_IMAGE_CHECK: step 3 ends with slot A, or with slot B where A fails, or start-up stops (Table SU-2, R454). -/
def firmwareImageCheckEff (slotA slotB : List Byte) (s : State) : State :=
  if !s.atStep 3 then s
  else if s.fwAccepted slotA then s.runFirmware 0 slotA
  else if s.fwAccepted slotB then s.runFirmware 1 slotB
  else s.stopBoot 3

def execFirmwareImageCheck (slotA slotB : List Byte) (s : State) : Result := .next (firmwareImageCheckEff slotA slotB s)

/-- Whether an image record may target an offset: a register that exists there, with a field of class RW, RWS or RWL, other than CFG_RESET, CFG_COMMIT_CTL and GLB_COMMIT (R56). -/
def imageTarget (off : Nat) : Bool :=
  match regRow off, windowOf off with
  | some r, some (_, i, _) =>
    !(r.q0 && i != 0) && r.fields.any (fun f => f.acc == .rw || f.acc == .rws || f.acc == .rwl) &&
    off != Reg.CFG_RESET && off != Reg.CFG_COMMIT_CTL && off != Reg.GLB_COMMIT
  | _, _ => false

/-- The registers of n consecutive offsets with their values. -/
def imageRun (off n : Nat) (value : Nat → Nat) : Option (List (Nat × Word)) :=
  let offs := (List.range n).map fun i => off + 8 * i
  if offs.all imageTarget then some ((List.range n).map fun i => (off + 8 * i, BitVec.ofNat 64 (value i))) else none

/-- The records of an image body, from record `index` on, as the writes they make in order; or the index of the first bad record (R55, R56). The body is a list of 16-byte slots, and the fuel is their number. -/
def imageRecords : Nat → List (List Byte) → Nat → List (Nat × Word) → Except Nat (List (Nat × Word))
  | _, [], index, _ => .error index
  | 0, _ :: _, index, _ => .error index
  | fuel + 1, r :: rest, index, done =>
    let type := leAt r 0 1
    let count := leAt r 2 2
    let off := leAt r 4 4
    let shaped := leAt r 1 1 == 0 && decide (off < 2 ^ 26) && off % 8 == 0
    let value := leAt r 8 8
    if !shaped then .error index
    else if type = 1 && count = 1 then
      match imageRun off 1 fun _ => value with
      | some ws => imageRecords fuel rest (index + 1) (done ++ ws)
      | none => .error index
    else if type = 2 && 1 ≤ count then
      match imageRun off count fun _ => value with
      | some ws => imageRecords fuel rest (index + 1) (done ++ ws)
      | none => .error index
    else if type = 3 && 1 ≤ count && value = 0 then
      let n := (count + 1) / 2
      let bytes := (rest.take n).flatten
      if rest.length < n || (slice bytes (8 * count) (16 * n - 8 * count)).any (· != 0) then .error index
      else
        match imageRun off count fun i => leAt bytes (8 * i) 8 with
        | some ws => imageRecords fuel (rest.drop n) (index + 1) (done ++ ws)
        | none => .error index
    else if type = 15 && count = 0 && value = 0 then
      if rest.isEmpty then .ok done else .error (index + 1)
    else .error index

/-- The 16-byte slots of a body. -/
def bodySlots (body : List Byte) : List (List Byte) := (List.range (body.length / 16)).map fun i => slice body (16 * i) 16

/-- What the check of a configuration image gives: the result code with the record it names, or the writes (R53 to R56, Table SU-8). DESIGN CHOICE: an image of fewer bytes than its header, body and check word is one of a bad length, result 3 (assumption 66). -/
def checkImage (img : List Byte) : Except (Nat × Nat) (List (Nat × Word)) :=
  let len := leAt img 12 4
  if leAt img 0 4 != 0x4746434E then .error (1, 0xFFFF)
  else if leAt img 4 2 != 1 || leAt img 6 2 != 0 || (slice img 16 16).any (· != 0) then .error (2, 0xFFFF)
  else if len % 16 != 0 || len < 16 || 4194048 < len || img.length < 32 + len + 4 then .error (3, 0xFFFF)
  else if leAt img (32 + len) 4 != crc32c (img.take (32 + len)) then .error (4, 0xFFFF)
  else
    let slots := bodySlots (slice img 32 len)
    match imageRecords slots.length slots 0 [] with
    | .ok ws => .ok ws
    | .error i => .error (5, i)

/-- No data from the environment. -/
def noEnv : Env := ⟨[], false, [], [], []⟩

/-- One write of an image: RWS fields in the shadow copy, RW and RWL fields at once, whatever enables are set (R57). Registers whose RW fields act on write do so, with their action bits 0. -/
def State.imageWrite (s : State) (w : Nat × Word) : State :=
  let (off, value0) := w
  let value := s.heldValue off (keptBits off value0)
  let mask (a : Access) : Word := BitVec.ofNat 64 (accMask off a)
  let acts := bankRegister off || off == Reg.EVT_RING_PTR ||
    match quadRel off with
    | some (_, rel) => 0x40140 ≤ rel && rel < 0x40180
    | none => false
  match regRow off with
  | none => s
  | some r =>
    if acts then s.writeReg .firmware off (value &&& mask .rw) noEnv
    else
      let live := r.fields.foldl (fun (u : Word) f =>
        if f.acc == .rw || f.acc == .rwl then setF u f.fld (clampTo f.least f.most (getF value f.fld)) else u) (s.reg off)
      let shadow := r.fields.foldl (fun (u : Word) f =>
        if f.acc == .rws then setF u f.fld (clampTo f.least f.most (getF value f.fld)) else u) (s.shadowReg off)
      (s.setReg off live).setShadow off shadow

/-- Every RW, RWS and RWL field at its reset value, but for the enables of Ilcen and of the home agents, which the factory defaults set (R58). -/
def State.factoryDefaults (s : State) : State :=
  let s := s.touched.foldl (fun (s : State) o =>
    let keep : Word := ~~~ (BitVec.ofNat 64 (accMask o .rw + accMask o .rws + accMask o .rwl))
    (s.setReg o ((s.reg o &&& keep) ||| (resetWord o &&& ~~~ keep))).setShadow o (resetWord o)) s
  let s := s.setBoth (Reg.ILC_CTL 0) Fld.ILC_CTL_enable 1
  let s := (List.range 4).foldl (fun (s : State) q => s.setBoth (Reg.COH_CTL q) Fld.COH_CTL_enable 1) s
  { s with boot := { s.boot with defaulted := true } }

/-- CFG_IMAGE_STATUS: result, record index and version (Table SU-8). -/
def State.imageStatus (s : State) (result index version : Nat) : State :=
  let off := Reg.CFG_IMAGE_STATUS
  ((s.setFld off Fld.CFG_IMAGE_STATUS_result result).setFld off Fld.CFG_IMAGE_STATUS_record_index index).setFld
    off Fld.CFG_IMAGE_STATUS_image_version version

/-- The image commit: the image applied as one commit with token 0 at a 1 µs boundary, with the queue enables left staged; or the defaults where its check fails (R57, R58). What was staged in registers that the image does not write stays staged. -/
def State.imageCommit (s : State) (version : Nat) (ws : List (Nat × Word)) : State :=
  let t := ws.foldl State.imageWrite s
  let offs := (t.commitOffsets true).filter fun o => ws.any fun w => w.1 == o
  match faultOffset ((t.applied offs).brokenRules s) with
  | none =>
    let t : State := { t with boot := { t.boot with defaulted := false } }
    ((t.imageStatus 0 0xFFFF version).commitToken 0).passCommit offs s.nt
  | some off =>
    (((s.factoryDefaults.imageStatus 6 0xFFFF version).commitToken 0).commitResult 3 1).setFld
      Reg.CFG_COMMIT_FAULT Fld.CFG_COMMIT_FAULT_offset off

/-- CONFIGURATION_IMAGE: step 4 ends with the image applied, or with the factory defaults; the PWR block locks (R41, R53 to R58). The command is the end of step 4, which a commit of the image puts at a 1 µs boundary: elsewhere it leaves the state as it is. -/
def configurationImageEff (image : List Byte) (s : State) : State :=
  if !s.atStep 4 || s.nt % 1000 != 0 then s
  else
    let version := leAt image 8 4
    let s : State := { s with boot := { s.boot with cfgDigest := (Config.sha384 (image.take (36 + leAt image 12 4))).toNat } }
    let s :=
      match checkImage image with
      | .error (code, index) =>
        ((s.factoryDefaults.setReg Reg.CFG_COMMIT_RESULT (resetWord Reg.CFG_COMMIT_RESULT)).setReg Reg.CFG_COMMIT_FAULT (resetWord Reg.CFG_COMMIT_FAULT)).imageStatus code index version
      | .ok ws => s.imageCommit version ws
    (s.setFld Reg.PWR_SENSE_STATUS Fld.PWR_SENSE_STATUS_therm_locked 1).stepDone 4

def execConfigurationImage (image : List Byte) (s : State) : Result := .next (configurationImageEff image s)

/-- ANALOGUE_CALIBRATION: step 5 ends; lanes that failed are marked, and background recalibration starts (R48, Table SU-2). -/
def analogueCalibrationEff (failedLanes : List (LinkId × Fin 3)) (s : State) : State :=
  if !s.atStep 5 then s
  else
    let s := failedLanes.foldl (fun (s : State) l => s.setLane l.1 l.2 0) s
    { s with boot := { s.boot with recal := true, laneFailed := failedLanes.map fun (l : LinkId × Fin 3) => (l.1.val, l.2.val) } }.stepDone 5

def execAnalogueCalibration (failedLanes : List (LinkId × Fin 3)) (s : State) : Result :=
  .next (analogueCalibrationEff failedLanes s)

/-- STACK_TRAINING: step 6 ends; a stack that fails is marked failed, and a stack that was kept as failed stays so (R49). -/
def stackTrainingEff (failed : BitVec 32) (s : State) : State :=
  if !s.atStep 6 then s
  else
    let s := (List.range 32).foldl (fun (s : State) n =>
      if s.stackFailed n then s.setFld (portStatus n) Fld.STK_PORT_STATUS_state 4
      else if failed.toNat.testBit n then s.markFailed n 1
      else s.setFld (portStatus n) Fld.STK_PORT_STATUS_state 1) s
    s.stepDone 6

def execStackTraining (failed : BitVec 32) (s : State) : Result := .next (stackTrainingEff failed s)

/-- The positions of a Clasp group that are marked failed, counted. -/
def State.failedIn (s : State) (q : Nat) : Nat := ((List.range 8).filter fun j => s.posFailed q j).length

/-- CLASP_CHECK: step 7 ends. Two failed stacks in a group, or a group left LOST, stop start-up; otherwise the stacks hold zero, or what a warm reset kept, the slabs are ready, and the enabled links start training (R44, R49, R131, R363). -/
def claspCheckEff (s : State) : State :=
  if !s.atStep 7 then s
  else
    let marks := ((List.range 32).filter s.stackFailed).foldl (fun n k => n + 2 ^ k) 0
    let s := s.setFld Reg.CFG_BOOT_STATUS Fld.CFG_BOOT_STATUS_stk_failed marks
    if (List.range 4).any fun q => 2 ≤ s.failedIn q || s.groupState q == 5 then s.stopBoot 4
    else
      let s := s.setFld Reg.CFG_BOOT_STATUS Fld.CFG_BOOT_STATUS_pool_kept (bit s.boot.keep)
      let s : State := if s.boot.keep then s else { s with pool := { s.pool with cells := [] } }
      let s := (s.instances slabOf).foldl (fun (s : State) n =>
        if s.on (slabReg n) Fld.STK_SLAB_enable then s.setFld (slabReg n) Fld.STK_SLAB_state 2 else s) s
      let s : State := ({ s with boot := { s.boot with idle := false } } : State).stepDone 7
      (List.range 32).foldl (fun (s : State) n =>
        if s.on (Reg.LNK_CTL n) Fld.LNK_CTL_enable then s.enableLink n true else s) s

def execClaspCheck (s : State) : Result := .next (claspCheckEff s)

/-- LINK_TRAINING_STEP: step 8 ends once every enabled link has come up or is left DOWN (Table SU-2). -/
def linkTrainingStepEff (s : State) : State :=
  if s.atStep 8 && (List.range 32).all (fun n =>
      !s.on (Reg.LNK_CTL n) Fld.LNK_CTL_enable || lsActive ≤ s.linkState n) then s.stepDone 8
  else s

def execLinkTrainingStep (s : State) : Result := .next (linkTrainingStepEff s)

/-- ROUTE_TABLE_ACTIVATION: step 9 ends; the router acts on its tables, and Ilcen bring-up begins (R51, Table SU-2). -/
def routeTableActivationEff (s : State) : State :=
  if !s.atStep 9 then s
  else
    let s : State := ({ s with boot := { s.boot with routerOn := true } } : State).stepDone 9
    if s.on (Reg.ILC_CTL 0) Fld.ILC_CTL_enable then s.enableIlcen true else s

def execRouteTableActivation (s : State) : Result := .next (routeTableActivationEff s)

/-- ILCEN_BRINGUP: step 10 ends; a link that has not come up is retried, and start-up continues (Table SU-2). -/
def ilcenBringupEff (s : State) : State := if s.atStep 10 then s.stepDone 10 else s

def execIlcenBringup (s : State) : Result := .next (ilcenBringupEff s)

/-- ATTESTATION: step 11 ends with Hallmark ready to quote, or start-up stops; the staged queue enables are then due (R46, R52). -/
def attestationEff (ok : Bool) (s : State) : State :=
  if !s.atStep 11 then s
  else if !ok then s.stopBoot 5
  else ({ s with boot := { s.boot with autoAt := some (roundUp 1000 s.nt) } } : State).stepDone 11

def execAttestation (ok : Bool) (s : State) : Result := .next (attestationEff ok s)

end Sys2Proof.Machine
end

