-- ==== Sys2Proof/Machine/PortRows.lean ====
section
/-! DEFINITION. The board's ports: the JTAG instructions and the SMBus commands (R472, R474, R478, R479, R487, R497). -/

namespace Sys2Proof.Machine

open Sys2Proof

/-- The JTAG instruction codes of Table LP-6. -/
def tapIdcode : Nat := 0x01
def tapSample : Nat := 0x02
def tapExtest : Nat := 0x03
def tapReg : Nat := 0x10
def tapStop : Nat := 0x11
def tapResume : Nat := 0x12
def tapDumpRead : Nat := 0x13
def tapBypass : Nat := 0xFF

/-- An instruction loaded into the TAP's instruction register. -/
def State.loadTap (s : State) (code : Nat) : State := { s with ports := { s.ports with instr := code } }

/-- TAP_RESET: the TAP is reset and selects IDCODE (R478). -/
def tapResetEff (s : State) : State := s.loadTap tapIdcode

def execTapReset (s : State) : Result := .next (tapResetEff s)

/-- The 32 bits that IDCODE returns: part_id with bit 0 set (Table LP-6). -/
def idcodeBits : Nat := (0x10032546 : Nat) ||| 1

/-- IDCODE (R478). -/
def idcodeEff (s : State) : State := (s.loadTap tapIdcode).emit (.jtag 32 idcodeBits)

def execIdcode (s : State) : Result := .next (idcodeEff s)

/-- The number of pins that the boundary scan covers: the 1.8 V single-ended pins of Table PK-2 other than the JTAG pins (R478). -/
def boundaryPins : Nat := 16

/-- The levels of the covered pins in the order of Table PK-2: PWROK, PERST_N, STOP_IN_N, STOP_OUT_N, ALERT_N, THERM_N, then the ten pins of SMBus, the straps and the flash, whose levels no state gives and which `open_` supplies. -/
def State.pinLevels (s : State) (open_ : Nat) : Nat :=
  bit s.pins.pwrok + 2 * bit s.pins.perstN + 4 * bit s.pins.stopInN + 8 * bit (!s.coreStopped) + 16 * bit (!s.alertLow) +
  32 * bit s.pins.thermN + 64 * (open_ % 1024)

/-- SAMPLE/PRELOAD: the pins are sampled and shifted out while a new value is shifted into the boundary register (R478). -/
def samplePreloadEff (value : Nat) (s : State) : State :=
  let (k, s) := s.draw
  let s := s.loadTap tapSample
  let s := s.emit (.jtag boundaryPins (s.pinLevels (Config.free k)))
  { s with ports := { s.ports with boundary := value % 2 ^ boundaryPins } }

def execSamplePreload (value : Nat) (s : State) : Result := .next (samplePreloadEff value s)

/-- EXTEST: the pins are captured, and the value shifted in drives the covered pins until another instruction loads (R478). -/
def extestEff (value : Nat) (s : State) : State :=
  let (k, s) := s.draw
  let s := s.loadTap tapExtest
  let s := s.emit (.jtag boundaryPins (s.pinLevels (Config.free k)))
  { s with ports := { s.ports with boundary := value % 2 ^ boundaryPins } }

def execExtest (value : Nat) (s : State) : Result := .next (extestEff value s)

/-- The 96 bits that Capture-DR of REG returns: data, offset, the write bit as 0, and status (Table LP-6). -/
def State.regCapture (s : State) : Nat :=
  s.ports.regData.toNat + 2 ^ 64 * (s.ports.regOffset % 2 ^ 26) + 2 ^ 91 * s.ports.regStatus

/-- What the next Capture-DR of REG returns. -/
def State.regResult (s : State) (data : Word) (offset status : Nat) : State :=
  { s with ports := { s.ports with regData := data, regOffset := offset, regStatus := status } }

/-- REG: the capture of the access before is shifted out, and the access is made at Update-DR under R3 and Table SC-3 (R478). Before start-up step 2 there is no access and the status is busy (R47). -/
def jtagRegEff (write : Bool) (offset : Nat) (value : Word) (env : Env) (s : State) : State :=
  let s := s.loadTap tapReg
  let s := s.emit (.jtag 96 s.regCapture)
  if !s.boot.smbus then s.regResult 0 offset 1
  else if write then
    let (s, refused) := s.accessWrite .jtag offset 8 value env
    let (k, s) := s.draw
    s.regResult (BitVec.ofNat 64 (Config.free k)) offset (if refused then 2 else 0)
  else
    let (s, v, refused) := s.accessRead .jtag offset 8
    s.regResult v offset (if refused then 2 else 0)

def execJtagReg (write : Bool) (offset : BitVec 26) (value : Word) (env : Env) (s : State) : Result :=
  .next (jtagRegEff write offset.toNat value env s)

/-- STOP: a stop request at Update-IR (R472). -/
def jtagStopEff (s : State) : State := (s.loadTap tapStop).requestStop 4

def execJtagStop (s : State) : Result := .next (jtagStopEff s)

/-- RESUME: a resume request at Update-IR; Capture-DR returns LPE_STOP.result (R474). -/
def jtagResumeEff (s : State) : State :=
  let s := (s.loadTap tapResume).requestResume
  s.emit (.jtag 8 (s.fld Reg.LPE_STOP Fld.LPE_STOP_result))

def execJtagResume (s : State) : Result := .next (jtagResumeEff s)

/-- DUMP_READ: while stopped, the global dump image with bit 0 of byte 0 first; otherwise zeros (R475, R478, R479). -/
def dumpReadEff (s : State) : State :=
  let s := s.loadTap tapDumpRead
  if !s.stopped then s.emit (.jtag 1 0)
  else
    let image := s.dumpImage 0 0 s.nt s.globalSections
    { s.emit (.jtag (8 * image.length) (ofLE image)) with fresh := s.fresh + 1 }

def execDumpRead (s : State) : Result := .next (dumpReadEff s)

/-- BYPASS: the 1-bit bypass register, which captures 0 (R478). -/
def bypassEff (s : State) : State := (s.loadTap tapBypass).emit (.jtag 1 0)

def execBypass (s : State) : Result := .next (bypassEff s)

/-- The NP32's 7-bit SMBus address, 0b10110xx with the straps in its low bits (R21, R497). -/
def State.smbAddress (s : State) : Nat := 0x58 + 2 * bit s.pins.strapB + bit s.pins.strapA

/-- One bit of the SMBus packet error code, polynomial x^8 + x^2 + x + 1. -/
def pecStep (c : Nat) : Nat := if 0x80 ≤ c then (2 * c) % 256 ^^^ 0x07 else 2 * c

/-- One byte of the packet error code. -/
def pecByte (c : Nat) (b : Byte) : Nat := pecStep (pecStep (pecStep (pecStep (pecStep (pecStep (pecStep (pecStep (c ^^^ b.toNat))))))))

/-- The packet error code of the bytes of a transaction. -/
def pec (bs : List Byte) : Byte := BitVec.ofNat 8 (bs.foldl pecByte 0)

/-- WRITE, command 0x10: the value written to the offset, unless the byte count is wrong or a PEC byte that was sent is wrong (R497, Table RM-4). -/
def smbWriteEff (count offset : Nat) (value : Word) (pecOk : Bool) (env : Env) (s : State) : State :=
  if !s.boot.smbus || count != 12 || !pecOk then s else (s.accessWrite .smbus (offset % 2 ^ 32) 8 value env).1

def execSmbWrite (_host : Nat) (count offset : Nat) (value : Word) (pecOk : Bool) (env : Env) (s : State) : Result :=
  .next (smbWriteEff count offset value pecOk env s)

/-- ADDR, command 0x11: the offset kept for this host's next READ (R497, Table RM-4). -/
def smbAddrEff (host count offset : Nat) (pecOk : Bool) (s : State) : State :=
  if !s.boot.smbus || count != 4 || !pecOk then s
  else { s with ports := { s.ports with smbAddr := mset (fun _ => 0) s.ports.smbAddr host (offset % 2 ^ 32) } }

def execSmbAddr (host : Nat) (count offset : Nat) (pecOk : Bool) (s : State) : Result := .next (smbAddrEff host count offset pecOk s)

/-- READ, command 0x12: a Block Read of count 9, its status and value, and a PEC byte (R497, Table RM-4). -/
def smbReadEff (host : Nat) (s : State) : State :=
  if !s.boot.smbus then s
  else
    let offset := mget (fun _ => 0) s.ports.smbAddr host
    let (s, v, refused) := s.accessRead .smbus offset 8
    let data := leBytes 1 9 ++ leBytes 1 (if refused then 2 else 0) ++ leBytes 8 v.toNat
    let a := s.smbAddress
    let whole := leBytes 1 (2 * a) ++ leBytes 1 0x12 ++ leBytes 1 (2 * a + 1) ++ data
    s.emit (.smbus (data ++ [pec whole]))

def execSmbRead (host : Nat) (s : State) : Result := .next (smbReadEff host s)

/-- SMB_ALERT_RESPONSE: the NP32's own address, which does not release ALERT_N (R487). -/
def smbAlertResponseEff (s : State) : State :=
  if s.boot.smbus && s.alertLow then s.emit (.smbus (leBytes 1 (2 * s.smbAddress))) else s

def execSmbAlertResponse (s : State) : Result := .next (smbAlertResponseEff s)

end Sys2Proof.Machine
end

