-- ==== Sys2Proof/Machine/Dispatch.lean ====
section
/-! DEFINITION. One arm for every command of the opcode table: a direct call of its meaning. -/

namespace Sys2Proof.Machine

open Sys2Proof

/-- The effect of one command on everything but the queue. -/
def exec (i : Instr) (s : State) : Host.Outcome State Fault Refusal :=
  match i with
  | .powerOn => Sys2Proof.Machine.execPowerOn s
  | .perstNAssert => Sys2Proof.Machine.execPerstNAssert s
  | .perstNDeassert strapA strapB => Sys2Proof.Machine.execPerstNDeassert strapA strapB s
  | .pwrokLoss => Sys2Proof.Machine.execPwrokLoss s
  | .railOutOfTolerance rail => Sys2Proof.Machine.execRailOutOfTolerance rail s
  | .vddCoreUndervoltage q => Sys2Proof.Machine.execVddCoreUndervoltage q s
  | .thermalSample q temp => Sys2Proof.Machine.execThermalSample q temp s
  | .dieOverTemperature q => Sys2Proof.Machine.execDieOverTemperature q s
  | .stackSensorRead n temp => Sys2Proof.Machine.execStackSensorRead n temp s
  | .refclkLost => Sys2Proof.Machine.execRefclkLost s
  | .refclkReturn => Sys2Proof.Machine.execRefclkReturn s
  | .droopTrip q mv => Sys2Proof.Machine.execDroopTrip q mv s
  | .stretchEnd q sag => Sys2Proof.Machine.execStretchEnd q sag s
  | .backgroundRecalibration atLimit => Sys2Proof.Machine.execBackgroundRecalibration atLimit s
  | .bootRom pllOk fuseOk => Sys2Proof.Machine.execBootRom pllOk fuseOk s
  | .firmwareImageCheck slotA slotB => Sys2Proof.Machine.execFirmwareImageCheck slotA slotB s
  | .configurationImage image => Sys2Proof.Machine.execConfigurationImage image s
  | .analogueCalibration failedLanes => Sys2Proof.Machine.execAnalogueCalibration failedLanes s
  | .stackTraining failed => Sys2Proof.Machine.execStackTraining failed s
  | .claspCheck => Sys2Proof.Machine.execClaspCheck s
  | .linkTrainingStep => Sys2Proof.Machine.execLinkTrainingStep s
  | .routeTableActivation => Sys2Proof.Machine.execRouteTableActivation s
  | .ilcenBringup => Sys2Proof.Machine.execIlcenBringup s
  | .attestation ok => Sys2Proof.Machine.execAttestation ok s
  | .autoQueueCommit => Sys2Proof.Machine.execAutoQueueCommit s
  | .cfgResetWarm path value => Sys2Proof.Machine.execCfgResetWarm path value s
  | .cfgResetCold path value => Sys2Proof.Machine.execCfgResetCold path value s
  | .glbCommitNextUs path value => Sys2Proof.Machine.execGlbCommitNextUs path value s
  | .glbCommitAtInstant path value => Sys2Proof.Machine.execGlbCommitAtInstant path value s
  | .commitCheckEnd => Sys2Proof.Machine.execCommitCheckEnd s
  | .commitApply => Sys2Proof.Machine.execCommitApply s
  | .commitCancel path value => Sys2Proof.Machine.execCommitCancel path value s
  | .commitDiscard path value => Sys2Proof.Machine.execCommitDiscard path value s
  | .registerWrite path offset size value env => Sys2Proof.Machine.execRegisterWrite path offset size value env s
  | .pwrSenseRead path read => Sys2Proof.Machine.execPwrSenseRead path read s
  | .glbCfgViolClear path value => Sys2Proof.Machine.execGlbCfgViolClear path value s
  | .mgmtBeat path value => Sys2Proof.Machine.execMgmtBeat path value s
  | .mgmtLivenessLoss => Sys2Proof.Machine.execMgmtLivenessLoss s
  | .ilcenDoorbellWrite client offset data => Sys2Proof.Machine.execIlcenDoorbellWrite client offset data s
  | .doorbell port p => Sys2Proof.Machine.execDoorbell port p s
  | .fetchTurn q => Sys2Proof.Machine.execFetchTurn q s
  | .fetchData q j env => Sys2Proof.Machine.execFetchData q j env s
  | .descriptorIssue q j => Sys2Proof.Machine.execDescriptorIssue q j s
  | .descriptorStart key => Sys2Proof.Machine.execDescriptorStart key s
  | .completionWrite key env => Sys2Proof.Machine.execCompletionWrite key env s
  | .eventMessage key env => Sys2Proof.Machine.execEventMessage key env s
  | .nop key => Sys2Proof.Machine.execNop key s
  | .move key env => Sys2Proof.Machine.execMove key env s
  | .fill key env => Sys2Proof.Machine.execFill key env s
  | .atomic key env => Sys2Proof.Machine.execAtomic key env s
  | .fence key => Sys2Proof.Machine.execFence key s
  | .fenceCompletion key => Sys2Proof.Machine.execFenceCompletion key s
  | .flush key env => Sys2Proof.Machine.execFlush key env s
  | .segSyncLoad key env => Sys2Proof.Machine.execSegSyncLoad key env s
  | .segSyncInvalidate key => Sys2Proof.Machine.execSegSyncInvalidate key s
  | .segSyncInstall key => Sys2Proof.Machine.execSegSyncInstall key s
  | .segSyncCompletion key => Sys2Proof.Machine.execSegSyncCompletion key s
  | .publish key env => Sys2Proof.Machine.execPublish key env s
  | .leaseRenew key => Sys2Proof.Machine.execLeaseRenew key s
  | .recipeRun key env => Sys2Proof.Machine.execRecipeRun key env s
  | .recipeRunStart key env => Sys2Proof.Machine.execRecipeRunStart key env s
  | .expertBatch key env => Sys2Proof.Machine.execExpertBatch key env s
  | .expertSubBatchEnd key env => Sys2Proof.Machine.execExpertSubBatchEnd key env s
  | .attnStep key env => Sys2Proof.Machine.execAttnStep key env s
  | .attnSequenceEnd n env => Sys2Proof.Machine.execAttnSequenceEnd n env s
  | .kvAppend key env => Sys2Proof.Machine.execKvAppend key env s
  | .qpReset path q j value => Sys2Proof.Machine.execQpReset path q j value s
  | .qpResetDone q j env => Sys2Proof.Machine.execQpResetDone q j env s
  | .retire path q value => Sys2Proof.Machine.execRetire path q value s
  | .retireDone q => Sys2Proof.Machine.execRetireDone q s
  | .tileCheck key requester va rowLen rows stride write => Sys2Proof.Machine.execTileCheck key requester va rowLen rows stride write s
  | .bitmapLineFill q client segment generation line env => Sys2Proof.Machine.execBitmapLineFill q client segment generation line env s
  | .faultRecheck key requester => Sys2Proof.Machine.execFaultRecheck key requester s
  | .segFaultResolveResume path q value => Sys2Proof.Machine.execSegFaultResolveResume path q value s
  | .faultResumeDone q record env => Sys2Proof.Machine.execFaultResumeDone q record env s
  | .segFaultResolveAbort path q value => Sys2Proof.Machine.execSegFaultResolveAbort path q value s
  | .faultTimeout q record => Sys2Proof.Machine.execFaultTimeout q record s
  | .segBmcInv path q value => Sys2Proof.Machine.execSegBmcInv path q value s
  | .segBmcInvDone q => Sys2Proof.Machine.execSegBmcInvDone q s
  | .granuleRead n row ecc => Sys2Proof.Machine.execGranuleRead n row ecc s
  | .rowWrite n row start data => Sys2Proof.Machine.execRowWrite n row start data s
  | .refresh n => Sys2Proof.Machine.execRefresh n s
  | .powerDownIdle n => Sys2Proof.Machine.execPowerDownIdle n s
  | .stackPowerActive path n value => Sys2Proof.Machine.execStackPowerActive path n value s
  | .stackSelfRefresh path n value => Sys2Proof.Machine.execStackSelfRefresh path n value s
  | .stackPowerOff path n value => Sys2Proof.Machine.execStackPowerOff path n value s
  | .stackInterfaceErrors n => Sys2Proof.Machine.execStackInterfaceErrors n s
  | .stackFatalReport n => Sys2Proof.Machine.execStackFatalReport n s
  | .slabFillDone slab => Sys2Proof.Machine.execSlabFillDone slab s
  | .clsFail path q value => Sys2Proof.Machine.execClsFail path q value s
  | .clsReinstate path q value => Sys2Proof.Machine.execClsReinstate path q value s
  | .reinstateRetrainDone q ok => Sys2Proof.Machine.execReinstateRetrainDone q ok s
  | .backgroundTaskRow q ecc => Sys2Proof.Machine.execBackgroundTaskRow q ecc s
  | .clsRowRepair path q value => Sys2Proof.Machine.execClsRowRepair path q value s
  | .rowRepairDone q ecc => Sys2Proof.Machine.execRowRepairDone q ecc s
  | .patrolScrubRow q ecc => Sys2Proof.Machine.execPatrolScrubRow q ecc s
  | .bankAccess st a b rest => Sys2Proof.Machine.execBankAccess st a b rest s
  | .bankAtomic st port tag oa op mask operand other => Sys2Proof.Machine.execBankAtomic st port tag oa op mask operand other s
  | .bankOwnerWrite path st bank value => Sys2Proof.Machine.execBankOwnerWrite path st bank value s
  | .handoverGrant st bank => Sys2Proof.Machine.execHandoverGrant st bank s
  | .bankPowerOn path st bank value => Sys2Proof.Machine.execBankPowerOn path st bank value s
  | .bankPowerRetention path st bank value => Sys2Proof.Machine.execBankPowerRetention path st bank value s
  | .bankPowerOff path st bank value => Sys2Proof.Machine.execBankPowerOff path st bank value s
  | .bankPowerTransitionDone st bank => Sys2Proof.Machine.execBankPowerTransitionDone st bank s
  | .bankClear path st bank value => Sys2Proof.Machine.execBankClear path st bank value s
  | .bankClearDone st bank => Sys2Proof.Machine.execBankClearDone st bank s
  | .bankRegionTestStart st => Sys2Proof.Machine.execBankRegionTestStart st s
  | .bankRegionTestEnd st pass => Sys2Proof.Machine.execBankRegionTestEnd st pass s
  | .wholeBankTestDone st bank pass => Sys2Proof.Machine.execWholeBankTestDone st bank pass s
  | .decoderTile st facet fill env => Sys2Proof.Machine.execDecoderTile st facet fill env s
  | .facetPass st facet turn => Sys2Proof.Machine.execFacetPass st facet turn s
  | .sweepEnd st facet fill => Sys2Proof.Machine.execSweepEnd st facet fill s
  | .moverTransferComplete mover env => Sys2Proof.Machine.execMoverTransferComplete mover env s
  | .reduceContribution n sum source => Sys2Proof.Machine.execReduceContribution n sum source s
  | .instanceStart => Sys2Proof.Machine.execInstanceStart s
  | .instanceComplete n => Sys2Proof.Machine.execInstanceComplete n s
  | .matmul n => Sys2Proof.Machine.execMatmul n s
  | .act n => Sys2Proof.Machine.execAct n s
  | .norm n env => Sys2Proof.Machine.execNorm n env s
  | .rope n env => Sys2Proof.Machine.execRope n env s
  | .softmax n => Sys2Proof.Machine.execSoftmax n s
  | .topk n => Sys2Proof.Machine.execTopk n s
  | .quant n => Sys2Proof.Machine.execQuant n s
  | .reduce n => Sys2Proof.Machine.execReduce n s
  | .combine n => Sys2Proof.Machine.execCombine n s
  | .gather n env => Sys2Proof.Machine.execGather n env s
  | .scatter n env => Sys2Proof.Machine.execScatter n env s
  | .attn n env => Sys2Proof.Machine.execAttn n env s
  | .expert n env => Sys2Proof.Machine.execExpert n env s
  | .sample n env => Sys2Proof.Machine.execSample n env s
  | .loop => Sys2Proof.Machine.execLoop s
  | .barrier => Sys2Proof.Machine.execBarrier s
  | .send n => Sys2Proof.Machine.execSend n s
  | .recv n => Sys2Proof.Machine.execRecv n s
  | .sendRetry n piece => Sys2Proof.Machine.execSendRetry n piece s
  | .sendRetryExpiry n piece => Sys2Proof.Machine.execSendRetryExpiry n piece s
  | .recvTimeout n => Sys2Proof.Machine.execRecvTimeout n s
  | .rcpLoad path value => Sys2Proof.Machine.execRcpLoad path value s
  | .rcpUnload path value => Sys2Proof.Machine.execRcpUnload path value s
  | .rcpLoadDone env => Sys2Proof.Machine.execRcpLoadDone env s
  | .expertAdmission env => Sys2Proof.Machine.execExpertAdmission env s
  | .spillRequest port p env => Sys2Proof.Machine.execSpillRequest port p env s
  | .spillAccept port got => Sys2Proof.Machine.execSpillAccept port got s
  | .spillRefuse port p => Sys2Proof.Machine.execSpillRefuse port p s
  | .spillTokenRow port p => Sys2Proof.Machine.execSpillTokenRow port p s
  | .spillResultRow port got => Sys2Proof.Machine.execSpillResultRow port got s
  | .spillGroupServe src group env => Sys2Proof.Machine.execSpillGroupServe src group env s
  | .spillAnswerTimeout => Sys2Proof.Machine.execSpillAnswerTimeout s
  | .spillResultTimeout group => Sys2Proof.Machine.execSpillResultTimeout group s
  | .routedChunkEnd st env => Sys2Proof.Machine.execRoutedChunkEnd st env s
  | .sharedPhaseAEnd env => Sys2Proof.Machine.execSharedPhaseAEnd env s
  | .expertClose env => Sys2Proof.Machine.execExpertClose env s
  | .regionCreate path q value env => Sys2Proof.Machine.execRegionCreate path q value env s
  | .regionDelete path q value env => Sys2Proof.Machine.execRegionDelete path q value env s
  | .regionBump path q value env => Sys2Proof.Machine.execRegionBump path q value env s
  | .leaseExpiry q entry => Sys2Proof.Machine.execLeaseExpiry q entry s
  | .leaseRevoke path q value => Sys2Proof.Machine.execLeaseRevoke path q value s
  | .leaseDrainComplete q entry env => Sys2Proof.Machine.execLeaseDrainComplete q entry env s
  | .leaseFillComplete q entry env => Sys2Proof.Machine.execLeaseFillComplete q entry env s
  | .leaseRelease path q value => Sys2Proof.Machine.execLeaseRelease path q value s
  | .rdShared who txn line ecc => Sys2Proof.Machine.execRdShared who txn line ecc s
  | .rdOwn who txn line ecc => Sys2Proof.Machine.execRdOwn who txn line ecc s
  | .upgrade who txn line ecc => Sys2Proof.Machine.execUpgrade who txn line ecc s
  | .rdCur who txn line ecc => Sys2Proof.Machine.execRdCur who txn line ecc s
  | .wrInv who txn line mask data ecc => Sys2Proof.Machine.execWrInv who txn line mask data ecc s
  | .evictDirty who txn line dataErr data ecc => Sys2Proof.Machine.execEvictDirty who txn line dataErr data ecc s
  | .evictClean who txn line ecc => Sys2Proof.Machine.execEvictClean who txn line ecc s
  | .homeTransactionStart line ecc => Sys2Proof.Machine.execHomeTransactionStart line ecc s
  | .snpCur st line => Sys2Proof.Machine.execSnpCur st line s
  | .snpShr st line => Sys2Proof.Machine.execSnpShr st line s
  | .snpCln st line => Sys2Proof.Machine.execSnpCln st line s
  | .snpInv st line => Sys2Proof.Machine.execSnpInv st line s
  | .snpFwd st line => Sys2Proof.Machine.execSnpFwd st line s
  | .snpWb st line => Sys2Proof.Machine.execSnpWb st line s
  | .backInv st line => Sys2Proof.Machine.execBackInv st line s
  | .rspI who line wbPending ecc => Sys2Proof.Machine.execRspI who line wbPending ecc s
  | .rspS who line ecc => Sys2Proof.Machine.execRspS who line ecc s
  | .rspE who line ecc => Sys2Proof.Machine.execRspE who line ecc s
  | .rspFwd who line ecc => Sys2Proof.Machine.execRspFwd who line ecc s
  | .cmp st line => Sys2Proof.Machine.execCmp st line s
  | .data st line => Sys2Proof.Machine.execData st line s
  | .dataWb who line dataErr data ecc => Sys2Proof.Machine.execDataWb who line dataErr data ecc s
  | .lineCacheAccess st line op => Sys2Proof.Machine.execLineCacheAccess st line op s
  | .lineCacheEviction st line => Sys2Proof.Machine.execLineCacheEviction st line s
  | .ilcenFlit f => Sys2Proof.Machine.execIlcenFlit f s
  | .ilcenCrcLimit => Sys2Proof.Machine.execIlcenCrcLimit s
  | .ilcenHello h => Sys2Proof.Machine.execIlcenHello h s
  | .ilcenTrained => Sys2Proof.Machine.execIlcenTrained s
  | .ilcenTrainingTimeout => Sys2Proof.Machine.execIlcenTrainingTimeout s
  | .ilcenRetry => Sys2Proof.Machine.execIlcenRetry s
  | .ilcenParamTimeout => Sys2Proof.Machine.execIlcenParamTimeout s
  | .snoopTimeout agent ecc => Sys2Proof.Machine.execSnoopTimeout agent ecc s
  | .agentRemove path value => Sys2Proof.Machine.execAgentRemove path value s
  | .agentLose path value => Sys2Proof.Machine.execAgentLose path value s
  | .lossWalkDone => Sys2Proof.Machine.execLossWalkDone s
  | .lossEventComplete ecc => Sys2Proof.Machine.execLossEventComplete ecc s
  | .dirProbe path q value => Sys2Proof.Machine.execDirProbe path q value s
  | .lllConsume path q value => Sys2Proof.Machine.execLllConsume path q value s
  | .lllClearOverflow path q value => Sys2Proof.Machine.execLllClearOverflow path q value s
  | .frameSlot n => Sys2Proof.Machine.execFrameSlot n s
  | .dataFrame n f => Sys2Proof.Machine.execDataFrame n f s
  | .idle n f => Sys2Proof.Machine.execIdle n f s
  | .hello n f => Sys2Proof.Machine.execHello n f s
  | .helloTick n => Sys2Proof.Machine.execHelloTick n s
  | .timeReq n f arr dep => Sys2Proof.Machine.execTimeReq n f arr dep s
  | .timeResp n f arr => Sys2Proof.Machine.execTimeResp n f arr s
  | .timeExchangeTick n frac => Sys2Proof.Machine.execTimeExchangeTick n frac s
  | .nakResend n => Sys2Proof.Machine.execNakResend n s
  | .replayTimeout n => Sys2Proof.Machine.execReplayTimeout n s
  | .errorWindowExceeded n => Sys2Proof.Machine.execErrorWindowExceeded n s
  | .train n lane p => Sys2Proof.Machine.execTrain n lane p s
  | .swap n p => Sys2Proof.Machine.execSwap n p s
  | .swapAck n p => Sys2Proof.Machine.execSwapAck n p s
  | .retrain n p => Sys2Proof.Machine.execRetrain n p s
  | .resume n p => Sys2Proof.Machine.execResume n p s
  | .down n p => Sys2Proof.Machine.execDown n p s
  | .retrainTimeout n => Sys2Proof.Machine.execRetrainTimeout n s
  | .pauseTimeout n => Sys2Proof.Machine.execPauseTimeout n s
  | .laneFailure n lane => Sys2Proof.Machine.execLaneFailure n lane s
  | .laneRetry n lane ok => Sys2Proof.Machine.execLaneRetry n lane ok s
  | .laneSparePromotion n lane => Sys2Proof.Machine.execLaneSparePromotion n lane s
  | .linkTrainingDone n a b third => Sys2Proof.Machine.execLinkTrainingDone n a b third s
  | .linkTrainingTimeout n => Sys2Proof.Machine.execLinkTrainingTimeout n s
  | .alignLock n => Sys2Proof.Machine.execAlignLock n s
  | .alignTimeout n => Sys2Proof.Machine.execAlignTimeout n s
  | .paramTimeout n => Sys2Proof.Machine.execParamTimeout n s
  | .syntoniseLock n => Sys2Proof.Machine.execSyntoniseLock n s
  | .syntoniseTimeout n => Sys2Proof.Machine.execSyntoniseTimeout n s
  | .downRetry n => Sys2Proof.Machine.execDownRetry n s
  | .lnkCtlRetrain path n value => Sys2Proof.Machine.execLnkCtlRetrain path n value s
  | .lnkCtlDiscard path n value => Sys2Proof.Machine.execLnkCtlDiscard path n value s
  | .packetHeadRoute port vc => Sys2Proof.Machine.execPacketHeadRoute port vc s
  | .read port p env => Sys2Proof.Machine.execRead port p env s
  | .write port p env => Sys2Proof.Machine.execWrite port p env s
  | .activation port p => Sys2Proof.Machine.execActivation port p s
  | .readData port p => Sys2Proof.Machine.execReadData port p s
  | .writeAck port p => Sys2Proof.Machine.execWriteAck port p s
  | .actAck port p => Sys2Proof.Machine.execActAck port p s
  | .dropNotice port p => Sys2Proof.Machine.execDropNotice port p s
  | .regRead port p => Sys2Proof.Machine.execRegRead port p s
  | .regWrite port p env => Sys2Proof.Machine.execRegWrite port p env s
  | .regResp port p => Sys2Proof.Machine.execRegResp port p s
  | .tagTimeout tag => Sys2Proof.Machine.execTagTimeout tag s
  | .tagQuarantineEnd tag => Sys2Proof.Machine.execTagQuarantineEnd tag s
  | .drainEnd => Sys2Proof.Machine.execDrainEnd s
  | .dropNoticeHoldoffEnd c => Sys2Proof.Machine.execDropNoticeHoldoffEnd c s
  | .heartbeatTick => Sys2Proof.Machine.execHeartbeatTick s
  | .beat src => Sys2Proof.Machine.execBeat src s
  | .handover src => Sys2Proof.Machine.execHandover src s
  | .pathSilent fabric => Sys2Proof.Machine.execPathSilent fabric s
  | .claimTick => Sys2Proof.Machine.execClaimTick s
  | .claimTimeout => Sys2Proof.Machine.execClaimTimeout s
  | .paiGrant path value => Sys2Proof.Machine.execPaiGrant path value s
  | .takeoverQuarantineEnd env => Sys2Proof.Machine.execTakeoverQuarantineEnd env s
  | .paiFence path value => Sys2Proof.Machine.execPaiFence path value s
  | .paiHandover path value => Sys2Proof.Machine.execPaiHandover path value s
  | .handoverDrainDone => Sys2Proof.Machine.execHandoverDrainDone s
  | .mirrorSend => Sys2Proof.Machine.execMirrorSend s
  | .joinCopyComplete => Sys2Proof.Machine.execJoinCopyComplete s
  | .quote path value => Sys2Proof.Machine.execQuote path value s
  | .quoteDone cert env => Sys2Proof.Machine.execQuoteDone cert env s
  | .bind path value => Sys2Proof.Machine.execBind path value s
  | .bindFillDone => Sys2Proof.Machine.execBindFillDone s
  | .release path value => Sys2Proof.Machine.execRelease path value s
  | .releaseDrainEnd => Sys2Proof.Machine.execReleaseDrainEnd s
  | .releaseScrubDone => Sys2Proof.Machine.execReleaseScrubDone s
  | .svnCommit path value => Sys2Proof.Machine.execSvnCommit path value s
  | .traceRecordWrite cls idx => Sys2Proof.Machine.execTraceRecordWrite cls idx s
  | .traceTrigger path value => Sys2Proof.Machine.execTraceTrigger path value s
  | .traceRearm path value => Sys2Proof.Machine.execTraceRearm path value s
  | .lpeMark path value => Sys2Proof.Machine.execLpeMark path value s
  | .lpeSelWrite path q n value => Sys2Proof.Machine.execLpeSelWrite path q n value s
  | .lpeCtrWrite path q n value => Sys2Proof.Machine.execLpeCtrWrite path q n value s
  | .globalStopRequest path value => Sys2Proof.Machine.execGlobalStopRequest path value s
  | .stopInNLow held => Sys2Proof.Machine.execStopInNLow held s
  | .globalStopResume path value => Sys2Proof.Machine.execGlobalStopResume path value s
  | .resumeInstant => Sys2Proof.Machine.execResumeInstant s
  | .snapshot path value => Sys2Proof.Machine.execSnapshot path value s
  | .snapshotInstant => Sys2Proof.Machine.execSnapshotInstant s
  | .dump path value => Sys2Proof.Machine.execDump path value s
  | .dumpDone => Sys2Proof.Machine.execDumpDone s
  | .watchdogExpiry q => Sys2Proof.Machine.execWatchdogExpiry q s
  | .hangDumpDone q => Sys2Proof.Machine.execHangDumpDone q s
  | .watchdogRearm path q value => Sys2Proof.Machine.execWatchdogRearm path q value s
  | .tapReset => Sys2Proof.Machine.execTapReset s
  | .idcode => Sys2Proof.Machine.execIdcode s
  | .samplePreload value => Sys2Proof.Machine.execSamplePreload value s
  | .extest value => Sys2Proof.Machine.execExtest value s
  | .jtagReg write offset value env => Sys2Proof.Machine.execJtagReg write offset value env s
  | .jtagStop => Sys2Proof.Machine.execJtagStop s
  | .jtagResume => Sys2Proof.Machine.execJtagResume s
  | .dumpRead => Sys2Proof.Machine.execDumpRead s
  | .bypass => Sys2Proof.Machine.execBypass s
  | .smbWrite host count offset value pecOk env => Sys2Proof.Machine.execSmbWrite host count offset value pecOk env s
  | .smbAddr host count offset pecOk => Sys2Proof.Machine.execSmbAddr host count offset pecOk s
  | .smbRead host => Sys2Proof.Machine.execSmbRead host s
  | .smbAlertResponse => Sys2Proof.Machine.execSmbAlertResponse s
  | .eventRecordWrite => Sys2Proof.Machine.execEventRecordWrite s
  | .evtHeadWrite path value => Sys2Proof.Machine.execEvtHeadWrite path value s
  | .eventNotify => Sys2Proof.Machine.execEventNotify s
  | .nodeFatalError cause quadrant => Sys2Proof.Machine.execNodeFatalError cause quadrant s
  | .svnCommitDone => Sys2Proof.Machine.execSvnCommitDone s
  | .np8HoldExpiry line => Sys2Proof.Machine.execNp8HoldExpiry line s
  | .spareDeskewDone n => Sys2Proof.Machine.execSpareDeskewDone n s
  | .equaliserAdaptationDone n => Sys2Proof.Machine.execEqualiserAdaptationDone n s
  | .stackPowerTransitionDone n => Sys2Proof.Machine.execStackPowerTransitionDone n s
  | .ntHighBitsChange => Sys2Proof.Machine.execNtHighBitsChange s

end Sys2Proof.Machine
end

