-- ==== Sys2Proof/Machine/Tick.lean ====
section
/-! DEFINITION. The passing of one nanosecond of the TIME domain: NT with its slew, the fixed counts of Loupe and the watchdogs (R33, R368, R458, R459, R477). -/

namespace Sys2Proof.Machine

open Sys2Proof

/-- How many ns NT advances in this ns, with the slew and its phase that follow: a slew adds or drops one ns in every 10,000, which is 100 ppm (R368). -/
def TimeState.advance (t : TimeState) : Nat × Int × Nat :=
  if t.slew = 0 then (1, 0, 0)
  else if t.slewPhase < 9999 then (1, t.slew, t.slewPhase + 1)
  else if 0 < t.slew then (2, t.slew - 1, 0)
  else (0, t.slew + 1, 0)

/-- CORE clock edges in the ns that ends at count c + 1: 1.7 per ns at full rate, 0.85 at half rate (R458, R459). DESIGN CHOICE: R30 fixes no phase between the domains, and the model makes the count of every domain a function of the TIME count (assumption 64). -/
def coreEdges (half : Bool) (c : Nat) : Nat :=
  if half then (c + 1) * 17 / 20 - c * 17 / 20 else (c + 1) * 17 / 10 - c * 17 / 10

/-- A count of LPE_FIX raised, modulo 2^64. -/
def State.fixAdd (s : State) (q w n : Nat) : State :=
  s.setReg (Reg.LPE_FIX q w) (s.reg (Reg.LPE_FIX q w) + BitVec.ofNat 64 n)

/-- LPE_FIX of a quadrant over one ns in which NT advances by d: edges and half-rate edges while CORE runs, and d while it stands (R459). -/
def State.fixTick (s : State) (d q : Nat) : State :=
  if s.coreStopped then s.fixAdd q 2 d
  else
    let n := coreEdges (s.halfRate q) s.time.count
    let s' := s.fixAdd q 0 n
    if s.halfRate q then s'.fixAdd q 1 n else s'

/-- Whether a quadrant has descriptors in flight; every recipe instance serves one (R477). -/
def State.quadBusy (s : State) (q : Nat) : Bool := s.que.descs.any fun d => d.key.q.val == q

/-- The watchdog of a quadrant over one ns: it counts NT only while work is in flight and CORE runs (R477). -/
def State.wdogTick (s : State) (d q : Nat) : State :=
  if s.coreStopped || !s.quadBusy q then s
  else { s with loupe := { s.loupe with wdog := s.loupe.wdog.set q (s.loupe.wdog.getD q 0 + d) } }

/-- One ns of the TIME domain, while its PLL is locked. Region actions that wait at their homes are tried again (R303). -/
def tickEff (s : State) : State :=
  if !s.on Reg.CLK_STATUS Fld.CLK_STATUS_time_lock then s
  else
    let (d, slew, phase) := s.time.advance
    let s := ((List.range 4).foldl (fun (s : State) q => (s.fixTick d q).wdogTick d q) s).retryActions
    { s with time := { nt := s.time.nt + d, count := s.time.count + 1, slew := slew, slewPhase := phase } }

end Sys2Proof.Machine
end

