-- ==== Sys2Proof/WellFormed.lean ====
section
/-! DEFINITION. Which commands are well formed: every number within the width of the field that carries it, and every payload of the length its carrier gives it. -/

namespace Sys2Proof

/-- A packet whose header fields fit Table RT-1 and whose payload is within the bound of R372. -/
def packetOk (p : Packet) : Bool :=
  decide (p.dst < 2 ^ 16) && decide (p.src < 2 ^ 16) && decide (p.tc < 8) && decide (p.mclass < 4) && decide (p.epoch < 2) &&
  decide (p.dl < 2) && decide (p.opcode < 256) && decide (p.length < 2 ^ 14) && decide (p.tag < 4096) && decide (p.gen < 16) &&
  decide (p.client < 512) && decide (p.inc < 128) && decide (p.hops < 256) && decide (p.status < 256) && decide (p.addr < 2 ^ 64) &&
  decide (p.aux < 2 ^ 32) && decide (p.pcrc < 2 ^ 32) && decide (p.payload.length ≤ 8192)

/-- A frame whose fields fit Table LK-1. -/
def frameOk (f : Frame) : Bool :=
  decide (f.seq < 4096) && decide (f.vc < 8) && decide (f.ack < 4096) && decide (f.cvc < 8) && decide (f.credit < 4096) &&
  decide (f.fill ≤ 244) && decide (f.ctype < 16) && decide (f.payload.length = 244) && decide (f.crc < 2 ^ 32)

/-- A prong whose fields fit Table LK-5. -/
def prongOk (p : Prong) : Bool :=
  decide (p.lane < 256) && decide (p.next < 4096) && decide (p.node < 2 ^ 16) && decide (p.session < 2 ^ 64)

/-- Answers of port ECC that name slots that exist (R115). -/
def eccOk (e : List (Nat × Nat × EccResult)) : Bool := e.all fun x => decide (x.1 < 32) && decide (x.2.1 < 2 ^ 33)

/-- Answers from beyond the pins: recalled lines of 64 bytes, and slots that exist. -/
def envOk (e : Env) : Bool :=
  (e.recalls.all fun r => decide (r.1 < 2 ^ 38) && decide (r.2.length = 64)) && eccOk e.ecc &&
  e.banks.all fun x => decide (x.1 < 2048) && decide (x.2.1 < 8192)

/-- A line of pool memory: a 44-bit address over 64 (R316). -/
def lineOk (line : Nat) : Bool := decide (line < 2 ^ 38)

/-- A row of a Clasp group: a stack has 2^31 slots (R135). -/
def rowOk (row : Nat) : Bool := decide (row < 2 ^ 31)

/-- A heartbeat message on the pins is 32 bytes; one in a packet is as its packet (R415). -/
def heartbeatOk : HbSrc → Bool
  | .pins data => decide (data.length = 32)
  | .packet _ p => packetOk p

/-- An Ilcen flit whose fields fit (R332). -/
def flitOk (f : IlcFlit) : Bool := decide (f.seq < 4096) && decide (f.ack < 4096) && decide (f.reqCredits < 256) && decide (f.snpCredits < 256)

/-- A Hello flit whose fields fit, with one entry for each agent (R333). -/
def helloOk (h : IlcHello) : Bool := decide (h.version < 256) && decide (h.agents.length = 8)

/-- An access within one line of 64 bytes (R317). -/
def lineOpOk : LineOp → Bool
  | .read => true
  | .write start data => decide (start.val + data.length ≤ 64)

/-- An access of a bank port that stays within one word, or one line (R153). An atomic takes one 32-byte word and its operand (R161). -/
def bankReqOk (r : BankReq) : Bool :=
  match r.op with
  | .read n => if r.line then decide (n ≤ 64) else decide (r.oa % 32 + n ≤ 32)
  | .write data => if r.line then decide (data.length ≤ 64) else decide (r.oa % 32 + data.length ≤ 32)
  | .atomic _ _ operand _ => !r.line && decide (operand.length = 32)

/-- An access that is a plain read or write. -/
def plainReq (r : BankReq) : Bool :=
  match r.op with
  | .atomic _ _ _ _ => false
  | _ => true

/-- Whether a command is well formed. -/
def wellFormed : Instr → Bool
  | .perstNDeassert _ _ => true
  | .railOutOfTolerance _ => true
  | .vddCoreUndervoltage _ => true
  | .thermalSample _ _ => true
  | .dieOverTemperature _ => true
  | .stackSensorRead _ _ => true
  | .droopTrip _ mv => decide (mv < 4096)
  | .stretchEnd _ _ => true
  | .backgroundRecalibration _ => true
  | .bootRom _ _ => true
  | .firmwareImageCheck _ _ => true
  | .configurationImage _ => true
  | .analogueCalibration _ => true
  | .stackTraining _ => true
  | .attestation _ => true
  | .cfgResetWarm _ _ => true
  | .cfgResetCold _ _ => true
  | .glbCommitNextUs _ _ => true
  | .glbCommitAtInstant _ _ => true
  | .commitCancel _ _ => true
  | .commitDiscard _ _ => true
  | .registerWrite _ offset _ _ env => decide (offset < 2 ^ 32) && envOk env
  | .pwrSenseRead _ _ => true
  | .glbCfgViolClear _ _ => true
  | .mgmtBeat _ _ => true
  | .ilcenDoorbellWrite _ _ _ => true
  | .doorbell _ p => packetOk p
  | .fetchTurn _ => true
  | .fetchData _ _ env => envOk env
  | .descriptorIssue _ _ => true
  | .descriptorStart key => decide (key.seq < 2 ^ 32)
  | .completionWrite key env => decide (key.seq < 2 ^ 32) && envOk env
  | .eventMessage key env => decide (key.seq < 2 ^ 32) && envOk env
  | .nop key => decide (key.seq < 2 ^ 32)
  | .move key env => decide (key.seq < 2 ^ 32) && envOk env
  | .fill key env => decide (key.seq < 2 ^ 32) && envOk env
  | .atomic key env => decide (key.seq < 2 ^ 32) && envOk env
  | .fence key => decide (key.seq < 2 ^ 32)
  | .fenceCompletion key => decide (key.seq < 2 ^ 32)
  | .flush key env => decide (key.seq < 2 ^ 32) && envOk env
  | .segSyncLoad key env => decide (key.seq < 2 ^ 32) && envOk env
  | .segSyncInvalidate key => decide (key.seq < 2 ^ 32)
  | .segSyncInstall key => decide (key.seq < 2 ^ 32)
  | .segSyncCompletion key => decide (key.seq < 2 ^ 32)
  | .publish key env => decide (key.seq < 2 ^ 32) && envOk env
  | .leaseRenew key => decide (key.seq < 2 ^ 32)
  | .recipeRun key env => decide (key.seq < 2 ^ 32) && envOk env
  | .recipeRunStart key env => decide (key.seq < 2 ^ 32) && envOk env
  | .expertBatch key env => decide (key.seq < 2 ^ 32) && envOk env
  | .expertSubBatchEnd key env => decide (key.seq < 2 ^ 32) && envOk env
  | .attnStep key env => decide (key.seq < 2 ^ 32) && envOk env
  | .attnSequenceEnd _ env => envOk env
  | .kvAppend key env => decide (key.seq < 2 ^ 32) && envOk env
  | .qpReset _ _ _ _ => true
  | .qpResetDone _ _ env => envOk env
  | .retire _ _ _ => true
  | .retireDone _ => true
  | .tileCheck key _ _ _ _ _ _ => decide (key.seq < 2 ^ 32)
  | .bitmapLineFill _ _ _ _ _ env => envOk env
  | .faultRecheck key _ => decide (key.seq < 2 ^ 32)
  | .segFaultResolveResume _ _ _ => true
  | .faultResumeDone _ _ env => envOk env
  | .segFaultResolveAbort _ _ _ => true
  | .faultTimeout _ _ => true
  | .segBmcInv _ _ _ => true
  | .granuleRead _ row _ => rowOk row
  | .rowWrite _ row start data => rowOk row && decide (start.val + data.length ≤ 256)
  | .stackPowerActive _ _ _ => true
  | .stackSelfRefresh _ _ _ => true
  | .stackPowerOff _ _ _ => true
  | .stackInterfaceErrors _ => true
  | .stackFatalReport _ => true
  | .slabFillDone _ => true
  | .clsFail _ _ _ => true
  | .clsReinstate _ _ _ => true
  | .backgroundTaskRow _ ecc => eccOk ecc
  | .clsRowRepair _ _ _ => true
  | .rowRepairDone _ ecc => eccOk ecc
  | .patrolScrubRow _ ecc => eccOk ecc
  | .bankAccess _ a b rest => (rest.isEmpty || a.isSome) && (a.toList ++ b.toList ++ rest).all fun r => bankReqOk r && plainReq r
  | .bankAtomic _ _ _ _ _ _ operand other => decide (operand.word.length = 32) && other.all bankReqOk
  | .bankOwnerWrite _ _ _ _ => true
  | .handoverGrant _ _ => true
  | .bankPowerOn _ _ _ _ => true
  | .bankPowerRetention _ _ _ _ => true
  | .bankPowerOff _ _ _ _ => true
  | .bankPowerTransitionDone _ _ => true
  | .bankClear _ _ _ _ => true
  | .bankClearDone _ _ => true
  | .bankRegionTestStart _ => true
  | .wholeBankTestDone _ _ _ => true
  | .decoderTile _ _ _ env => envOk env
  | .facetPass _ _ turn => envOk turn.env
  | .sweepEnd _ _ _ => true
  | .moverTransferComplete _ env => envOk env
  | .reduceContribution _ _ _ => true
  | .instanceComplete _ => true
  | .matmul _ => true
  | .act n => envOk n.env
  | .norm _ env => envOk env
  | .rope _ env => envOk env
  | .softmax n => envOk n.env
  | .topk n => envOk n.env
  | .quant n => envOk n.env
  | .reduce n => envOk n.env
  | .combine n => envOk n.env
  | .gather _ env => envOk env
  | .scatter _ env => envOk env
  | .attn _ env => envOk env
  | .expert _ env => envOk env
  | .sample _ env => envOk env
  | .send n => envOk n.env
  | .recv _ => true
  | .sendRetry _ _ => true
  | .recvTimeout _ => true
  | .rcpLoad _ _ => true
  | .rcpUnload _ _ => true
  | .rcpLoadDone env => envOk env
  | .expertAdmission env => envOk env
  | .spillRequest _ p env => packetOk p && envOk env
  | .spillAccept _ got => packetOk got.p && envOk got.env
  | .spillRefuse _ p => packetOk p
  | .spillTokenRow _ p => packetOk p
  | .spillResultRow _ got => packetOk got.p && envOk got.env
  | .spillGroupServe _ _ env => envOk env
  | .routedChunkEnd _ env => envOk env
  | .sharedPhaseAEnd env => envOk env
  | .expertClose env => envOk env
  | .regionCreate _ _ _ env => envOk env
  | .regionDelete _ _ _ env => envOk env
  | .regionBump _ _ _ env => envOk env
  | .leaseExpiry _ _ => true
  | .leaseRevoke _ _ _ => true
  | .leaseDrainComplete _ _ env => envOk env
  | .leaseFillComplete _ _ env => envOk env
  | .leaseRelease _ _ _ => true
  | .rdShared _ _ line ecc => lineOk line && eccOk ecc
  | .rdOwn _ _ line ecc => lineOk line && eccOk ecc
  | .upgrade _ _ line ecc => lineOk line && eccOk ecc
  | .rdCur _ _ line ecc => lineOk line && eccOk ecc
  | .wrInv _ _ line mask data ecc => lineOk line && decide (mask < 2 ^ 64) && decide (data.length = 64) && eccOk ecc
  | .evictDirty _ _ line _ data ecc => lineOk line && decide (data.length = 64) && eccOk ecc
  | .evictClean _ _ line ecc => lineOk line && eccOk ecc
  | .homeTransactionStart line ecc => lineOk line && eccOk ecc
  | .snpCur _ line => lineOk line
  | .snpShr _ line => lineOk line
  | .snpCln _ line => lineOk line
  | .snpInv _ line => lineOk line
  | .snpFwd _ line => lineOk line
  | .snpWb _ line => lineOk line
  | .backInv _ line => lineOk line
  | .rspI _ line _ ecc => lineOk line && eccOk ecc
  | .rspS _ line ecc => lineOk line && eccOk ecc
  | .rspE _ line ecc => lineOk line && eccOk ecc
  | .rspFwd _ line ecc => lineOk line && eccOk ecc
  | .cmp _ line => lineOk line
  | .data _ line => lineOk line
  | .dataWb _ line _ data ecc => lineOk line && decide (data.length = 64) && eccOk ecc
  | .lineCacheAccess _ line op => lineOk line && lineOpOk op
  | .lineCacheEviction _ line => lineOk line
  | .ilcenFlit f => flitOk f
  | .ilcenHello h => helloOk h
  | .snoopTimeout _ ecc => eccOk ecc
  | .agentRemove _ _ => true
  | .agentLose _ _ => true
  | .lossEventComplete ecc => eccOk ecc
  | .dirProbe _ _ _ => true
  | .lllConsume _ _ _ => true
  | .lllClearOverflow _ _ _ => true
  | .frameSlot _ => true
  | .dataFrame _ f => frameOk f
  | .idle _ f => frameOk f
  | .hello _ f => frameOk f
  | .helloTick _ => true
  | .timeReq _ f _ _ => frameOk f
  | .timeResp _ f _ => frameOk f
  | .timeExchangeTick _ _ => true
  | .nakResend _ => true
  | .replayTimeout _ => true
  | .errorWindowExceeded _ => true
  | .train _ _ p => prongOk p
  | .swap _ p => prongOk p
  | .swapAck _ p => prongOk p
  | .retrain _ p => prongOk p
  | .resume _ p => prongOk p
  | .down _ p => prongOk p
  | .retrainTimeout _ => true
  | .pauseTimeout _ => true
  | .laneFailure _ _ => true
  | .laneRetry _ _ _ => true
  | .laneSparePromotion _ _ => true
  | .linkTrainingDone _ _ _ _ => true
  | .linkTrainingTimeout _ => true
  | .alignLock _ => true
  | .syntoniseLock _ => true
  | .downRetry _ => true
  | .lnkCtlRetrain _ _ _ => true
  | .lnkCtlDiscard _ _ _ => true
  | .packetHeadRoute _ _ => true
  | .read _ p env => packetOk p && envOk env
  | .write _ p env => packetOk p && envOk env
  | .activation _ p => packetOk p
  | .readData _ p => packetOk p
  | .writeAck _ p => packetOk p
  | .actAck _ p => packetOk p
  | .dropNotice _ p => packetOk p
  | .regRead _ p => packetOk p
  | .regWrite _ p env => packetOk p && envOk env
  | .regResp _ p => packetOk p
  | .tagTimeout _ => true
  | .beat src => heartbeatOk src
  | .handover src => heartbeatOk src
  | .pathSilent _ => true
  | .paiGrant _ _ => true
  | .takeoverQuarantineEnd env => envOk env
  | .paiFence _ _ => true
  | .paiHandover _ _ => true
  | .quote _ _ => true
  | .quoteDone _ env => envOk env
  | .bind _ _ => true
  | .release _ _ => true
  | .svnCommit _ _ => true
  | .traceRecordWrite _ _ => true
  | .traceTrigger _ _ => true
  | .traceRearm _ _ => true
  | .lpeMark _ _ => true
  | .lpeSelWrite _ _ _ _ => true
  | .lpeCtrWrite _ _ _ _ => true
  | .globalStopRequest _ _ => true
  | .stopInNLow _ => true
  | .globalStopResume _ _ => true
  | .snapshot _ _ => true
  | .dump _ _ => true
  | .watchdogExpiry _ => true
  | .hangDumpDone _ => true
  | .watchdogRearm _ _ _ => true
  | .samplePreload value => decide (value < 2 ^ 16)
  | .extest value => decide (value < 2 ^ 16)
  | .jtagReg _ _ _ env => envOk env
  | .smbWrite _ _ offset _ _ env => decide (offset < 2 ^ 32) && envOk env
  | .smbAddr _ _ offset _ => decide (offset < 2 ^ 32)
  | .smbRead _ => true
  | .evtHeadWrite _ _ => true
  | .nodeFatalError _ _ => true
  | .segBmcInvDone _ => true
  | .refresh _ => true
  | .powerDownIdle _ => true
  | .reinstateRetrainDone _ _ => true
  | .bankRegionTestEnd _ _ => true
  | .sendRetryExpiry _ _ => true
  | .spillResultTimeout _ => true
  | .alignTimeout _ => true
  | .paramTimeout _ => true
  | .syntoniseTimeout _ => true
  | .tagQuarantineEnd _ => true
  | .dropNoticeHoldoffEnd _ => true
  | .np8HoldExpiry line => lineOk line
  | .spareDeskewDone _ => true
  | .equaliserAdaptationDone _ => true
  | .stackPowerTransitionDone _ => true
  | .powerOn => true
  | .perstNAssert => true
  | .pwrokLoss => true
  | .refclkLost => true
  | .refclkReturn => true
  | .claspCheck => true
  | .linkTrainingStep => true
  | .routeTableActivation => true
  | .ilcenBringup => true
  | .autoQueueCommit => true
  | .commitCheckEnd => true
  | .commitApply => true
  | .mgmtLivenessLoss => true
  | .instanceStart => true
  | .loop => true
  | .barrier => true
  | .spillAnswerTimeout => true
  | .ilcenCrcLimit => true
  | .ilcenTrained => true
  | .ilcenTrainingTimeout => true
  | .ilcenRetry => true
  | .ilcenParamTimeout => true
  | .lossWalkDone => true
  | .drainEnd => true
  | .heartbeatTick => true
  | .claimTick => true
  | .claimTimeout => true
  | .handoverDrainDone => true
  | .mirrorSend => true
  | .joinCopyComplete => true
  | .bindFillDone => true
  | .releaseDrainEnd => true
  | .releaseScrubDone => true
  | .resumeInstant => true
  | .snapshotInstant => true
  | .dumpDone => true
  | .tapReset => true
  | .idcode => true
  | .jtagStop => true
  | .jtagResume => true
  | .dumpRead => true
  | .bypass => true
  | .smbAlertResponse => true
  | .eventRecordWrite => true
  | .eventNotify => true
  | .svnCommitDone => true
  | .ntHighBitsChange => true

end Sys2Proof
end

