-- ==== Sys2Proof/Safety.lean ====
section
/-! DEFINITION. What counts as a well kept state and a safe step, and the words the statements are made of: the canonical form of every sparse map, a command that answers a next state, and what a next state leaves alone. -/

namespace Sys2Proof

open Machine

/-- Every sparse map of registers and of memory is in its canonical form: offsets, addresses and lines strictly rising, and nothing listed that an unlisted key reads as. -/
abbrev Canonical (s : State) : Prop :=
  mwf resetWord s.regs = true ∧ mwf shadowReset s.shadow = true ∧ mwf cellDefault s.pool.cells = true ∧
  mwf cellDefault s.banks.cells = true ∧ mwf writtenDefault s.banks.written = true

/-- The registers of a state are in their canonical form, so that a register reads what was last written to it. -/
abbrev RegsKept (s : State) : Prop := mwf resetWord s.regs = true

/-- A step that answers a next state. -/
def StepsOn (s : State) : Prop := ∃ t, step s = .next t

/-- A queue whose commands are all well formed. -/
def QueueOk (s : State) : Prop := ∀ c ∈ s.pending, wellFormed c = true

/-- A command answers a next state, and that state is as P says. -/
def Gives (r : Machine.Result) (P : State → Prop) : Prop := ∃ t, r = .next t ∧ P t

/-- Every register reads in t as in s, but for those at the offsets of a list. -/
def RegsBut (s t : State) (offs : List Nat) : Prop := ∀ off, off ∉ offs → t.reg off = s.reg off

/-- The event queue can take another record (R484). -/
abbrev EventRoom (s : State) : Prop := s.events.queue.length < 256

/-- One event record has joined the queue of s: its code, source class and index, with the next seq and the NT of s (Table ER-3, R484). -/
def Tells (s t : State) (code cls idx : Nat) : Prop :=
  ∃ r : EventRec, t.events.queue = s.events.queue ++ [r] ∧ r.code = code ∧ r.srcClass = cls ∧ r.srcIndex = idx ∧
    r.seq = s.events.nextSeq ∧ r.nt = s.nt

/-- One message has been sent, over Ilcen in a flit or held there (R332), and nothing else has left the NP32. -/
def Sends (s t : State) (m : OutMsg) : Prop := t.out = (s.emit m).out ∧ t.ilc = (s.emit m).ilc

/-- The contents of the stacks and of the Setting banks are the same. -/
def MemorySame (s t : State) : Prop :=
  t.pool.cells = s.pool.cells ∧ t.banks.cells = s.banks.cells ∧ t.banks.written = s.banks.written

/-- What a reset other than a warm one leaves: every register but CFG_BOOT_STATUS at its reset value, step 1 and the cause in that one, nothing staged and no commit, the fuses as they were, and every other part but the pins, the ports, the session and the time as after power-on (Table SU-1). -/
def Cleared (s t : State) (cause : Nat) : Prop :=
  RegsBut State.reset t [Reg.CFG_BOOT_STATUS] ∧ t.doneStep = 1 ∧ t.fld Reg.CFG_BOOT_STATUS Fld.CFG_BOOT_STATUS_reset_cause = cause ∧
  t.shadow = [] ∧ t.commit = none ∧ t.sec = { Sec.reset with sessionsUsed := s.sec.sessionsUsed, svnMin := s.sec.svnMin } ∧
  t = { State.reset with pending := s.pending, out := s.out, regs := t.regs, sec := t.sec, pins := t.pins, ports := t.ports, session := t.session, fresh := t.fresh, time := t.time }

/-- What a cold reset leaves of time, and of THERM_N: the TIME count goes on, NT is set to it, and THERM_N is released (Table SU-1). -/
def ColdTime (s t : State) : Prop := t.time = ⟨s.time.count, s.time.count, 0, 0⟩ ∧ t.pins.thermN = true

/-- A reset leaves no commit pending, nothing staged, and every RWS field at its reset value (R45). -/
def Dropped (r : Machine.Result) : Prop := Gives r fun t => t.commit = none ∧ t.shadow = [] ∧ ∀ off, rwsPart off (t.reg off) = shadowReset off

/-- An access has been logged in GLB_CFG_VIOL, with its offset, kind and path and the count raised, and nothing else has changed (R501, Table RM-9). -/
def Logged (s t : State) (path : Path) (kind off : Nat) : Prop :=
  t.fld Reg.GLB_CFG_VIOL Fld.GLB_CFG_VIOL_offset = off ∧ t.fld Reg.GLB_CFG_VIOL Fld.GLB_CFG_VIOL_kind = kind ∧
  t.fld Reg.GLB_CFG_VIOL Fld.GLB_CFG_VIOL_path = pathCode path ∧
  t.fld Reg.GLB_CFG_VIOL Fld.GLB_CFG_VIOL_count = min (s.fld Reg.GLB_CFG_VIOL Fld.GLB_CFG_VIOL_count + 1) 65535 ∧
  t = { s with regs := t.regs } ∧ RegsBut s t [Reg.GLB_CFG_VIOL]

/-- A level of temperature after a reading: entered at its threshold, left 5 °C below it, in units of 0.125 °C (R27). -/
def LevelAfter (now : Bool) (temp : BitVec 12) (deg : Nat) : Bool :=
  if now then decide (((deg : Int) - 5) * 8 < signedOf 12 temp.toNat) else decide ((deg : Int) * 8 ≤ signedOf 12 temp.toNat)

/-- A management core has not beaten within the last 1 ms of NT (R502). -/
abbrev Silent (nt : Nat) (beat : Option Nat) : Prop :=
  (match beat with
  | none => true
  | some b => decide (b + 1000000 ≤ nt)) = true

/-- Every link is DISABLED or DOWN, and Ilcen is DOWN. -/
abbrev LinksDown (s : State) : Prop :=
  ((List.range 32).all fun n => s.linkState n == lsDisabled || s.linkState n == lsDown) = true ∧ s.ilcState = 0

/-- Start-up has stopped with a code: nothing else changes than the two fields, the idle lanes and SMBus (R47, Table SU-7). -/
def Stopped (s t : State) (code : Nat) : Prop :=
  t.on Reg.CFG_BOOT_STATUS Fld.CFG_BOOT_STATUS_failed = true ∧ t.fld Reg.CFG_BOOT_STATUS Fld.CFG_BOOT_STATUS_fail_code = code ∧
  t.doneStep = s.doneStep ∧ t.boot.idle = true ∧ t.boot.smbus = true

/-- CFG_COMMIT_RESULT shows a token, a state and a code, and no other register has changed (Table SU-10). -/
def CommitReads (s t : State) (token state code : Nat) : Prop :=
  t.fld Reg.CFG_COMMIT_RESULT Fld.CFG_COMMIT_RESULT_token = token ∧ t.fld Reg.CFG_COMMIT_RESULT Fld.CFG_COMMIT_RESULT_state = state ∧
  t.fld Reg.CFG_COMMIT_RESULT Fld.CFG_COMMIT_RESULT_code = code ∧ t = { s with regs := t.regs, commit := t.commit } ∧
  RegsBut s t [Reg.CFG_COMMIT_RESULT]

/-- The input channels of the router are in their canonical form. -/
abbrev InputsKept (s : State) : Prop := mwf inqDefault s.router.inputs = true

/-- A packet that the NP32 originates, as it stands at the local port: epoch, dateline level and hops set there, no output chosen, nothing sent (R379, R381, R384). -/
def atLocalPort (s : State) (port : Nat) (p : Packet) : InPkt :=
  let p := { p with epoch := s.fld Reg.RTE_CTL Fld.RTE_CTL_inj_epoch, dl := 0, hops := s.fld Reg.RTE_CTL Fld.RTE_CTL_hop_limit }
  { hdr := { p with payload := [] }, got := packetBytes p, out := none, dl := 0, sent := 0, started := false, deferred := false
    closeNt := none, fills := [], taken := 0, port := port }

/-- A packet has joined the local port behind those of its class. -/
def Injects (s t : State) (port : Nat) (p : Packet) : Prop :=
  t.inq (inKey 32 (2 * p.mclass)) = s.inq (inKey 32 (2 * p.mclass)) ++ [atLocalPort s port p]

/-- Loupe neither counts events nor captures records, so that its registers and buffers stand still (R458, Table LP-3). -/
abbrev Unwatched (s : State) : Prop := s.on Reg.LPE_CTL Fld.LPE_CTL_enable = false ∧ s.captureState = 0

/-- A descriptor that has ended well with a result: its units are let go, and its completion is due, with status 0x1002 where a stall was resumed, 0x1001 where a granule was rebuilt, and 0 otherwise (Table QU-7). -/
def succeeds (s : State) (d : Desc) (result : Nat) : State :=
  (s.dropUnits d.key).setDesc { d with phase := .ended, status := if d.resumed then 0x1002 else if d.rebuilt then 0x1001 else 0, result := result, detail := 0 }

/-- A descriptor that has ended with another status and a detail: its units are let go, and its completion is due. -/
def fails (s : State) (d : Desc) (status detail : Nat) : State :=
  (s.dropUnits d.key).setDesc { d with phase := .ended, status := status, result := 0, detail := detail }

/-- A region action that its home has carried out with result 0 and a version: it waits no more, and SHR_RGN_CTL.busy is 0 (R303, Table SH-2). -/
def regionDone (s : State) (q : Quad) (version : Nat) : State :=
  State.setFld { s.regionResult q 0 (some version) with coh := { s.coh with actions := s.coh.actions.filter fun x => x.q != q.val } }
    (Reg.SHR_RGN_CTL q) Fld.SHR_RGN_CTL_busy 0

/-- The directory lookups of a FLUSH counted, beside those of the lines that its home has served (R314). -/
def flushCounted (s : State) (d : Desc) (e : SegEnt) (served : List Nat) : State :=
  s.countFlush (e.paOf (addrOf (d.u 8 8)) / 64) ((e.paOf (addrOf (d.u 8 8)) + d.u 16 8 - 1) / 64 + 1 - e.paOf (addrOf (d.u 8 8)) / 64) served

/-- Where the descriptors of a fetch stand: the byte after the ring's base at the seq's slot (R70). -/
def ringSlot (s : State) (q j seq : Nat) : Nat := addrOf (s.reg (Reg.QUE_QP_SQ_BASE q j)).toNat + seq % 2 ^ s.ringLog q j * 64

/-- Every word of the Setting banks reads as before, but for those of a list, as bank index and word. -/
def BanksBut (s t : State) (words : List (Nat × Nat)) : Prop := ∀ bi k, k < 8192 → (bi, k) ∉ words → t.bankWord bi k = s.bankWord bi k

/-- No line of a bank has been written, so that the whole bank reads as zero (R163, R164). -/
def BankEmpty (t : State) (bi : Nat) : Prop := ∀ k, k < 8192 → t.lineWritten bi k = false

/-- A refusal of a bank access: bank, owner code and kind stand in BNK_FAULT, its count has risen, and nothing else has changed but the events (R156). -/
def BankRefused (s t : State) (st : Setting) (bank tag kind : Nat) : Prop :=
  t.fld (Reg.BNK_FAULT (st / 8) (st % 8)) Fld.BNK_FAULT_bank = bank % 64 ∧ t.fld (Reg.BNK_FAULT (st / 8) (st % 8)) Fld.BNK_FAULT_tag = tag ∧
  t.fld (Reg.BNK_FAULT (st / 8) (st % 8)) Fld.BNK_FAULT_kind = kind ∧
  t.fld (Reg.BNK_FAULT (st / 8) (st % 8)) Fld.BNK_FAULT_count = satAdd Fld.BNK_FAULT_count.width (s.fld (Reg.BNK_FAULT (st / 8) (st % 8)) Fld.BNK_FAULT_count) 1 ∧
  t = { s with regs := t.regs, events := t.events } ∧ RegsBut s t [Reg.BNK_FAULT (st / 8) (st % 8), Reg.EVT_PENDING, Reg.EVT_CNT]

/-- The home row of a batch entry can be used: its window holds it and its bank serves (R156, R221). -/
abbrev HomeOk (s : State) (r : Run) (sl : Slot) (b : Nat) : Prop :=
  (s.windowVerdict (homePlace r.block sl b).1 (homePlace r.block sl b).2.1 (homePlace r.block sl b).2.2 sl.rowLen).1 = .ok

/-- The home row of a batch entry as FP32 words (R176, R221). -/
def homeRow (s : State) (r : Run) (sl : Slot) (b : Nat) : List Nat :=
  rowWords sl.fmt sl.width (s.readWindow (homePlace r.block sl b).1 (homePlace r.block sl b).2.1 (homePlace r.block sl b).2.2 sl.rowLen)

/-- The state after the vector unit of a batch entry's home Facet has loaded a row of the entry (R202). -/
def rowLoaded (s : State) (r : Run) (sl : Slot) (b : Nat) : State := s.useVector ((homePlace r.block sl b).1 * 8 + (homePlace r.block sl b).2.1)

/-- The first source, the second source and the destination of an instance's operation. -/
def src0 (r : Run) (i : Inst) : Slot := r.recipe.slot (r.opOf i).src0
def src1 (r : Run) (i : Inst) : Slot := r.recipe.slot (r.opOf i).src1
def dstOf (r : Run) (i : Inst) : Slot := r.recipe.slot (r.opOf i).dst

/-- An instance of an operation whose last batch row is due. -/
abbrev LastRow (s : State) (n code : Nat) (r : Run) (i : Inst) (d : Desc) : Prop := s.instOf n code = some (r, i, d) ∧ d.batch = i.row + 1

/-- The destination is a home row that can be used, with ordinary rounding. -/
abbrev HomeDst (s : State) (r : Run) (i : Inst) : Prop := (r.opOf i).sr = false ∧ (dstOf r i).dist ≠ 1 ∧ HomeOk s r (dstOf r i) i.row

/-- The last batch row of an instance has been worked: the instance is done. -/
def lastDone (s : State) (i : Inst) : State := s.setInst { i with row := i.row + 1, begun := true, done := true }

/-- A row of FP32 words has been converted to the destination's format and written in place, and the instance is done (R175, R229). -/
def rowDone (s : State) (r : Run) (i : Inst) (d : Desc) (ws : List Nat) : State :=
  lastDone ((s.writeWindow (homePlace r.block (dstOf r i) i.row).1 (homePlace r.block (dstOf r i) i.row).2.1 (homePlace r.block (dstOf r i) i.row).2.2
    (wordsRow (dstOf r i).fmt [] false ws)).noteWork d.key false []) i

/-- A TENSOR row of a slot can be read over Ilcen: its binding is in space 1, and the link is ACTIVE (R71, R220). -/
abbrev CompanionRow (s : State) (r : Run) (sl : Slot) : Prop := slotSpace r.block sl = 1 ∧ s.ilcActive = true ∧ 0 < sl.tensorRow

/-- The state after such a row, at a row number, has been asked for. -/
def askedRow (s : State) (r : Run) (i : Inst) (d : Desc) (sl : Slot) (row : Nat) : State :=
  (s.emit (.ilcenRead (slotAddr r.block sl i.outer i.inner + row * sl.pitch) sl.tensorRow)).noteWork d.key false []

/-- The binding block of a run in companion memory: its bindings and its batch entries (Table RC-2). -/
def blockOf (d : Desc) (env : Env) : List Byte := padTo (512 + 32 * d.batch) env.ext

/-- The state after the binding block has been asked for over Ilcen. -/
def blockAsked (s : State) (k : DescKey) (d : Desc) : State :=
  (s.emit (.ilcenRead (addrOf (d.u 16 8)) (512 + 32 * d.batch))).noteWork k false []

/-- The activation packet of the row of an instance's first source, where one packet holds it (R237, Table RC-6). -/
def activationPacket (s : State) (r : Run) (i : Inst) (d : Desc) : Packet :=
  s.originate d.client (bindWord r.block ((r.opOf i).p 8 1) % 2 ^ 16) opActivation 2 ((r.opOf i).p 9 1) 0 0
    (activationBytes ((r.opOf i).p 10 2) i.row (layerId d (r.opOf i) i.layer) 0 (src0 r i).fmtCode (src0 r i).rowLen
      (slice (s.readWindow (homePlace r.block (src0 r i) i.row).1 (homePlace r.block (src0 r i) i.row).2.1 (homePlace r.block (src0 r i) i.row).2.2 (src0 r i).rowLen) 0 (src0 r i).rowLen))

/-- The row block of the next K tile of a context, and the places that its parts take in the stacks: the bytes of row after row in the order of the tile's slot (R193, R199, R222, Table FA-2). -/
def tileRowBlock (m : MatShape) (hold : Bool) (j : FacetJob) : Nat := j.blocks.getD (tileAt m hold j.loaded).1 0
def tilePlaces (r : Run) (i : Inst) (m : MatShape) (st rb t : Nat) : List (Nat × Nat) :=
  tileRanges m (shardPieces (slotAddr r.block m.w i.outer i.inner) st) rb t

/-- That tile read at the stack port by the stream decoder of a Setting, granule by granule (R193, R222). -/
def tileFetch (s : State) (env : Env) (st : Setting) (r : Run) (i : Inst) (d : Desc) (m : MatShape) (rb t : Nat) : Doing × List Byte :=
  (Doing.start s env).gather (tilePlaces r i m st rb t) fun w a => w.fetch env d.key (decoderReq st) .stack 0 a 256 0

/-- The masks in the bytes of such a tile (Table FA-2). -/
def tileMaskBytes (m : MatShape) (rb t : Nat) (tile : List Byte) : List Byte := slice tile (tileMasks m rb t) (m.rowsOf rb * (tileParts m 0 t).2.1.2)

/-- The quadrant of a stack. -/
def quadOf (n : Setting) : Quad := ⟨n.val / 8, by omega⟩

/-- A stack has been marked failed with a cause, and its group, which keeps its other failed stacks, is in a state (R140, Table PM-6). -/
def StackFails (s t : State) (n : Setting) (cause state : Nat) : Prop :=
  t.stackFailed n = true ∧ t.fld (portStatus n) Fld.STK_PORT_STATUS_cause = cause ∧ t.fld (portStatus n) Fld.STK_PORT_STATUS_state = 4 ∧ t.groupState (n / 8) = state ∧
  (∀ j, j < 8 → j ≠ n.val % 8 → t.posFailed (n / 8) j = s.posFailed (n / 8) j) ∧
  RegsBut s t [portStatus n, Reg.CLS_STATUS (n / 8), Reg.EVT_PENDING, Reg.EVT_CNT] ∧
  t = { s with
    regs := t.regs, events := t.events
    pool := { s.pool with powerDown := s.pool.powerDown.filter (· != n.val), moving := s.pool.moving.filter (·.1 != n.val) } }

/-- The row that the scrub engine of a group reads next (R147). -/
def scrubRow (s : State) (q : Quad) : Nat := s.fld (Reg.CLS_SCRUB q) Fld.CLS_SCRUB_row

/-- A message of the mesh taken from it. -/
def offMesh (s : State) (m : MeshMsg) : State := { s with coh := { s.coh with msgs := s.coh.msgs.erase m } }

/-- A line cache can take an access to a line: no access to it is outstanding, and no failed bank refuses it (Table CO-3). -/
abbrev CacheFree (s : State) (st : Setting) (line : Nat) : Prop :=
  s.workStopped = false ∧ (s.coh.misses.any fun x => x.st == st.val && x.line == line) = false ∧ s.lcRefused st line = none

/-- What a request asks for: who, the operation and the line. -/
structure Asked where
  who : Who
  op : HomeOp
  line : Nat

/-- A request of a line cache is the first of its kind on the mesh, and the home of its line is free to carry it out at once (R327). -/
abbrev AtFreeHome (s : State) (r : CohReq) (q : Nat) (a : Asked) : Prop :=
  RegsKept s ∧ s.workStopped = false ∧ r.who = a.who ∧ r.op = a.op ∧ r.line = a.line ∧
  (s.coh.msgs.find? fun m => match m with
    | .req x => x.who == r.who && x.op == r.op && x.line == r.line
    | _ => false) = some (.req r) ∧
  (offMesh s (.req r)).homeOf r.line = some q ∧ (offMesh s (.req r)).homeReady q r.line (writesStack r.op) = true ∧
  (s.coh.waiting.any fun w => w.line == r.line) = false ∧ s.coh.lossWaits.contains (r.line, [whoCode r.who, r.txn]) = false

/-- The state in which its home carries it out: the request off the mesh, the directory looked up. -/
def atHome (s : State) (r : CohReq) (q : Nat) : State := (offMesh s (.req r)).countLookup q

/-- A requester made the owner of a line, as the entry of a number (Table CO-2). -/
def ownedBy (s : State) (q line born : Nat) (who : Who) : State :=
  { s.putDir q (ownerEntry line born who) with coh := { (s.putDir q (ownerEntry line born who)).coh with born := born + 1 } }

/-- A grant of a state with data sent to a requester, with the NP8 hold that it starts (R331, Table CO-6). -/
def granted (s : State) (r : CohReq) (state : LineState) (data : Option (List Byte)) : State :=
  (s.reply r ⟨state, data, 0, false, []⟩).startHold r ⟨state, data, 0, false, []⟩

/-- An eviction of a line cache is the first of its kind on the mesh, and the home of its line is free to carry it out at once. -/
abbrev EvictingAt (s : State) (st : Setting) (line : Nat) (d : Option (List Byte)) (q : Nat) : Prop :=
  RegsKept s ∧ s.workStopped = false ∧
  (s.coh.msgs.find? fun m => match m with
    | .evict st' l x => st' == st.val && l == line && x.isSome == d.isSome
    | _ => false) = some (.evict st line d) ∧
  s.txnOf line = none ∧ (offMesh s (.evict st line d)).homeOf line = some q ∧ (offMesh s (.evict st line d)).homeReady q line d.isSome = true ∧
  (s.coh.waiting.any fun w => w.line == line) = false

/-- Whether a line of a line cache is dirty. -/
def dirtyLine (l : LcLine) : Bool := l.state == .m || l.state == .o

/-- A snoop of a line that a line cache holds is on the mesh, and the line's bank serves. -/
abbrev SnoopDue (s : State) (st : Setting) (line : Nat) (kind : SnoopKind) (l : LcLine) : Prop :=
  s.workStopped = false ∧ s.coh.msgs.contains (.snoop st line kind) = true ∧ s.cached st line = some l ∧ s.on (bankReg l.bank) Fld.BNK_BANK_failed = false

/-- The snoop answered: the line kept in a state, dropped where that is I, or left as it is. -/
def snoopedTo (s : State) (st : Setting) (line : Nat) (kind : SnoopKind) (keep : Option LineState) (a : Answer) : State :=
  let t : State := match keep with
    | none => s
    | some .i => s.dropLine st line
    | some x => s.setCache st ((s.cache st).map fun (l : LcLine) => if l.line == line then { l with state := x } else l)
  { t with coh := { t.coh with msgs := s.coh.msgs.erase (.snoop st line kind) ++ [.answer st line a] } }

/-- The answer of a line cache is the one message on the mesh, and the open transaction of its line waits for it. -/
abbrev AnswerDue (s : State) (st : Setting) (line : Nat) (a : Answer) (t : Txn) : Prop :=
  s.workStopped = false ∧ s.coh.msgs = [.answer st line a] ∧ s.txnOf line = some t ∧ (t.waiting.any fun w => w.1 == st.val) = true

/-- The answer taken: the transaction is as given, ends where nothing more is awaited, and snoops that were kept back may go. -/
def answeredBy (s : State) (st : Setting) (line : Nat) (a : Answer) (ecc : EccList) (t : Txn) : State :=
  (((offMesh s (.answer st line a)).setTxn t).tryFinish ecc line).sendAllHeld

/-- The Ilcen link has entered a state, at the NT of s and not trained in it, and told so in an event (Table CO-8). -/
def IlcenEnters (s t : State) (new : Nat) : Prop :=
  t.ilcState = new ∧ RegsBut s t [Reg.ILC_STATUS 0, Reg.EVT_PENDING, Reg.EVT_CNT] ∧ (EventRoom s → Tells s t 0x0802 7 0) ∧
  t = { s with regs := t.regs, events := t.events, ilc := { s.ilc with since := s.nt, trained := false } }

/-- The flit that Ilcen expects, taken: its number, and the snoop credits that it returns (R332, R333). -/
def flitTaken (s : State) (f : IlcFlit) : State :=
  { s with ilc := { s.ilc with
      expect := (s.ilc.expect + 1) % 4096, acked := f.ack % 4096
      snpCredits := s.ilc.snpCredits.set f.agent.val (s.ilc.snpCredits.getD f.agent.val 0 + f.snpCredits) } }

/-- No entry of the directory names a holder. -/
abbrev HoldsNoLine (s : State) (h : Nat) : Prop := ∀ q, q < 4 → ∀ e ∈ s.coh.dir.getD q [], h ∉ s.holders e ∧ e.owner ≠ some h

/-- A slot of an ACTIVE link that may carry new data: no replay runs and the CORE clocks go (R347). -/
abbrev SlotDue (s : State) (n : LinkId) : Prop :=
  s.linkState n = 6 ∧ s.linkIdle n = false ∧ (s.link n).slots + 1 < 65536 ∧ (s.link n).replayAt = none ∧ s.coreStopped = false

/-- A link has entered a state from another that is not ACTIVE: its NT is noted and the change told (R363). -/
def LinkEnters (s : State) (n : LinkId) (new : Nat) (t : State) : Prop :=
  t.linkState n = new ∧ RegsBut s t [Reg.LNK_STATUS n, Reg.EVT_PENDING, Reg.EVT_CNT] ∧ (EventRoom s → Tells s t 0x0901 8 n) ∧
  t = { s.setLink n { s.link n with since := s.nt } with regs := t.regs, events := t.events }

/-- A link that was not ACTIVE has gone DOWN, counted, with nothing of a swap, a retrain or a replay left (Table LK-7). -/
def LinkDown (s : State) (n : LinkId) (t : State) : Prop :=
  t.linkState n = 9 ∧ t.fld (Reg.LNK_CNT2 n) Fld.LNK_CNT2_downs = min (s.fld (Reg.LNK_CNT2 n) Fld.LNK_CNT2_downs + 1) 65535 ∧
  RegsBut s t [Reg.LNK_STATUS n, Reg.LNK_CNT2 n, Reg.EVT_PENDING, Reg.EVT_CNT] ∧ (EventRoom s → Tells s t 0x0901 8 n) ∧
  t = { s.setLink n { s.link n with since := s.nt, swap := none, laneFaults := [], fails := [], resumeSent := false, resumeGot := none, replayAt := none } with regs := t.regs, events := t.events }

/-- A TIME_REQ answered: a TIME_RESP with its index, the departure of the answer and the arrival of the request (R349, R367). -/
def answeredTime (s : State) (n : LinkId) (f : Frame) (arr dep : Fin 65536) : State :=
  s.sendFrame n (ctrlFrame 3 ([BitVec.ofNat 8 (leAt f.payload 0 1)] ++ leBytes 7 0 ++ leBytes 8 s.nt ++ leBytes 2 dep ++ leBytes 6 0 ++ leBytes 8 s.nt ++ leBytes 2 arr))

/-- A TIME_RESP recorded: departure and arrival of the request, departure and arrival of the answer, in units of 2^-16 ns (R367). -/
def exchangeDone (s : State) (n : LinkId) (f : Frame) (arr : Fin 65536) (t1 : Nat) : State :=
  s.setLink n { s.link n with
    asked := none
    exchanges := (s.link n).exchanges ++ [(t1, leAt f.payload 24 8 * 65536 + leAt f.payload 32 2, leAt f.payload 8 8 * 65536 + leAt f.payload 16 2, s.nt * 65536 + arr.val)] }

/-- Delay and offset of a link: those of its best exchange, under its asymmetry (R367). -/
def measuredTime (s : State) (n : LinkId) : Int × Int :=
  delayAndOffset (bestExchange (s.link n).exchanges) (signedOf 16 (s.fld (Reg.LNK_TIME_CFG n) Fld.LNK_TIME_CFG_asym_ps))

/-- Both given in the registers of the link (Table LK-8). -/
def timeMeasured (s : State) (n : LinkId) : State :=
  (s.setFld (Reg.LNK_TIME_DELAY n) Fld.LNK_TIME_DELAY_delay_ps (ofSigned 32 (measuredTime s n).1)).setReg (Reg.LNK_TIME_OFS n) (BitVec.ofNat 64 (ofSigned 64 (measuredTime s n).2))

/-- The head at the front of an input channel of a link waits for its route, in a router that is on and has a valid table (R378). -/
abbrev HeadDue (s : State) (port : Fin 32) (vc : Vc) (x : InPkt) (rest : List InPkt) : Prop :=
  s.inq (inKey port vc) = x :: rest ∧ x.out = none ∧ s.coreStopped = false ∧ s.boot.routerOn = true ∧ s.on Reg.RTE_CTL Fld.RTE_CTL_enable = true ∧
  (s.verValid 0 = true ∨ s.verValid 1 = true)

/-- A packet passes the checks of the endpoint: its shape, its check word and its client's incarnation (R373, R377, R393). -/
abbrev Welcome (s : State) (p : Packet) : Prop :=
  s.workStopped = false ∧ p.opcode ≠ opSpill ∧ p.opcode ≠ opDoorbell ∧ p.opcode ≠ opRegRead ∧ p.opcode ≠ opRegWrite ∧
  wellShaped p = true ∧ p.pcrc = payloadCrc p.payload ∧ p.inc = s.fld (clientReg p.client) Fld.QUE_CLIENT_incarnation

/-- A request passes them, and its client is not policed (R407). -/
abbrev Accepted (s : State) (p : Packet) (opcode : Nat) : Prop :=
  Welcome s p ∧ p.opcode = opcode ∧ s.fld (Reg.QUE_POL_RATE (p.client % 4) (p.client / 4)) Fld.QUE_POL_RATE_rate_mbs = 0

/-- An answer passes them and matches an outstanding request of its kind (R391). -/
abbrev Answered (s : State) (p : Packet) (opcode request : Nat) (g : Tag) : Prop :=
  Welcome s p ∧ p.opcode = opcode ∧ s.matchTag p = some g ∧ g.pkt.opcode = request

/-- A write of SEC_CTL asks for one action alone (Table SE-10). -/
abbrev OnlySec (value : Word) (f : Field) : Prop :=
  ∀ g ∈ [Fld.SEC_CTL_quote, Fld.SEC_CTL_bind, Fld.SEC_CTL_release, Fld.SEC_CTL_svn_commit], g ≠ f → getF value g = 0

/-- Bytes 0 to 383 of the quote of a nonce in the session in use (Table SE-4). -/
def quoteOf (s : State) (nonce cert : List Byte) : List Byte := s.quoteBody nonce (s.sec.session.getD 0) (cert.take 65536).length s.fresh

/-- A quote at its end with a result: Hallmark is free, and a session without quotes left is closed (R440, R441). -/
def quoteEnds (s : State) (code : Nat) : State :=
  { s.setFld Reg.SEC_STATUS Fld.SEC_STATUS_result code with sec := { s.sec with job := none, session := if s.quotesLeft = 0 then none else s.sec.session } }

/-- The keys of a bind record installed, the stacks zero-written, and its tenant loaded (R445). -/
def boundWith (s : State) (r : List Byte) : State :=
  ({ s with sec := { s.sec with key := some ⟨leAt r 0 32, leAt r 32 32⟩ } } : State).fillStacks.loadTenant r

/-- The whole sections of a global dump that fit its area (R476). -/
def dumpSections (s : State) : List Section := fitting s.globalSections (s.fld Reg.LPE_DUMP_LEN Fld.LPE_DUMP_LEN_length - 64)

/-- The watchdog of a quadrant has expired: it is marked, no longer armed, its quadrant hangs, and a hang dump has begun where there is an area (R477). -/
def hungQuad (s : State) (q : Quad) : State :=
  let t : State := { s.setReg (Reg.LPE_WDOG q) (setF (setF (s.reg (Reg.LPE_WDOG q)) Fld.LPE_WDOG_expired 1) Fld.LPE_WDOG_dumping 1) with
    loupe := { s.loupe with wdogArmed := s.loupe.wdogArmed.set q false, hung := q.val :: s.loupe.hung.filter (· != q.val) } }
  if s.dumpBase = 0 then t
  else { t.countWrap Reg.LPE_DUMP_CTL Fld.LPE_DUMP_CTL_seq 1 with loupe := { t.loupe with dumpNt := t.loupe.dumpNt.set q s.nt } }

/-- The bytes of an SMBus READ answer before its check code: count 9, status and value (Table RM-4). -/
def smbAnswer (refused : Bool) (v : Word) : List Byte := [9, if refused then 2 else 0] ++ leBytes 8 v.toNat

/-- The length of a link's gate list: the durations of its entries and of its rest (R399). -/
def cycleOf (s : State) (n : LinkId) : Nat := (s.gateList n).foldl (fun a e => a + e.1) 0

/-- The windows of the home Settings of an ATTN_STEP taken into use: what stood there is overwritten (R295). -/
def windowsUsed (s : State) (env : Env) (d : Desc) : Doing :=
  (seqHomes d.seqList d.seqCount).foldl (fun (w : Doing) st => (List.range 8).foldl (fun (w : Doing) f => w.scribble st f 0 139264) w) (Doing.start s env)

/-- The lanes of the first token's router row of an instance, of a width (R258). -/
def routerLanes (s : State) (r : Run) (i : Inst) (width : Nat) : List Nat :=
  (List.range width).map fun l => leAt (s.readWindow (homePlace r.block (src1 r i) 0).1 (homePlace r.block (src1 r i) 0).2.1 (homePlace r.block (src1 r i) 0).2.2 (4 * width)) (4 * l) 4

/-- The expert index of an EXPERT instance: its table entry (R249). -/
def expertIndex (r : Run) (i : Inst) : Nat := (r.opOf i).p 10 2 + i.layer

/-- The choices of that token under an entry (R258). -/
def routerChoices (s : State) (r : Run) (i : Inst) (e : List Byte) : List (Option (Nat × Nat)) :=
  gateChoices e ((r.opOf i).p 8 1) (routerLanes s r i (2 * (r.opOf i).p 8 1))

end Sys2Proof
end

