-- ==== Sys2Proof/Certificates/Slice0/Obligations.lean ====
section
/-! DEFINITION. The statements for the provers: what the commands of each chapter leave in the state, what they leave alone, and what every step keeps. -/

open Sys2Proof Sys2Proof.Machine

/-- For every command c and state s, a step of s with c at the front of its queue is exec of c on s with the queue's rest. -/
def Obligations.StepRunsTheFrontCommand : Prop :=
  ∀ (c : Instr) (rest : List Instr) (s : State), step { s with pending := c :: rest } = exec c { s with pending := rest }

/-- With an empty queue and the TIME PLL locked, a step raises the TIME count by 1 and NT by 1, or by 0 or 2 while a correction is slewed in; with the PLL not locked it changes nothing. What a step does on an empty queue is the model's choice (assumption log 3). -/
def Obligations.EmptyQueueLetsTimePass : Prop :=
  (∀ (s : State), s.pending = [] → s.on Reg.CLK_STATUS Fld.CLK_STATUS_time_lock = false → step s = .next s) ∧
  (∀ (s : State), s.pending = [] → s.on Reg.CLK_STATUS Fld.CLK_STATUS_time_lock = true →
    Gives (step s) fun t =>
      t.time.count = s.time.count + 1 ∧
      (s.time.slew = 0 → t.time.nt = s.time.nt + 1 ∧ t.time.slew = 0) ∧
      (s.time.slew ≠ 0 → s.time.slewPhase < 9999 → t.time.nt = s.time.nt + 1 ∧ t.time.slew = s.time.slew) ∧
      (0 < s.time.slew → 9999 ≤ s.time.slewPhase → t.time.nt = s.time.nt + 2 ∧ t.time.slew = s.time.slew - 1) ∧
      (s.time.slew < 0 → 9999 ≤ s.time.slewPhase → t.time.nt = s.time.nt ∧ t.time.slew = s.time.slew + 1) ∧
      t = { s with regs := t.regs, time := t.time, loupe := { s.loupe with wdog := t.loupe.wdog } } ∧
      RegsBut s t ((List.range 4).flatMap fun q => (List.range 3).map fun w => Reg.LPE_FIX q w))

/-- State.reset meets the invariant of CanonicalIsKept; its queue is empty, CFG_BOOT_STATUS.done_step reads 1, every register reads its reset value and no commit is pending. -/
def Obligations.ResetIsCanonical : Prop :=
  Canonical State.reset ∧ State.reset.pending = [] ∧ State.reset.doneStep = 1 ∧
  (∀ off, State.reset.reg off = resetWord off) ∧ (∀ off, State.reset.shadowReg off = shadowReset off) ∧ State.reset.commit = none

/-- For every state whose sparse maps of registers, shadow copy, stack bytes, bank bytes and written lines are canonical, a step that answers a next state answers one whose maps are canonical: equal contents are equal data, and a register or byte reads what was last written to it. -/
def Obligations.CanonicalIsKept : Prop := ∀ (s t : State), Canonical s → step s = .next t → Canonical t

/-- Every command of the opcode table leaves the queue of waiting commands as it was, so a step takes away exactly the command at the front. -/
def Obligations.CommandsLeaveTheQueue : Prop := ∀ (c : Instr) (s t : State), exec c s = .next t → t.pending = s.pending

/-- No command is refused, in any state; a well-formed command answers a next state; the one fault is noSuchRow, of a GRANULE_READ or ROW_WRITE whose row lies at or past 2^31, beyond the granule slots of a stack. -/
def Obligations.WellFormedCommandsStepOn : Prop :=
  (∀ (c : Instr) (s : State), wellFormed c = true → ∃ t, exec c s = .next t) ∧
  (∀ (c : Instr) (s : State) (r : Refusal), exec c s ≠ .refused r) ∧
  (∀ (n : Setting) (row : Nat) (ecc : EccResult) (s : State), 2 ^ 31 ≤ row → exec (.granuleRead n row ecc) s = .fault .noSuchRow) ∧
  (∀ (n : Setting) (row : Nat) (start : Fin 256) (data : List Byte) (s : State), 2 ^ 31 ≤ row → exec (.rowWrite n row start data) s = .fault .noSuchRow)

/-- POWER_ON, PERST_N_ASSERT, PWROK_LOSS with PERST_N high, VDD_CORE_UNDERVOLTAGE, DIE_OVER_TEMPERATURE and CFG_RESET_COLD complete: every register but CFG_BOOT_STATUS reads its reset value, the shadow copy holds no staged value, no commit is pending, the stacks and banks are empty, the fuse contents stay, CFG_BOOT_STATUS shows step 1 and the cause of the reset, and the TIME count survives every reset but power-on, with NT set to it. -/
def Obligations.ColdResets : Prop :=
  (∀ (s : State), Gives (exec .powerOn s) fun t => Cleared s t 0 ∧ t.time = ⟨0, 0, 0, 0⟩ ∧ t.pins.pwrok = true) ∧
  (∀ (s : State), Gives (exec .perstNAssert s) fun t => Cleared s t 1 ∧ ColdTime s t ∧ t.pins = { s.pins with perstN := false, thermN := true }) ∧
  (∀ (s : State), s.pins.perstN = true → Gives (exec .pwrokLoss s) fun t => Cleared s t 2 ∧ ColdTime s t ∧ t.pins = { s.pins with pwrok := false, thermN := true }) ∧
  (∀ (q : Quad) (s : State), Gives (exec (.vddCoreUndervoltage q) s) fun t => Cleared s t 3 ∧ ColdTime s t ∧ t.pins = { s.pins with thermN := true }) ∧
  (∀ (q : Quad) (s : State), Gives (exec (.dieOverTemperature q) s) fun t => Cleared s t 4 ∧ ColdTime s t ∧ t.pins = { s.pins with thermN := true }) ∧
  (∀ (path : Path) (value : Word) (s : State), Gives (exec (.cfgResetCold path value) s) fun t => Cleared s t 5 ∧ ColdTime s t ∧ t.pins = { s.pins with thermN := true })

/-- A write of CFG_RESET with warm and cold both 1 ends with reset cause 5, the cold one, whichever of the two rows names it. Every reset command of every type leaves no commit pending, no value staged, and none of the staged values applied: the RWS fields of every register read their reset values. -/
def Obligations.ResetsCancelCommits : Prop :=
  (∀ (path : Path) (value : Word) (s : State), getF value Fld.CFG_RESET_cold = 1 →
    Gives (exec (.cfgResetWarm path value) s) fun t => t.fld Reg.CFG_BOOT_STATUS Fld.CFG_BOOT_STATUS_reset_cause = 5 ∧ t.boot.warm = false) ∧
  (∀ (path : Path) (value : Word) (s : State), Gives (exec (.cfgResetCold path value) s) fun t =>
    t.fld Reg.CFG_BOOT_STATUS Fld.CFG_BOOT_STATUS_reset_cause = 5 ∧ t.boot.warm = false) ∧
  (∀ (s : State), Dropped (exec .powerOn s)) ∧ (∀ (s : State), Dropped (exec .perstNAssert s)) ∧
  (∀ (s : State), s.pins.perstN = true → Dropped (exec .pwrokLoss s)) ∧ (∀ (q : Quad) (s : State), Dropped (exec (.vddCoreUndervoltage q) s)) ∧
  (∀ (q : Quad) (s : State), Dropped (exec (.dieOverTemperature q) s)) ∧ (∀ (path : Path) (value : Word) (s : State), Dropped (exec (.cfgResetCold path value) s)) ∧
  (∀ (path : Path) (value : Word) (s : State), Dropped (exec (.cfgResetWarm path value) s))

/-- CFG_RESET_WARM without the cold bit completes with cause 6 at step 1: NT and the TIME count go on, CLK_STATUS survives, the stack contents survive if keep_pool is written as 1 with the Bezel OPEN and are gone otherwise, the bank contents survive, and their written bits only with the Bezel OPEN. PERST_N_DEASSERT samples the straps and changes nothing but the pins; PERST_N already high, it changes nothing. -/
def Obligations.WarmReset : Prop :=
  (∀ (path : Path) (value : Word) (s : State), RegsKept s → getF value Fld.CFG_RESET_cold = 0 →
    Gives (exec (.cfgResetWarm path value) s) fun t =>
      t.doneStep = 1 ∧ t.fld Reg.CFG_BOOT_STATUS Fld.CFG_BOOT_STATUS_reset_cause = 6 ∧ t.boot.warm = true ∧ t.time = s.time ∧
      t.reg Reg.CLK_STATUS = s.reg Reg.CLK_STATUS ∧ t.commit = none ∧
      (getF value Fld.CFG_RESET_keep_pool = 1 → s.bezel = 0 → t.boot.keep = true ∧ t.pool.cells = s.pool.cells) ∧
      (getF value Fld.CFG_RESET_keep_pool = 0 ∨ s.bezel ≠ 0 → t.boot.keep = false ∧ t.pool = Pool.reset) ∧
      t.banks.cells = s.banks.cells ∧ (s.bezel = 0 → t.banks.written = s.banks.written) ∧ (s.bezel ≠ 0 → t.banks.written = []) ∧
      t.sec = { Sec.reset with sessionsUsed := s.sec.sessionsUsed, svnMin := s.sec.svnMin } ∧ t.pins = s.pins ∧ t.que = Que.reset) ∧
  (∀ (a b : Bool) (s : State), s.pins.perstN = false → exec (.perstNDeassert a b) s =
    .next { s with pins := { s.pins with pwrok := true, perstN := true, strapA := a, strapB := b } }) ∧
  (∀ (a b : Bool) (s : State), s.pins.perstN = true → exec (.perstNDeassert a b) s = .next s)

/-- THERMAL_SAMPLE and STACK_SENSOR_READ complete: the reading stands in its register, each level of the quadrant or stack is what LevelAfter gives for its threshold, the refresh interval of a stack halves from 85 °C on, THERM_N goes low when a critical level is entered and is otherwise as it was, a newly entered level of a die raises a thermal event where the queue has room, and nothing changes but the registers named, the levels, THERM_N and the event queue. -/
def Obligations.TemperatureLevels : Prop :=
  (∀ (q : Quad) (temp : BitVec 12) (s : State), RegsKept s → s.clocks.length = 4 →
    Gives (exec (.thermalSample q temp) s) fun t =>
      t.fld (Reg.PWR_SENSE q) Fld.PWR_SENSE_die_temp = temp.toNat ∧
      (t.clock q).warn = LevelAfter (s.clock q).warn temp (s.fld Reg.PWR_THERM_CFG Fld.PWR_THERM_CFG_die_warn) ∧
      (t.clock q).throttled = LevelAfter (s.clock q).throttled temp (s.fld Reg.PWR_THERM_CFG Fld.PWR_THERM_CFG_die_throttle) ∧
      (t.clock q).crit = LevelAfter (s.clock q).crit temp (s.fld Reg.PWR_THERM_CFG Fld.PWR_THERM_CFG_die_crit) ∧
      t.pins = { s.pins with thermN := s.pins.thermN && !((t.clock q).crit && !(s.clock q).crit) } ∧
      ((t.clock q).warn = true → (s.clock q).warn = false → EventRoom s →
        ∃ r ∈ t.events.queue, r.code = 0x0103 ∧ r.srcClass = 10 ∧ r.srcIndex = q.val ∧ r.nt = s.nt) ∧
      (∀ p : Quad, p ≠ q → t.clock p = s.clock p) ∧
      t = { s with regs := t.regs, clocks := t.clocks, pins := t.pins, events := t.events } ∧
      RegsBut s t [Reg.PWR_SENSE q, Reg.EVT_PENDING, Reg.EVT_CNT]) ∧
  (∀ (n : Setting) (temp : BitVec 12) (s : State), RegsKept s → s.stackTherm.length = 32 →
    Gives (exec (.stackSensorRead n temp) s) fun t =>
      t.fld (portStatus n) Fld.STK_PORT_STATUS_temp = temp.toNat ∧
      t.fld (portStatus n) Fld.STK_PORT_STATUS_refresh_2x = bit (decide (85 * 8 ≤ signedOf 12 temp.toNat)) ∧
      t.on (portStatus n) Fld.STK_PORT_STATUS_throttled =
        LevelAfter (s.on (portStatus n) Fld.STK_PORT_STATUS_throttled) temp (s.fld (Reg.STK_CTL (n / 8)) Fld.STK_CTL_throttle_c) ∧
      t.stackTherm = s.stackTherm.set n
        ⟨LevelAfter (s.stackTherm.getD n ⟨false, false⟩).warn temp (s.fld Reg.PWR_THERM_CFG Fld.PWR_THERM_CFG_stk_warn),
         LevelAfter (s.stackTherm.getD n ⟨false, false⟩).crit temp (s.fld Reg.PWR_THERM_CFG Fld.PWR_THERM_CFG_stk_crit)⟩ ∧
      t.pins = { s.pins with thermN := s.pins.thermN &&
        !((t.stackTherm.getD n ⟨false, false⟩).crit && !(s.stackTherm.getD n ⟨false, false⟩).crit) } ∧
      t = { s with regs := t.regs, stackTherm := t.stackTherm, pins := t.pins, events := t.events } ∧
      RegsBut s t [portStatus n, Reg.PWR_SENSE (n / 8), Reg.EVT_PENDING, Reg.EVT_CNT])

/-- RAIL_OUT_OF_TOLERANCE sets its rail's bit and raises a power event while PWROK is high, and does nothing while it is low. REFCLK_LOST sets ref_lost and holdover and raises a clock event; REFCLK_RETURN ends the holdover, keeps ref_lost and NT, and raises one; with no holdover it changes nothing. DROOP_TRIP below nominal less the threshold, with the sensors enabled and no stretch under way, stretches the clock of that quadrant alone, counts it, and keeps the lowest reading. STRETCH_END ends a stretch when no sensor sees the sag, and otherwise changes nothing. -/
def Obligations.RailsAndStretches : Prop :=
  (∀ (rail : Fin 8) (s : State), RegsKept s → s.pins.pwrok = true → EventRoom s →
    Gives (exec (.railOutOfTolerance rail) s) fun t =>
      t.fld Reg.PWR_SENSE_STATUS Fld.PWR_SENSE_STATUS_rail_out = s.fld Reg.PWR_SENSE_STATUS Fld.PWR_SENSE_STATUS_rail_out ||| 2 ^ rail.val ∧
      Tells s t 0x0101 10 4 ∧ t = { s with regs := t.regs, events := t.events } ∧ RegsBut s t [Reg.PWR_SENSE_STATUS, Reg.EVT_PENDING]) ∧
  (∀ (rail : Fin 8) (s : State), s.pins.pwrok = false → exec (.railOutOfTolerance rail) s = .next s) ∧
  (∀ (s : State), RegsKept s → EventRoom s →
    Gives (exec .refclkLost s) fun t =>
      t.on Reg.CLK_STATUS Fld.CLK_STATUS_ref_lost = true ∧ t.on Reg.CLK_STATUS Fld.CLK_STATUS_holdover = true ∧ Tells s t 0x0102 10 4 ∧
      t = { s with regs := t.regs, events := t.events } ∧ RegsBut s t [Reg.CLK_STATUS, Reg.EVT_PENDING]) ∧
  (∀ (s : State), RegsKept s → EventRoom s → s.on Reg.CLK_STATUS Fld.CLK_STATUS_holdover = true →
    Gives (exec .refclkReturn s) fun t =>
      t.on Reg.CLK_STATUS Fld.CLK_STATUS_holdover = false ∧
      t.on Reg.CLK_STATUS Fld.CLK_STATUS_ref_lost = s.on Reg.CLK_STATUS Fld.CLK_STATUS_ref_lost ∧ t.time = s.time ∧ Tells s t 0x0102 10 4 ∧
      t = { s with regs := t.regs, events := t.events } ∧ RegsBut s t [Reg.CLK_STATUS, Reg.EVT_PENDING]) ∧
  (∀ (s : State), s.on Reg.CLK_STATUS Fld.CLK_STATUS_holdover = false → exec .refclkReturn s = .next s) ∧
  (∀ (q : Quad) (mv : Nat) (s : State), RegsKept s → Unwatched s → s.clocks.length = 4 → (s.clock q).stretching = false →
    s.fld (Reg.PWR_DROOP_CFG q) Fld.PWR_DROOP_CFG_enable = 1 → mv + s.fld (Reg.PWR_DROOP_CFG q) Fld.PWR_DROOP_CFG_threshold_mv < 750 →
    Gives (exec (.droopTrip q mv) s) fun t =>
      (t.clock q).stretching = true ∧ (t.clock q).throttled = (s.clock q).throttled ∧ (∀ p : Quad, p ≠ q → t.clock p = s.clock p) ∧
      t.fld (Reg.PWR_STRETCH_CNT q) Fld.PWR_STRETCH_CNT_count =
        (s.fld (Reg.PWR_STRETCH_CNT q) Fld.PWR_STRETCH_CNT_count + 1) % 2 ^ Fld.PWR_STRETCH_CNT_count.width ∧
      t.fld (Reg.PWR_SENSE q) Fld.PWR_SENSE_vcore_min_mv = min mv (s.fld (Reg.PWR_SENSE q) Fld.PWR_SENSE_vcore_min_mv) ∧
      t = { s with regs := t.regs, clocks := t.clocks, events := t.events } ∧
      RegsBut s t [Reg.PWR_SENSE q, Reg.PWR_STRETCH_CNT q, Reg.EVT_PENDING, Reg.EVT_CNT]) ∧
  (∀ (q : Quad) (s : State), s.clocks.length = 4 → (s.clock q).stretching = true →
    exec (.stretchEnd q false) s = .next { s with clocks := s.clocks.set q { s.clock q with stretching := false } }) ∧
  (∀ (q : Quad) (sag : Bool) (s : State), sag = true ∨ (s.clock q).stretching = false → exec (.stretchEnd q sag) s = .next s)

/-- BACKGROUND_RECALIBRATION takes the next of its 16,506 units and counts a pass after the last, raising an event for a unit at the end of its range; before recalibration runs it changes nothing. PWR_SENSE_READ of 8 bytes answers the register, with a free mean voltage, and then sets vcore_min_mv to 0xFFF. a read of another size answers 0 and is logged. MGMT_BEAT from firmware notes NT for each core whose beat bit is 1 and restarts the heartbeat; from any other path it is logged with kind 9 and does nothing else. MGMT_LIVENESS_LOSS stops the heartbeat once neither core has beaten for 1 ms. -/
def Obligations.SensorsAndManagement : Prop :=
  (∀ (atLimit : Bool) (s : State), RegsKept s → EventRoom s → s.boot.recal = true →
    Gives (exec (.backgroundRecalibration atLimit) s) fun t =>
      t.boot = { s.boot with recalNext := (s.boot.recalNext + 1) % 16506 } ∧
      t.fld Reg.PWR_CAL_STATUS Fld.PWR_CAL_STATUS_passes =
        (s.fld Reg.PWR_CAL_STATUS Fld.PWR_CAL_STATUS_passes + (if (s.boot.recalNext + 1) % 16506 = 0 then 1 else 0)) % 2 ^ Fld.PWR_CAL_STATUS_passes.width ∧
      (atLimit = true → Tells s t 0x0105 10 4) ∧ (atLimit = false → t.events = s.events) ∧
      t = { s with regs := t.regs, boot := t.boot, events := t.events } ∧ RegsBut s t [Reg.PWR_CAL_STATUS, Reg.EVT_PENDING]) ∧
  (∀ (atLimit : Bool) (s : State), s.boot.recal = false → exec (.backgroundRecalibration atLimit) s = .next s) ∧
  (∀ (path : Path) (q : Quad) (s : State), RegsKept s →
    Gives (exec (.pwrSenseRead path ⟨8, q⟩) s) fun t =>
      Sends s t (.regRead path (Reg.PWR_SENSE q) ((s.beforeRead (Reg.PWR_SENSE q)).reg (Reg.PWR_SENSE q))) ∧ t.fld (Reg.PWR_SENSE q) Fld.PWR_SENSE_vcore_min_mv = 0xFFF ∧
      t.fld (Reg.PWR_SENSE q) Fld.PWR_SENSE_die_temp = s.fld (Reg.PWR_SENSE q) Fld.PWR_SENSE_die_temp ∧
      t = { s with regs := t.regs, out := t.out, fresh := s.fresh + 1 } ∧ RegsBut s t [Reg.PWR_SENSE q]) ∧
  (∀ (path : Path) (size : Nat) (q : Quad) (s : State), RegsKept s → size ≠ 8 →
    Gives (exec (.pwrSenseRead path ⟨size, q⟩) s) fun t =>
      Sends s t (.regRead path (Reg.PWR_SENSE q) 0) ∧ Logged s { t with out := s.out } path 1 (Reg.PWR_SENSE q)) ∧
  (∀ (value : Word) (s : State), exec (.mgmtBeat .firmware value) s = .next { s with mgmt :=
    ⟨if getF value Fld.GLB_MGMT_LIVE_beat0 = 1 then some s.nt else s.mgmt.beat0, if getF value Fld.GLB_MGMT_LIVE_beat1 = 1 then some s.nt else s.mgmt.beat1,
     s.mgmt.stopped && !(getF value Fld.GLB_MGMT_LIVE_beat0 == 1 || getF value Fld.GLB_MGMT_LIVE_beat1 == 1)⟩ }) ∧
  (∀ (path : Path) (value : Word) (s : State), RegsKept s → path ≠ .firmware →
    Gives (exec (.mgmtBeat path value) s) fun t => Logged s t path 9 Reg.GLB_MGMT_LIVE) ∧
  (∀ (s : State), Silent s.nt s.mgmt.beat0 → Silent s.nt s.mgmt.beat1 →
    exec .mgmtLivenessLoss s = .next { s with mgmt := { s.mgmt with stopped := true } }) ∧
  (∀ (s : State), ¬ Silent s.nt s.mgmt.beat0 ∨ ¬ Silent s.nt s.mgmt.beat1 → exec .mgmtLivenessLoss s = .next s)

/-- With step k-1 the last one done, start-up not stopped and PWROK and PERST_N high, the command that ends step k sets done_step to k and does what Table SU-2 says: BOOT_ROM sets the lock bits and turns SMBus on; FIRMWARE_IMAGE_CHECK runs slot A, else slot B, else stops with code 3; ANALOGUE_CALIBRATION gives the failed lanes role 0 and starts background recalibration; STACK_TRAINING with no failure makes every stack active; CLASP_CHECK with no failed stack lets the links and lanes go and, without keep, leaves the stacks zero; LINK_TRAINING_STEP waits for every enabled link; ROUTE_TABLE_ACTIVATION puts the routes in service; ILCEN_BRINGUP; ATTESTATION makes the queue enables due. A command of another step changes nothing. -/
def Obligations.StartupStepsComplete : Prop :=
  (∀ (s : State), RegsKept s → s.atStep 2 = true →
    Gives (exec (.bootRom true true) s) fun t =>
      t.doneStep = 2 ∧ t.fld Reg.CLK_STATUS Fld.CLK_STATUS_core_lock = 15 ∧ t.fld Reg.CLK_STATUS Fld.CLK_STATUS_mclk_lock = 15 ∧
      t.on Reg.CLK_STATUS Fld.CLK_STATUS_ctl_lock = true ∧ t.on Reg.CLK_STATUS Fld.CLK_STATUS_time_lock = true ∧
      t = { s with regs := t.regs, boot := { s.boot with smbus := true } } ∧ RegsBut s t [Reg.CLK_STATUS, Reg.CFG_BOOT_STATUS]) ∧
  (∀ (a b : List Byte) (s : State), RegsKept s → s.atStep 3 = true →
    Gives (exec (.firmwareImageCheck a b) s) fun t =>
      (s.fwAccepted a = true → t.doneStep = 3 ∧ t.fld Reg.CFG_BOOT_STATUS Fld.CFG_BOOT_STATUS_fw_slot = 0 ∧
        t.boot = { s.boot with fwSvn := leAt a 8 4, fwDigest := (Config.sha384 (a.take (256 + leAt a 12 4))).toNat } ∧
        t.fld Reg.SEC_STATUS Fld.SEC_STATUS_fw_svn = leAt a 8 4 ∧ RegsBut s t [Reg.SEC_STATUS, Reg.CFG_BOOT_STATUS]) ∧
      (s.fwAccepted a = false → s.fwAccepted b = true → t.doneStep = 3 ∧ t.fld Reg.CFG_BOOT_STATUS Fld.CFG_BOOT_STATUS_fw_slot = 1 ∧
        t.boot = { s.boot with fwSvn := leAt b 8 4, fwDigest := (Config.sha384 (b.take (256 + leAt b 12 4))).toNat } ∧
        t.fld Reg.SEC_STATUS Fld.SEC_STATUS_fw_svn = leAt b 8 4 ∧ RegsBut s t [Reg.SEC_STATUS, Reg.CFG_BOOT_STATUS]) ∧
      (s.fwAccepted a = false → s.fwAccepted b = false → t = s.stopBoot 3)) ∧
  (∀ (lanes : List (LinkId × Fin 3)) (s : State), RegsKept s → s.atStep 5 = true →
    Gives (exec (.analogueCalibration lanes) s) fun t =>
      t.doneStep = 5 ∧ (∀ l ∈ lanes, t.laneRole l.1 l.2 = 0) ∧ t = { s with regs := t.regs, boot := { s.boot with recal := true, laneFailed := lanes.map fun (l : LinkId × Fin 3) => (l.1.val, l.2.val) } } ∧
      RegsBut s t (Reg.CFG_BOOT_STATUS :: lanes.map fun l => Reg.LNK_LANE l.1 l.2)) ∧
  (∀ (failed : BitVec 32) (s : State), RegsKept s → s.atStep 6 = true → failed = 0 → ((List.range 32).any s.stackFailed) = false →
    Gives (exec (.stackTraining failed) s) fun t =>
      t.doneStep = 6 ∧ (∀ n : Setting, t.fld (portStatus n) Fld.STK_PORT_STATUS_state = 1) ∧ t = { s with regs := t.regs } ∧
      RegsBut s t (Reg.CFG_BOOT_STATUS :: (List.range 32).map portStatus)) ∧
  (∀ (s : State), RegsKept s → Unwatched s → s.atStep 7 = true → ((List.range 32).any s.stackFailed) = false →
    ((List.range 4).any fun q => s.groupState q == 5) = false →
    Gives (exec .claspCheck s) fun t =>
      t.doneStep = 7 ∧ t.boot = { s.boot with idle := false } ∧ t.fld Reg.CFG_BOOT_STATUS Fld.CFG_BOOT_STATUS_stk_failed = 0 ∧
      t.on Reg.CFG_BOOT_STATUS Fld.CFG_BOOT_STATUS_pool_kept = s.boot.keep ∧
      (s.boot.keep = false → t.pool.cells = []) ∧ (s.boot.keep = true → t.pool = s.pool) ∧ t.banks = s.banks) ∧
  (∀ (s : State), RegsKept s → s.atStep 8 = true →
    ((List.range 32).all fun n => !s.on (Reg.LNK_CTL n) Fld.LNK_CTL_enable || decide (lsActive ≤ s.linkState n)) = true →
    Gives (exec .linkTrainingStep s) fun t => t.doneStep = 8 ∧ t = { s with regs := t.regs } ∧ RegsBut s t [Reg.CFG_BOOT_STATUS]) ∧
  (∀ (s : State), RegsKept s → s.atStep 9 = true → s.on (Reg.ILC_CTL 0) Fld.ILC_CTL_enable = false →
    Gives (exec .routeTableActivation s) fun t =>
      t.doneStep = 9 ∧ t = { s with regs := t.regs, boot := { s.boot with routerOn := true } } ∧ RegsBut s t [Reg.CFG_BOOT_STATUS]) ∧
  (∀ (s : State), RegsKept s → s.atStep 10 = true →
    Gives (exec .ilcenBringup s) fun t => t.doneStep = 10 ∧ t = { s with regs := t.regs } ∧ RegsBut s t [Reg.CFG_BOOT_STATUS]) ∧
  (∀ (s : State), RegsKept s → s.atStep 11 = true →
    Gives (exec (.attestation true) s) fun t =>
      t.doneStep = 11 ∧ t = { s with regs := t.regs, boot := { s.boot with autoAt := some ((s.nt + 999) / 1000 * 1000) } } ∧ RegsBut s t [Reg.CFG_BOOT_STATUS]) ∧
  (∀ (c : Instr) (s : State),
    c ∈ [Instr.bootRom true true, .analogueCalibration [], .stackTraining 0, .claspCheck, .linkTrainingStep, .routeTableActivation, .ilcenBringup, .attestation true] →
    s.on Reg.CFG_BOOT_STATUS Fld.CFG_BOOT_STATUS_failed = true ∨ s.doneStep = 0 ∨ 11 ≤ s.doneStep ∨ s.pins.pwrok = false ∨ s.pins.perstN = false → exec c s = .next s)

/-- BOOT_ROM with a PLL or the fuses failing stops with code 1 or 2, CLASP_CHECK with two failed stacks in one group with code 4, ATTESTATION failing with code 5: failed and the code are set, the lanes are held idle and SMBus answers; done_step keeps. CONFIGURATION_IMAGE whose check fails still ends step 4: the result and the record stand in CFG_IMAGE_STATUS, the factory defaults enable Ilcen and the home agents and set cfg_defaulted, and the PWR block locks. An image that passes ends step 4 with result 0 and its version. (Hypotheses on the links keep them from changing state at the stop.) -/
def Obligations.StartupStops : Prop :=
  (∀ (fuse : Bool) (s : State), RegsKept s → s.atStep 2 = true → LinksDown s →
    Gives (exec (.bootRom false fuse) s) fun t => Stopped s t 1) ∧
  (∀ (s : State), RegsKept s → s.atStep 2 = true → LinksDown s → Gives (exec (.bootRom true false) s) fun t => Stopped s t 2) ∧
  (∀ (s : State), RegsKept s → s.atStep 11 = true → LinksDown s → Gives (exec (.attestation false) s) fun t => Stopped s t 5) ∧
  (∀ (q : Quad) (s : State), RegsKept s → s.atStep 7 = true → LinksDown s → 2 ≤ s.failedIn q →
    Gives (exec .claspCheck s) fun t => Stopped s t 4) ∧
  (∀ (image : List Byte) (code index : Nat) (s : State), Canonical s → s.atStep 4 = true → checkImage image = .error (code, index) →
    Gives (exec (.configurationImage image) s) fun t =>
      t.doneStep = 4 ∧ t.fld Reg.CFG_IMAGE_STATUS Fld.CFG_IMAGE_STATUS_result = code % 256 ∧
      t.fld Reg.CFG_IMAGE_STATUS Fld.CFG_IMAGE_STATUS_record_index = index % 65536 ∧ t.boot.defaulted = true ∧
      t.on (Reg.ILC_CTL 0) Fld.ILC_CTL_enable = true ∧ (∀ q : Quad, t.on (Reg.COH_CTL q) Fld.COH_CTL_enable = true) ∧
      t.on Reg.PWR_SENSE_STATUS Fld.PWR_SENSE_STATUS_therm_locked = true ∧
      t = { s with regs := t.regs, shadow := t.shadow, boot := t.boot }) ∧
  (∀ (image : List Byte) (s : State), Canonical s → s.atStep 4 = true → checkImage image = .ok [] → s.commit = none →
    faultOffset (s.brokenRules s) = none →
    Gives (exec (.configurationImage image) s) fun t =>
      t.doneStep = 4 ∧ t.fld Reg.CFG_IMAGE_STATUS Fld.CFG_IMAGE_STATUS_result = 0 ∧
      t.fld Reg.CFG_IMAGE_STATUS Fld.CFG_IMAGE_STATUS_image_version = leAt image 8 4 ∧ t.fld Reg.CFG_COMMIT_RESULT Fld.CFG_COMMIT_RESULT_token = 0 ∧
      t.fld Reg.CFG_COMMIT_RESULT Fld.CFG_COMMIT_RESULT_state = 2 ∧ t.boot.defaulted = s.boot.defaulted ∧
      t.on Reg.PWR_SENSE_STATUS Fld.PWR_SENSE_STATUS_therm_locked = true)

/-- After step 4 and with no commit pending, GLB_COMMIT_NEXT_US with something staged makes a commit pending with its token, state 1; GLB_COMMIT_AT_INSTANT does so when CFG_COMMIT_AT lies from NT + 2,000 + 2n to NT + 1,000,000,000 ns and is refused as TOO_SOON (2) or TOO_LATE (3) outside; with nothing staged both end at once as EMPTY (4), applied. While a commit is pending a further write sets busy_refused and is logged with kind 3. COMMIT_CANCEL before the instant ends the commit with CANCELLED (5) and keeps what is staged; COMMIT_DISCARD with none pending leaves nothing staged and the live copy as it was; with one pending, and no cancel, it is logged. -/
def Obligations.CommitRequests : Prop :=
  (∀ (path : Path) (value : Word) (s : State), RegsKept s → s.commit = none → 4 ≤ s.doneStep → s.stagedOffsets ≠ [] →
    Gives (exec (.glbCommitNextUs path value) s) fun t =>
      CommitReads s t (getF value Fld.GLB_COMMIT_token) 1 0 ∧
      t.commit.map (fun c => (c.atInstant, c.writtenNt, c.n, c.checked)) = some (false, s.nt, s.stagedOffsets.length, false)) ∧
  (∀ (path : Path) (value : Word) (s : State), RegsKept s → s.commit = none → 4 ≤ s.doneStep → s.stagedOffsets ≠ [] →
    s.nt + 1000 + 2 * s.stagedOffsets.length + 1000 ≤ (s.reg Reg.CFG_COMMIT_AT).toNat → (s.reg Reg.CFG_COMMIT_AT).toNat ≤ s.nt + 1000000000 →
    Gives (exec (.glbCommitAtInstant path value) s) fun t =>
      CommitReads s t (getF value Fld.GLB_COMMIT_token) 1 0 ∧
      t.commit.map (fun c => (c.atInstant, c.instant, c.n, c.checked)) = some (true, (s.reg Reg.CFG_COMMIT_AT).toNat, s.stagedOffsets.length, false)) ∧
  (∀ (path : Path) (value : Word) (s : State), RegsKept s → s.commit = none → 4 ≤ s.doneStep → s.stagedOffsets ≠ [] →
    (s.reg Reg.CFG_COMMIT_AT).toNat < s.nt + 1000 + 2 * s.stagedOffsets.length + 1000 →
    Gives (exec (.glbCommitAtInstant path value) s) fun t => CommitReads s t (getF value Fld.GLB_COMMIT_token) 3 2 ∧ t.commit = none) ∧
  (∀ (path : Path) (value : Word) (s : State), RegsKept s → s.commit = none → 4 ≤ s.doneStep → s.stagedOffsets ≠ [] →
    s.nt + 1000 + 2 * s.stagedOffsets.length + 1000 ≤ (s.reg Reg.CFG_COMMIT_AT).toNat → s.nt + 1000000000 < (s.reg Reg.CFG_COMMIT_AT).toNat →
    Gives (exec (.glbCommitAtInstant path value) s) fun t => CommitReads s t (getF value Fld.GLB_COMMIT_token) 3 3 ∧ t.commit = none) ∧
  (∀ (path : Path) (value : Word) (s : State), RegsKept s → s.commit = none → 4 ≤ s.doneStep → s.stagedOffsets = [] →
    Gives (exec (.glbCommitNextUs path value) s) fun t => CommitReads s t (getF value Fld.GLB_COMMIT_token) 2 4 ∧ t.commit = none) ∧
  (∀ (path : Path) (value : Word) (s : State), RegsKept s → s.commit ≠ none →
    Gives (exec (.glbCommitNextUs path value) s) fun t =>
      t.fld Reg.CFG_COMMIT_RESULT Fld.CFG_COMMIT_RESULT_busy_refused = 1 ∧ t.fld Reg.GLB_CFG_VIOL Fld.GLB_CFG_VIOL_kind = 3 ∧
      t = { s with regs := t.regs } ∧ RegsBut s t [Reg.CFG_COMMIT_RESULT, Reg.GLB_CFG_VIOL]) ∧
  (∀ (path : Path) (value : Word) (s : State), RegsKept s → s.cancellable = true → getF value Fld.CFG_COMMIT_CTL_discard = 0 →
    Gives (exec (.commitCancel path value) s) fun t =>
      t.fld Reg.CFG_COMMIT_RESULT Fld.CFG_COMMIT_RESULT_state = 3 ∧ t.fld Reg.CFG_COMMIT_RESULT Fld.CFG_COMMIT_RESULT_code = 5 ∧
      t = { s with regs := t.regs, commit := none } ∧ RegsBut s t [Reg.CFG_COMMIT_RESULT]) ∧
  (∀ (path : Path) (value : Word) (s : State), Canonical s → s.commit = none →
    Gives (exec (.commitDiscard path value) s) fun t => t.stagedOffsets = [] ∧ t = { s with shadow := t.shadow }) ∧
  (∀ (path : Path) (value : Word) (s : State), RegsKept s → s.commit ≠ none → getF value Fld.CFG_COMMIT_CTL_cancel = 0 →
    Gives (exec (.commitDiscard path value) s) fun t => Logged s t path 3 Reg.CFG_COMMIT_CTL)

/-- COMMIT_CHECK_END of a check that passes fixes the instant of a next-µs commit as the first multiple of 1,000 ns of NT at or after it; of one that fails, it ends the commit with RULE (1) and the offset, with the shadow kept. COMMIT_APPLY before the instant changes nothing; at it, under a global stop, the commit fails with HALTED (6); otherwise it is applied: state 2, code 0, the instant in CFG_COMMIT_APPLIED_NT, no commit pending. (The last is stated of SHR_CTL, whose change has no further effect.) AUTO_QUEUE_COMMIT with no enable staged is done. -/
def Obligations.CommitEnds : Prop :=
  (∀ (c : Commit) (s : State), s.commit = some c → c.checked = false → s.commitFault (decide (s.doneStep < 11)) = none →
    Gives (exec .commitCheckEnd s) fun t =>
      t = { s with commit := t.commit } ∧
      (c.atInstant = true → t.commit = some { c with checked := true, early := decide (s.doneStep < 11) }) ∧
      (c.atInstant = false → t.commit = some { c with checked := true, instant := (s.nt + 999) / 1000 * 1000, early := decide (s.doneStep < 11) })) ∧
  (∀ (c : Commit) (off : Nat) (s : State), RegsKept s → s.commit = some c → c.checked = false → s.commitFault (decide (s.doneStep < 11)) = some off →
    Gives (exec .commitCheckEnd s) fun t =>
      t.fld Reg.CFG_COMMIT_RESULT Fld.CFG_COMMIT_RESULT_state = 3 ∧ t.fld Reg.CFG_COMMIT_RESULT Fld.CFG_COMMIT_RESULT_code = 1 ∧
      t.fld Reg.CFG_COMMIT_FAULT Fld.CFG_COMMIT_FAULT_offset = off % 2 ^ Fld.CFG_COMMIT_FAULT_offset.width ∧
      t = { s with regs := t.regs, commit := none } ∧ RegsBut s t [Reg.CFG_COMMIT_RESULT, Reg.CFG_COMMIT_FAULT]) ∧
  (∀ (c : Commit) (s : State), RegsKept s → s.commit = some c → c.checked = true → c.instant ≤ s.nt → s.stopped = true →
    Gives (exec .commitApply s) fun t =>
      t.fld Reg.CFG_COMMIT_RESULT Fld.CFG_COMMIT_RESULT_state = 3 ∧ t.fld Reg.CFG_COMMIT_RESULT Fld.CFG_COMMIT_RESULT_code = 6 ∧
      t = { s with regs := t.regs, commit := none } ∧ RegsBut s t [Reg.CFG_COMMIT_RESULT]) ∧
  (∀ (c : Commit) (s : State), Canonical s → s.commit = some c → c.checked = true → c.instant ≤ s.nt → s.stopped = false → c.early = false → 11 ≤ s.doneStep →
    s.stagedOffsets = [Reg.SHR_CTL 2] →
    Gives (exec .commitApply s) fun t =>
      t.fld Reg.CFG_COMMIT_RESULT Fld.CFG_COMMIT_RESULT_state = 2 ∧ t.fld Reg.CFG_COMMIT_RESULT Fld.CFG_COMMIT_RESULT_code = 0 ∧
      t.reg Reg.CFG_COMMIT_APPLIED_NT = BitVec.ofNat 64 c.instant ∧ t.commit = none ∧ t.stagedOffsets = [] ∧ t.shadow = s.shadow ∧
      t.on (Reg.SHR_CTL 2) Fld.SHR_CTL_enable = (getF (s.shadowReg (Reg.SHR_CTL 2)) Fld.SHR_CTL_enable == 1)) ∧
  (∀ (c : Commit) (s : State), s.commit = some c → c.checked = false ∨ s.nt < c.instant → exec .commitApply s = .next s) ∧
  (∀ (a : Nat) (s : State), s.boot.autoAt = some a → a ≤ s.nt → s.commit = none → 11 ≤ s.doneStep → (s.stagedOffsets.filter s.stagedEnable) = [] →
    exec .autoQueueCommit s = .next { s with boot := { s.boot with autoAt := none } })

/-- REGISTER_WRITE within the register space whose size is not 8 bytes or whose offset is no multiple of 8 leaves every register but GLB_CFG_VIOL and every other part of the state as it was, and logs the offset; such a read, over any path, answers 0 and does the same. -/
def Obligations.AccessesAreAligned : Prop :=
  (∀ (path : Path) (off size : Nat) (value : Word) (env : Env) (s : State), RegsKept s → off < 2 ^ 26 → size ≠ 8 ∨ off % 8 ≠ 0 →
    Gives (exec (.registerWrite path off size value env) s) fun t => Logged s t path 1 off) ∧
  (∀ (path : Path) (off size : Nat) (s : State), RegsKept s → off < 2 ^ 26 → size ≠ 8 ∨ off % 8 ≠ 0 →
    (s.accessRead path off size).2.1 = 0 ∧ Logged s (s.accessRead path off size).1 path 1 off)

/-- REGISTER_WRITE: an RW field takes the value at once (EVT_MASK); an RWS field takes it in the shadow copy only (QUE_CTL.enable after step 11); an RWL field whose block is enabled keeps its value, and the write is logged with kind 2 (PWR_THERM_CFG.die_crit); a W1C field loses the bits written 1 (EVT_PENDING). GLB_CFG_VIOL_CLEAR zeroes the log. REG_READ that passes the checks is answered with the value read, REG_WRITE with 0 after the write; REG_RESP matches nothing and is taken. -/
def Obligations.RegisterAccess : Prop :=
  (∀ (path : Path) (value : Word) (env : Env) (s : State), RegsKept s → s.shadowReg Reg.EVT_MASK = 0 →
    Gives (exec (.registerWrite path Reg.EVT_MASK 8 value env) s) fun t =>
      t.fld Reg.EVT_MASK Fld.EVT_MASK_mask = getF value Fld.EVT_MASK_mask ∧ t = { s with regs := t.regs, shadow := t.shadow } ∧ RegsBut s t [Reg.EVT_MASK]) ∧
  (∀ (path : Path) (q : Quad) (value : Word) (env : Env) (s : State), Canonical s → s.commit = none → 11 ≤ s.doneStep →
    Gives (exec (.registerWrite path (Reg.QUE_CTL q) 8 value env) s) fun t =>
      getF (t.shadowReg (Reg.QUE_CTL q)) Fld.QUE_CTL_enable = getF value Fld.QUE_CTL_enable ∧ RegsBut s t [] ∧
      t = { s with regs := t.regs, shadow := t.shadow }) ∧
  (∀ (path : Path) (value : Word) (env : Env) (s : State), RegsKept s → s.commit = none → s.on Reg.PWR_SENSE_STATUS Fld.PWR_SENSE_STATUS_therm_locked = true →
    getF value Fld.PWR_THERM_CFG_die_crit ≠ s.fld Reg.PWR_THERM_CFG Fld.PWR_THERM_CFG_die_crit →
    Gives (exec (.registerWrite path Reg.PWR_THERM_CFG 8 value env) s) fun t =>
      t.fld Reg.PWR_THERM_CFG Fld.PWR_THERM_CFG_die_crit = s.fld Reg.PWR_THERM_CFG Fld.PWR_THERM_CFG_die_crit ∧
      t.fld Reg.PWR_THERM_CFG Fld.PWR_THERM_CFG_die_warn = getF value Fld.PWR_THERM_CFG_die_warn ∧
      t.fld Reg.GLB_CFG_VIOL Fld.GLB_CFG_VIOL_kind = 2 ∧ t.fld Reg.GLB_CFG_VIOL Fld.GLB_CFG_VIOL_offset = Reg.PWR_THERM_CFG) ∧
  (∀ (path : Path) (value : Word) (env : Env) (s : State), RegsKept s →
    Gives (exec (.registerWrite path Reg.EVT_PENDING 8 value env) s) fun t =>
      t.fld Reg.EVT_PENDING Fld.EVT_PENDING_pending = s.fld Reg.EVT_PENDING Fld.EVT_PENDING_pending &&& (0x7FFF - getF value Fld.EVT_PENDING_pending) ∧
      RegsBut s t [Reg.EVT_PENDING]) ∧
  (∀ (path : Path) (value : Word) (s : State), RegsKept s →
    Gives (exec (.glbCfgViolClear path value) s) fun t => t.reg Reg.GLB_CFG_VIOL = 0 ∧ t = { s with regs := t.regs } ∧ RegsBut s t [Reg.GLB_CFG_VIOL]) ∧
  (∀ (port : Fin 36) (p : Packet) (s : State), InputsKept s → s.coreStopped = false → p.opcode = opRegRead → (s.arrives p).2 = true → p.addr = Reg.EVT_MASK → s.regAnswers < 16 →
    Gives (exec (.regRead port p) s) fun t =>
      Injects s t port (sealPacket { answerTo p opRegResp 3 0 0 (leBytes 8 (s.reg Reg.EVT_MASK).toNat) with addr := p.addr }) ∧
      t = { s with router := { s.router with inputs := t.router.inputs, eject := s.router.eject.erase (port.val, p) } }) ∧
  (∀ (port : Fin 36) (p : Packet) (env : Env) (s : State), RegsKept s → InputsKept s → s.coreStopped = false → p.opcode = opRegWrite → (s.arrives p).2 = true →
    p.addr = Reg.EVT_MASK → s.regAnswers < 16 →
    Gives (exec (.regWrite port p env) s) fun t =>
      t.fld Reg.EVT_MASK Fld.EVT_MASK_mask = leAt p.payload 0 2 / 2 % 2 ^ 15 ∧
      Injects s t port (sealPacket { answerTo p opRegResp 3 0 0 (leBytes 8 0) with addr := p.addr })) ∧
  (∀ (port : Fin 36) (p : Packet) (s : State), s.coreStopped = false → p.opcode = opRegResp → (s.arrives p).2 = true →
    exec (.regResp port p) s = .next { s with router := { s.router with eject := s.router.eject.erase (port.val, p) } })

/-- An aligned 8-byte Ilcen write to a decoded offset of an enabled queue pair of an unpaired client, ahead of the present value by less than 2^31, sets the submission tail where at most 2^k descriptors then lie between it and the completion head, and the completion head where the completions written cover it; nothing else changes. A write across a decoded byte at no decoded offset is counted rejected; a doorbell of a disabled queue pair is counted stale; a tail past its bound is counted invalid with event 0x0301. A DOORBELL packet from the client's node, with doorbells over Quagen allowed and no policer, sets the tail in the same way. -/
def Obligations.Doorbells : Prop :=
  (∀ (c : Client) (off : Fin 4096) (data : List Byte) (p : Nat) (s : State), RegsKept s → s.ilcActive = true → s.sealed = false →
    doorbellAt off = some (p, true) → data.length = 8 → s.paired c = false →
    s.on (Reg.QUE_QP_CFG (c % 4) (c / 4 * 8 + p)) Fld.QUE_QP_CFG_enable = true → s.on (Reg.QUE_QP_CTL (c % 4) (c / 4 * 8 + p)) Fld.QUE_QP_CTL_busy = false →
    ofLE data < 2 ^ 32 → 0 < diff32 (ofLE data) (s.ptr (c % 4) (c / 4 * 8 + p) true) → diff32 (ofLE data) (s.ptr (c % 4) (c / 4 * 8 + p) true) < 2 ^ 31 →
    diff32 (ofLE data) (s.ptr (c % 4) (c / 4 * 8 + p) false) ≤ 2 ^ s.ringLog (c % 4) (c / 4 * 8 + p) →
    Gives (exec (.ilcenDoorbellWrite c off data) s) fun t =>
      t.fld (Reg.QUE_QP_SQ_PTR (c % 4) (c / 4 * 8 + p)) Fld.QUE_QP_SQ_PTR_tail = ofLE data ∧
      t.fld (Reg.QUE_QP_SQ_PTR (c % 4) (c / 4 * 8 + p)) Fld.QUE_QP_SQ_PTR_fetched = s.fld (Reg.QUE_QP_SQ_PTR (c % 4) (c / 4 * 8 + p)) Fld.QUE_QP_SQ_PTR_fetched ∧
      t = { s with regs := t.regs } ∧ RegsBut s t [Reg.QUE_QP_SQ_PTR (c % 4) (c / 4 * 8 + p)]) ∧
  (∀ (c : Client) (off : Fin 4096) (data : List Byte) (p : Nat) (s : State), RegsKept s → s.ilcActive = true → s.sealed = false →
    doorbellAt off = some (p, false) → data.length = 8 → s.paired c = false →
    s.on (Reg.QUE_QP_CFG (c % 4) (c / 4 * 8 + p)) Fld.QUE_QP_CFG_enable = true → s.on (Reg.QUE_QP_CTL (c % 4) (c / 4 * 8 + p)) Fld.QUE_QP_CTL_busy = false →
    ofLE data < 2 ^ 32 → 0 < diff32 (ofLE data) (s.ptr (c % 4) (c / 4 * 8 + p) false) → diff32 (ofLE data) (s.ptr (c % 4) (c / 4 * 8 + p) false) < 2 ^ 31 →
    diff32 (ofLE data) (s.ptr (c % 4) (c / 4 * 8 + p) false) ≤ diff32 (s.cqWritten (c % 4) (c / 4 * 8 + p)) (s.ptr (c % 4) (c / 4 * 8 + p) false) →
    Gives (exec (.ilcenDoorbellWrite c off data) s) fun t =>
      t.fld (Reg.QUE_QP_CQ_PTR (c % 4) (c / 4 * 8 + p)) Fld.QUE_QP_CQ_PTR_head = ofLE data ∧
      t = { s with regs := t.regs } ∧ RegsBut s t [Reg.QUE_QP_CQ_PTR (c % 4) (c / 4 * 8 + p)]) ∧
  (∀ (c : Client) (off : Fin 4096) (data : List Byte) (s : State), RegsKept s → s.ilcActive = true → doorbellAt off = none →
    ((List.range data.length).any fun i => doorbellByte (off + i)) = true →
    Gives (exec (.ilcenDoorbellWrite c off data) s) fun t =>
      t.fld (Reg.QUE_DB_CNT (c % 4)) Fld.QUE_DB_CNT_rejected = satAdd Fld.QUE_DB_CNT_rejected.width (s.fld (Reg.QUE_DB_CNT (c % 4)) Fld.QUE_DB_CNT_rejected) 1 ∧
      t = { s with regs := t.regs } ∧ RegsBut s t [Reg.QUE_DB_CNT (c % 4)]) ∧
  (∀ (c : Client) (off : Fin 4096) (data : List Byte) (p : Nat) (s : State), RegsKept s → s.ilcActive = true → s.sealed = false →
    doorbellAt off = some (p, true) → data.length = 8 → s.paired c = false → s.on (Reg.QUE_QP_CFG (c % 4) (c / 4 * 8 + p)) Fld.QUE_QP_CFG_enable = false →
    Gives (exec (.ilcenDoorbellWrite c off data) s) fun t =>
      t.fld (Reg.QUE_DB_CNT (c % 4)) Fld.QUE_DB_CNT_stale = satAdd Fld.QUE_DB_CNT_stale.width (s.fld (Reg.QUE_DB_CNT (c % 4)) Fld.QUE_DB_CNT_stale) 1 ∧
      t = { s with regs := t.regs } ∧ RegsBut s t [Reg.QUE_DB_CNT (c % 4)]) ∧
  (∀ (c : Client) (off : Fin 4096) (data : List Byte) (p : Nat) (s : State), RegsKept s → EventRoom s → s.ilcActive = true → s.sealed = false →
    doorbellAt off = some (p, true) → data.length = 8 → s.paired c = false →
    s.on (Reg.QUE_QP_CFG (c % 4) (c / 4 * 8 + p)) Fld.QUE_QP_CFG_enable = true → s.on (Reg.QUE_QP_CTL (c % 4) (c / 4 * 8 + p)) Fld.QUE_QP_CTL_busy = false →
    ofLE data < 2 ^ 32 → 0 < diff32 (ofLE data) (s.ptr (c % 4) (c / 4 * 8 + p) true) → diff32 (ofLE data) (s.ptr (c % 4) (c / 4 * 8 + p) true) < 2 ^ 31 →
    2 ^ s.ringLog (c % 4) (c / 4 * 8 + p) < diff32 (ofLE data) (s.ptr (c % 4) (c / 4 * 8 + p) false) →
    Gives (exec (.ilcenDoorbellWrite c off data) s) fun t =>
      t.fld (Reg.QUE_DB_CNT (c % 4)) Fld.QUE_DB_CNT_invalid = satAdd Fld.QUE_DB_CNT_invalid.width (s.fld (Reg.QUE_DB_CNT (c % 4)) Fld.QUE_DB_CNT_invalid) 1 ∧
      Tells s t 0x0301 5 (c % 4) ∧ t = { s with regs := t.regs, events := t.events } ∧ RegsBut s t [Reg.QUE_DB_CNT (c % 4), Reg.EVT_PENDING]) ∧
  (∀ (port : Fin 36) (p : Packet) (n : Nat) (s : State), RegsKept s → s.workStopped = false → p.opcode = opDoorbell → (s.arrives p).2 = true → p.client < 512 →
    s.fld (Reg.QUE_POL_RATE (p.client % 4) (p.client / 4)) Fld.QUE_POL_RATE_rate_mbs = 0 → doorbellAt (leAt p.payload 0 2) = some (n, true) →
    s.on (clientReg p.client) Fld.QUE_CLIENT_enable = true → s.on (clientReg p.client) Fld.QUE_CLIENT_fabric_db = true →
    s.fld (clientReg p.client) Fld.QUE_CLIENT_node = p.src → s.paired p.client = false →
    s.on (Reg.QUE_QP_CFG (p.client % 4) (p.client / 4 * 8 + n)) Fld.QUE_QP_CFG_enable = true → s.on (Reg.QUE_QP_CTL (p.client % 4) (p.client / 4 * 8 + n)) Fld.QUE_QP_CTL_busy = false →
    leAt p.payload 8 8 < 2 ^ 32 → 0 < diff32 (leAt p.payload 8 8) (s.ptr (p.client % 4) (p.client / 4 * 8 + n) true) →
    diff32 (leAt p.payload 8 8) (s.ptr (p.client % 4) (p.client / 4 * 8 + n) true) < 2 ^ 31 →
    diff32 (leAt p.payload 8 8) (s.ptr (p.client % 4) (p.client / 4 * 8 + n) false) ≤ 2 ^ s.ringLog (p.client % 4) (p.client / 4 * 8 + n) →
    Gives (exec (.doorbell port p) s) fun t =>
      t.fld (Reg.QUE_QP_SQ_PTR (p.client % 4) (p.client / 4 * 8 + n)) Fld.QUE_QP_SQ_PTR_tail = leAt p.payload 8 8 ∧
      t = { s with regs := t.regs, router := { s.router with eject := s.router.eject.erase (port.val, p) } } ∧
      RegsBut s t [Reg.QUE_QP_SQ_PTR (p.client % 4) (p.client / 4 * 8 + n)])

/-- FETCH_TURN of a queue pair whose turn is next and whose ring stands in space 1 asks for 64 bytes for each descriptor of its turn at the ring slot of its fetched count, and notes the fetch and the round. FETCH_DATA turns the bytes into descriptors that wait for issue, with ascending seq, and raises the fetched count. DESCRIPTOR_ISSUE of a NOP takes the issue instant and the next place in the order; of an opcode that is not listed it ends the descriptor with status 0x8001. DESCRIPTOR_START of one that may start starts it. COMPLETION_WRITE of an ended descriptor after start-up writes the 32 bytes to the slot of its seq in the completion ring in space 1, raises the count of completions and lets the descriptor go, leaving its event message to be sent where it asked for one; EVENT_MESSAGE writes the 16 bytes to the target. (Clients are unpaired and Loupe is still in these clauses.) -/
def Obligations.QueueFlow : Prop :=
  (∀ (q : Quad) (j : Nat) (r : Round) (s : State), s.engineUp q = true → s.hung q = false → s.quadInflight q < 4096 → s.nextTurn q = some (j, r) →
    spaceOf (s.reg (Reg.QUE_QP_SQ_BASE q j)).toNat = 1 →
    exec (.fetchTurn q) s = .next (State.emit { s with
      que := { s.que with
        rounds := s.que.rounds.set q r
        fetches := s.que.fetches ++ [⟨q, j, s.fld (Reg.QUE_QP_SQ_PTR q j) Fld.QUE_QP_SQ_PTR_fetched, s.turnSize q j, none⟩] } }
      (.ilcenRead (ringSlot s q j (s.fld (Reg.QUE_QP_SQ_PTR q j) Fld.QUE_QP_SQ_PTR_fetched)) (64 * s.turnSize q j)))) ∧
  (∀ (q : Quad) (j : Fin 1024) (env : Env) (f : Fetch) (s : State), RegsKept s → s.engineUp q = true → s.ilcActive = true → env.extFail = false →
    (s.que.fetches.find? fun f => f.q == q.val && f.j == j.val) = some f → spaceOf (s.reg (Reg.QUE_QP_SQ_BASE q j)).toNat = 1 →
    Gives (exec (.fetchData q j env) s) fun t =>
      t.fld (Reg.QUE_QP_SQ_PTR q j) Fld.QUE_QP_SQ_PTR_fetched = (f.seq + f.n) % 2 ^ 32 ∧
      t = { s with regs := t.regs, que := { s.que with
        fetches := s.que.fetches.erase f
        descs := s.que.descs ++ (List.range f.n).map fun i => newDesc ⟨q, j, (f.seq + i) % 2 ^ 32⟩ (slice env.ext (64 * i) 64) } } ∧
      RegsBut s t [Reg.QUE_QP_SQ_PTR q j]) ∧
  (∀ (q : Quad) (j : Fin 1024) (d : Desc) (s : State), Unwatched s → ((s.qpDescs q j).find? fun d => d.phase == .fetched) = some d → s.mayIssue d = true →
    s.paired d.client = false → s.bezel ≠ 2 → d.op = 0x00 → malformed d = 0 → d.journal ≠ 2 →
    exec (.descriptorIssue q j) s = .next (State.setDesc { s with que := { s.que with order := s.que.order + 1 } }
      { d with phase := .issued, issueNt := s.nt, order := s.que.order + 1, journal := 0, snap := [] })) ∧
  (∀ (q : Quad) (j : Fin 1024) (d : Desc) (s : State), Unwatched s → ((s.qpDescs q j).find? fun d => d.phase == .fetched) = some d → s.mayIssue d = true →
    s.paired d.client = false → s.bezel ≠ 2 → operandBytes d = none → d.journal ≠ 2 → s.rcp.run = none →
    exec (.descriptorIssue q j) s = .next (fails { s with que := { s.que with order := s.que.order + 1 } } { d with issueNt := s.nt, order := s.que.order + 1, journal := 0 } 0x8001 0)) ∧
  (∀ (k : DescKey) (d : Desc) (s : State), s.desc k = some d → s.mayStart d = true →
    exec (.descriptorStart k) s = .next (s.setDesc { d with phase := .started, progress := 0, waits := [] })) ∧
  (∀ (k : DescKey) (env : Env) (d : Desc) (s : State), Unwatched s → s.desc k = some d → d.phase = .ended → s.engineUp k.q = true → 13 ≤ s.doneStep →
    s.mirrorOpen d.waits = false → s.writesOpen k = false → s.paired d.client = false → s.ilcActive = true →
    spaceOf ((s.reg (Reg.QUE_QP_CQ_BASE k.q k.j)).toNat + k.seq % 2 ^ s.ringLog k.q k.j * 32) = 1 →
    Gives (exec (.completionWrite k env) s) fun t =>
      Sends s t (.ilcenWrite (addrOf ((s.reg (Reg.QUE_QP_CQ_BASE k.q k.j)).toNat + k.seq % 2 ^ s.ringLog k.q k.j * 32))
        (s.completionBytes d d.status d.result d.detail)) ∧
      t.desc k = none ∧ t.cqWritten k.q k.j = s.cqWritten k.q k.j + 1 ∧
      t.que.announces = s.que.announces ++ (if d.flag 0 && s.on (Reg.QUE_QP_EV k.q k.j) Fld.QUE_QP_EV_enable then [⟨k, d.u 2 2, d.status⟩] else []) ∧
      t.que.descs = (s.que.descs.filter fun (x : Desc) => x.key != k) ∧ t.regs = s.regs) ∧
  (∀ (k : DescKey) (env : Env) (a : Announce) (s : State), (s.que.announces.find? fun a => a.key == k) = some a → s.engineUp k.q = true →
    s.router.tags = [] → s.router.waiting = [] → s.ilcActive = true → spaceOf (s.fld (Reg.QUE_QP_EV k.q k.j) Fld.QUE_QP_EV_target) = 1 →
    exec (.eventMessage k env) s = .next (State.emit { s with que := { s.que with announces := s.que.announces.erase a } }
      (.ilcenWrite (addrOf (s.fld (Reg.QUE_QP_EV k.q k.j) Fld.QUE_QP_EV_target)) (messageBytes a))))

/-- Of a started descriptor of each: NOP ends with result 0. FENCE holds issue for its client; FENCE_COMPLETION ends it with result 0 once every earlier descriptor of the client has completed, and not before. SEG_SYNC_LOAD reads the 64-byte master entry over Ilcen and, where the entry is accepted, makes it due for installation; SEG_SYNC_INVALIDATE makes an entry of zeros due. SEG_SYNC_INSTALL with no earlier SEG_SYNC of the segment to come writes the words of the entry and its generation plus one. SEG_SYNC_COMPLETION with no snapshot of an older generation left ends with the generation as its result. -/
def Obligations.FencesAndSegSyncs : Prop :=
  (∀ (k : DescKey) (d : Desc) (s : State), s.jobOf k 0x00 = some d → s.rcp.run = none → exec (.nop k) s = .next (succeeds s d 0)) ∧
  (∀ (k : DescKey) (d : Desc) (s : State), s.jobOf k 0x04 = some d → (s.que.fences.any fun f => f.key == d.key) = false →
    exec (.fence k) s = .next (State.setDesc { s with que := { s.que with fences := s.que.fences ++ [⟨d.client, d.order, d.key⟩] } } { d with progress := 1 })) ∧
  (∀ (k : DescKey) (d : Desc) (s : State), s.jobOf k 0x04 = some d → s.rcp.run = none → d.progress = 1 →
    exec (.fenceCompletion k) s = .next (if s.earlierDone d then succeeds s d 0 else s)) ∧
  (∀ (k : DescKey) (env : Env) (d : Desc) (s : State), s.jobOf k 0x06 = some d → d.u 9 1 = 0 → d.progress = 0 → s.ilcActive = true → env.extFail = false →
    s.loadStatus (d.u 10 2) (d.u 8 1) (padTo 64 env.ext) = 0 →
    exec (.segSyncLoad k env) s = .next (State.setDesc (State.emit { s with
      que := { s.que with syncs := s.que.syncs ++ [⟨d.key, d.order, d.u 10 2, d.u 8 1, installWords (padTo 64 env.ext), none⟩] } } (.ilcenRead (d.u 16 8 % 2 ^ 48) 64)) { d with progress := 1 })) ∧
  (∀ (k : DescKey) (d : Desc) (s : State), s.jobOf k 0x06 = some d → d.u 9 1 = 1 → d.progress = 0 →
    exec (.segSyncInvalidate k) s = .next (State.setDesc { s with
      que := { s.que with syncs := s.que.syncs ++ [⟨d.key, d.order, d.u 10 2, d.u 8 1, List.replicate 8 0, none⟩] } } { d with progress := 1 })) ∧
  (∀ (k : DescKey) (d : Desc) (y : SegSync) (s : State), RegsKept s → s.jobOf k 0x06 = some d → s.syncOf k = some y → y.gen = none → s.earlierSync d = false →
    y.client < 512 → y.seg < 8 →
    Gives (exec (.segSyncInstall k) s) fun t =>
      (∀ b : Fin 8, b ≠ 6 → t.reg (Reg.SEG_ENTRY (y.client % 4) (y.client / 4) y.seg b) = BitVec.ofNat 64 (y.words.getD b 0)) ∧
      t.reg (Reg.SEG_ENTRY (y.client % 4) (y.client / 4) y.seg 6) = BitVec.ofNat 64 (((s.segEnt y.client y.seg).gen + 1) % 2 ^ 32) ∧
      t.que.descs = s.que.descs ∧ t = { s with regs := t.regs, que := { s.que with bmc := t.que.bmc, syncs := t.que.syncs } }) ∧
  (∀ (k : DescKey) (d : Desc) (y : SegSync) (g : Nat) (s : State), s.jobOf k 0x06 = some d → s.syncOf k = some y → y.gen = some g → s.rcp.run = none →
    (∀ x ∈ s.que.descs, x.client = y.client → ∀ e ∈ x.snap, e.seg ≠ y.seg) →
    exec (.segSyncCompletion k) s = .next (succeeds { s with que := { s.que with syncs := s.que.syncs.erase y } } d g))

/-- QP_RESET of an enabled queue pair sets busy, discards its unissued descriptors and its fetches, and leaves the other queue pairs alone; of a disabled or busy one it is logged with kind 4. QP_RESET_DONE with nothing of it in flight and its completion ring in space 1 writes 32 zero bytes to each slot, clears its pointers, busy and fetch_error and counts its completions from 0. RETIRE sets busy and starts the reset of every enabled queue pair of the client; RETIRE_DONE with none busy invalidates the eight segments, raises the incarnation, leaves no request of the client's outstanding or waiting, and clears busy. -/
def Obligations.ResetAndRetire : Prop :=
  (∀ (path : Path) (q : Quad) (j : Fin 1024) (value : Word) (s : State), RegsKept s → s.on (Reg.QUE_QP_CFG q j) Fld.QUE_QP_CFG_enable = true →
    s.on (Reg.QUE_QP_CTL q j) Fld.QUE_QP_CTL_busy = false → (∀ d ∈ s.qpDescs q j, d.phase ≠ .issued) → s.que.tiles = [] →
    Gives (exec (.qpReset path q j value) s) fun t =>
      t.on (Reg.QUE_QP_CTL q j) Fld.QUE_QP_CTL_busy = true ∧
      t.que.descs = (s.que.descs.filter fun d => !(d.key.q == q && d.key.j == j && d.phase == .fetched)) ∧
      t.que.fetches = (s.que.fetches.filter fun f => !(f.q == q.val && f.j == j.val)) ∧
      t = { s with regs := t.regs, que := t.que, pool := { s.pool with refused := t.pool.refused }, pair := { s.pair with doorbells := t.pair.doorbells } } ∧
      RegsBut s t [Reg.QUE_QP_CTL q j]) ∧
  (∀ (path : Path) (q : Quad) (j : Fin 1024) (value : Word) (s : State), RegsKept s →
    s.on (Reg.QUE_QP_CFG q j) Fld.QUE_QP_CFG_enable = false ∨ s.on (Reg.QUE_QP_CTL q j) Fld.QUE_QP_CTL_busy = true →
    Gives (exec (.qpReset path q j value) s) fun t => Logged s t path 4 (Reg.QUE_QP_CTL q j)) ∧
  (∀ (q : Quad) (j : Fin 1024) (env : Env) (s : State), RegsKept s → s.on (Reg.QUE_QP_CTL q j) Fld.QUE_QP_CTL_busy = true → s.qpDescs q j = [] → s.cplOpen q j = false →
    s.workStopped = false → s.ilcActive = true → spaceOf (s.reg (Reg.QUE_QP_CQ_BASE q j)).toNat = 1 → s.paired (clientOf q j) = false →
    Gives (exec (.qpResetDone q j env) s) fun t =>
      t.out = (((List.range (2 ^ s.ringLog q j)).map fun i => OutMsg.ilcenWrite (addrOf (s.reg (Reg.QUE_QP_CQ_BASE q j)).toNat + 32 * i) (List.replicate 32 0)).foldl State.emit s).out ∧
      t.reg (Reg.QUE_QP_SQ_PTR q j) = 0 ∧ t.reg (Reg.QUE_QP_CQ_PTR q j) = 0 ∧ t.on (Reg.QUE_QP_CTL q j) Fld.QUE_QP_CTL_busy = false ∧
      t.on (Reg.QUE_QP_CTL q j) Fld.QUE_QP_CTL_fetch_error = false ∧ t.que.descs = s.que.descs ∧
      t = { s with regs := t.regs, out := t.out, ilc := t.ilc, que := { s.que with written := t.que.written, announces := t.que.announces, zeroing := t.que.zeroing } } ∧
      RegsBut s t [Reg.QUE_QP_SQ_PTR q j, Reg.QUE_QP_CQ_PTR q j, Reg.QUE_QP_CTL q j]) ∧
  (∀ (path : Path) (q : Quad) (value : Word) (s : State), RegsKept s → s.sealRefuses path (Reg.QUE_RETIRE q) (setF value Fld.QUE_RETIRE_go 1) = false →
    s.on (Reg.QUE_RETIRE q) Fld.QUE_RETIRE_busy = false → getF value Fld.QUE_RETIRE_client % 4 = q → s.que.descs = [] → s.que.tiles = [] →
    Gives (exec (.retire path q value) s) fun t =>
      t.on (Reg.QUE_RETIRE q) Fld.QUE_RETIRE_busy = true ∧ t.fld (Reg.QUE_RETIRE q) Fld.QUE_RETIRE_client = getF value Fld.QUE_RETIRE_client ∧
      (∀ p : Fin 8, s.on (Reg.QUE_QP_CFG q (getF value Fld.QUE_RETIRE_client / 4 * 8 + p)) Fld.QUE_QP_CFG_enable = true →
        t.on (Reg.QUE_QP_CTL q (getF value Fld.QUE_RETIRE_client / 4 * 8 + p)) Fld.QUE_QP_CTL_busy = true) ∧
      RegsBut s t (Reg.QUE_RETIRE q :: (List.range 8).map fun p => Reg.QUE_QP_CTL q (getF value Fld.QUE_RETIRE_client / 4 * 8 + p))) ∧
  (∀ (q : Quad) (c : Client) (s : State), RegsKept s → s.on (Reg.QUE_RETIRE q) Fld.QUE_RETIRE_busy = true → s.que.retiring = [(q.val, c.val)] → c.val % 4 = q.val →
    ((qpsOf c).any fun j => s.on (Reg.QUE_QP_CTL q j) Fld.QUE_QP_CTL_busy) = false →
    Gives (exec (.retireDone q) s) fun t =>
      t.on (Reg.QUE_RETIRE q) Fld.QUE_RETIRE_busy = false ∧ (∀ seg : Fin 8, (t.segEnt c seg).valid = false) ∧
      t.fld (clientReg c) Fld.QUE_CLIENT_incarnation = (s.fld (clientReg c) Fld.QUE_CLIENT_incarnation + 1) % 2 ^ Fld.QUE_CLIENT_incarnation.width ∧
      (∀ x ∈ t.router.tags, x.pkt.client ≠ c) ∧ (∀ x ∈ t.router.waiting, x.2.1.client ≠ c) ∧
      t = { s with regs := t.regs, que := { s.que with bmc := t.que.bmc, retiring := [] }
                   router := { s.router with tags := t.router.tags, quarantine := t.router.quarantine, waiting := t.router.waiting } })

/-- MOVE of one row of at most 2^18 bytes from space 1 to space 1 reads the row over Ilcen, writes it where the destination stands and ends with the bytes moved; FILL in space 1 writes its pattern, repeated from its first byte on, over len bytes. ATOMIC on a present, writable page of an unpaired client, at a home that recalls the line, stores the new value of its operation at the pool address and ends with the old value as its result. -/
def Obligations.MoversWork : Prop :=
  (∀ (k : DescKey) (env : Env) (d : Desc) (s : State), Unwatched s → s.jobOf k 0x01 = some d → s.rcp.run = none → s.ilcActive = true → env.extFail = false →
    spaceOf (d.u 8 8) = 1 → spaceOf (d.u 16 8) = 1 → d.u 28 4 = 1 → 0 < d.u 24 4 → d.u 24 4 ≤ 2 ^ 18 → d.progress = 0 →
    exec (.move k env) s = .next (succeeds ((s.emit (.ilcenRead (addrOf (d.u 8 8)) (d.u 24 4))).emit (.ilcenWrite (addrOf (d.u 16 8)) (padTo (d.u 24 4) env.ext)))
      { (s.withMover d none).2 with progress := 1, written := d.written + d.u 24 4, delivered := true } (d.u 24 4))) ∧
  (∀ (k : DescKey) (env : Env) (d : Desc) (s : State), Unwatched s → s.jobOf k 0x02 = some d → s.rcp.run = none → s.ilcActive = true →
    spaceOf (d.u 8 8) = 1 → 0 < d.u 24 8 → d.u 24 8 ≤ 2 ^ 18 → d.progress = 0 →
    exec (.fill k env) s = .next (succeeds (s.emit (.ilcenWrite (addrOf (d.u 8 8)) ((List.range (d.u 24 8)).map fun i => (slice d.bytes 16 8).getD (i % 8) 0)))
      { (s.withMover d none).2 with progress := 1, written := d.written + d.u 24 8, delivered := true } (d.u 24 8))) ∧
  (∀ (k : DescKey) (env : Env) (d d2 : Desc) (e : SegEnt) (s1 s2 s3 : State) (g : State × Granted) (bs : List Byte) (seen seen' : PoolSeen) (ids : List Nat) (v : Nat) (s : State),
    s.jobOf k 0x03 = some d → s.rcp.run = none → d.progress = 0 → s.checkTile k (256 + k.q) ⟨addrOf (d.u 8 8), atomicSize (d.u 16 1), 1, 0, true⟩ = (s1, .ok e) →
    s1.inSlabs (e.paOf (addrOf (d.u 8 8))) (atomicSize (d.u 16 1)) = true → s1.rangeMirrorHeld (e.paOf (addrOf (d.u 8 8))) (atomicSize (d.u 16 1)) = false →
    s1.paWriteHeld (e.paOf (addrOf (d.u 8 8))) = false → s1.serve env ⟨.agent 15, 0, .recall, e.paOf (addrOf (d.u 8 8)) / 64, 0, []⟩ = some g →
    g.1.readPool env.ecc (e.paOf (addrOf (d.u 8 8))) (atomicSize (d.u 16 1)) = (s2, bs, seen) → seen.lost = false → s2.desc k = some d2 → s2.paired d2.client = false →
    atomicNew (d.u 16 1) (ofLE bs) (d2.u 24 8) (d2.u 32 8) = some v →
    s2.writePool (s2.mended env (e.paOf (addrOf (d.u 8 8)) / 64) seen.rebuilt).ecc (e.paOf (addrOf (d.u 8 8))) (leBytes (atomicSize (d.u 16 1)) v) true = (s3, seen', ids) →
    seen'.lost = false →
    Gives (exec (.atomic k env) s) fun t => (t.desc k).map (fun x => (x.phase, x.result, x.detail)) = some (.ended, ofLE bs, 0) ∧ t.pool.cells = s3.pool.cells)

/-- TILE_CHECK of a tile of a started descriptor, with one page: where the page is present in the cached bitmap line the page is noted and a hit counted; where the segment, its bounds, its right or its lease fail the check the descriptor ends with that status and detail; where the line is missing it is asked for and a miss counted; where the page is absent, a record is opened with the client, segment, page and generation, the tile stalls in a slot, and event 0x0401 is raised. -/
def Obligations.TilesAreChecked : Prop :=
  (∀ (k : DescKey) (r va len rows stride : Nat) (write : Bool) (d : Desc) (e : SegEnt) (p a : Nat) (l : BmcLine) (s : State), RegsKept s → s.engineUp k.q = true →
    0 < len → 0 < rows → rows ≤ 256 → rows * len ≤ 2 ^ 18 → s.desc k = some d → d.phase = .started → s.stalledTile k r = none →
    s.rangeCheck d.client d.snap d.issueNt d.leased [⟨va, len, rows, stride, write⟩] = .ok e → tilePages e ⟨va, len, rows, stride, write⟩ = [(p, a)] → d.pages = [] →
    s.bmcLine k.q (keyClient k) e.seg e.gen (p / 512) = some l → l.woken = [] → pageBit l.data p = true →
    Gives (exec (.tileCheck k r va len rows stride write) s) fun t =>
      t.desc k = some { d with pages := [(r, e.seg, p)] } ∧
      t.fld (Reg.SEG_BMC_CNT k.q) Fld.SEG_BMC_CNT_hits = (s.fld (Reg.SEG_BMC_CNT k.q) Fld.SEG_BMC_CNT_hits + 1) % 2 ^ Fld.SEG_BMC_CNT_hits.width ∧
      t = { s with regs := t.regs, que := { s.que with descs := t.que.descs, bmc := t.que.bmc } } ∧ RegsBut s t [Reg.SEG_BMC_CNT k.q]) ∧
  (∀ (k : DescKey) (r va len rows stride : Nat) (write : Bool) (d : Desc) (status detail : Nat) (s : State), s.engineUp k.q = true →
    0 < len → 0 < rows → rows ≤ 256 → rows * len ≤ 2 ^ 18 → s.desc k = some d → d.phase = .started → d.delivered = false → s.que.tiles = [] → s.rcp.run = none →
    s.rangeCheck d.client d.snap d.issueNt d.leased [⟨va, len, rows, stride, write⟩] = .error (status, detail) →
    exec (.tileCheck k r va len rows stride write) s = .next (fails s d status detail)) ∧
  (∀ (k : DescKey) (r va len rows stride : Nat) (write : Bool) (d : Desc) (e : SegEnt) (p a : Nat) (s : State), RegsKept s → s.engineUp k.q = true →
    0 < len → 0 < rows → rows ≤ 256 → rows * len ≤ 2 ^ 18 → s.desc k = some d → d.phase = .started → s.stalledTile k r = none →
    s.rangeCheck d.client d.snap d.issueNt d.leased [⟨va, len, rows, stride, write⟩] = .ok e → tilePages e ⟨va, len, rows, stride, write⟩ = [(p, a)] → d.pages = [] →
    s.bmcLine k.q (keyClient k) e.seg e.gen (p / 512) = none → s.que.fills = [] →
    Gives (exec (.tileCheck k r va len rows stride write) s) fun t =>
      t.que.fills = [⟨k.q, keyClient k, e.seg, e.gen, p / 512, e.bitmap, [k]⟩] ∧
      t.fld (Reg.SEG_BMC_CNT k.q) Fld.SEG_BMC_CNT_misses = (s.fld (Reg.SEG_BMC_CNT k.q) Fld.SEG_BMC_CNT_misses + 1) % 2 ^ Fld.SEG_BMC_CNT_misses.width ∧
      t = { s with regs := t.regs, que := { s.que with fills := t.que.fills } } ∧ RegsBut s t [Reg.SEG_BMC_CNT k.q]) ∧
  (∀ (k : DescKey) (r va len rows stride : Nat) (write : Bool) (d : Desc) (e : SegEnt) (p a : Nat) (l : BmcLine) (n rec' : Nat) (s : State), RegsKept s → EventRoom s →
    s.engineUp k.q = true → 0 < len → 0 < rows → rows ≤ 256 → rows * len ≤ 2 ^ 18 → s.desc k = some d → d.phase = .started → s.stalledTile k r = none →
    s.rangeCheck d.client d.snap d.issueNt d.leased [⟨va, len, rows, stride, write⟩] = .ok e → tilePages e ⟨va, len, rows, stride, write⟩ = [(p, a)] → d.pages = [] →
    s.bmcLine k.q (keyClient k) e.seg e.gen (p / 512) = some l → l.woken = [] → pageBit l.data p = false →
    ((List.range 64).find? fun r => s.recordIs k.q r d.client e p) = none →
    ((List.range 64).find? fun r => s.fld (Reg.SEG_FAULT_REC0 k.q r) Fld.SEG_FAULT_REC0_state == 0) = some rec' →
    ((List.range 64).find? fun n => !s.on (Reg.SEG_STALL k.q n) Fld.SEG_STALL_valid) = some n →
    Gives (exec (.tileCheck k r va len rows stride write) s) fun t =>
      t.fld (Reg.SEG_FAULT_REC0 k.q rec') Fld.SEG_FAULT_REC0_state = 1 ∧ t.fld (Reg.SEG_FAULT_REC0 k.q rec') Fld.SEG_FAULT_REC0_client = d.client % 2 ^ Fld.SEG_FAULT_REC0_client.width ∧
      t.fld (Reg.SEG_FAULT_REC0 k.q rec') Fld.SEG_FAULT_REC0_segment = e.seg % 2 ^ Fld.SEG_FAULT_REC0_segment.width ∧
      t.fld (Reg.SEG_FAULT_REC0 k.q rec') Fld.SEG_FAULT_REC0_va = a % 2 ^ Fld.SEG_FAULT_REC0_va.width ∧
      t.fld (Reg.SEG_FAULT_REC2 k.q rec') Fld.SEG_FAULT_REC2_page = p % 2 ^ Fld.SEG_FAULT_REC2_page.width ∧
      t.fld (Reg.SEG_FAULT_REC2 k.q rec') Fld.SEG_FAULT_REC2_generation = e.gen % 2 ^ Fld.SEG_FAULT_REC2_generation.width ∧
      t.reg (Reg.SEG_FAULT_REC3 k.q rec') = BitVec.ofNat 64 s.nt ∧ t.reg (Reg.SEG_FAULT_REC1 k.q rec') = BitVec.ofNat 64 (2 ^ n) ∧
      t.on (Reg.SEG_STALL k.q n) Fld.SEG_STALL_valid = true ∧ t.fld (Reg.SEG_STALL k.q n) Fld.SEG_STALL_record = rec' ∧
      t.que.tiles = s.que.tiles ++ [⟨k, r, ⟨va, len, rows, stride, write⟩, e, p, a, some n, some rec'⟩] ∧ Tells s t 0x0401 5 k.q ∧
      t = { s with regs := t.regs, que := { s.que with descs := t.que.descs, bmc := t.que.bmc, tiles := t.que.tiles }, events := t.events } ∧
      RegsBut s t [Reg.SEG_BMC_CNT k.q, Reg.SEG_FAULT_REC0 k.q rec', Reg.SEG_FAULT_REC1 k.q rec', Reg.SEG_FAULT_REC2 k.q rec', Reg.SEG_FAULT_REC3 k.q rec',
        Reg.SEG_FAULT_OPEN k.q, Reg.SEG_FAULT_CNT k.q, Reg.SEG_STALL k.q n, Reg.EVT_PENDING])

/-- BITMAP_LINE_FILL puts the line that a fetch brought into the quadrant's cache, with the descriptors that waited for it. FAULT_RECHECK of a tile that waits without a slot lets it go where its pages are present. SEG_FAULT_RESOLVE_RESUME makes an open record resuming; SEG_FAULT_RESOLVE_ABORT ends its one waiter, which has delivered nothing, with status 0x2002 and the record in the detail, and frees the record; either of a record that is not open is logged with kind 4. FAULT_RESUME_DONE frees a resuming record without waiters. FAULT_TIMEOUT ends an open record timeout_ms after it was opened. SEG_BMC_INV drops the lines of a client; SEG_BMC_INV_DONE clears busy. -/
def Obligations.FaultsAndBitmaps : Prop :=
  (∀ (q : Quad) (c : Client) (seg : Fin 8) (gen line : Nat) (env : Env) (f : BmcFill) (data : List Byte) (b : Bool) (ids : List Nat) (s : State), s.engineUp q = true → q < s.que.bmc.length →
    (s.que.fills.find? fun f => f.q == q.val && f.client == c.val && f.seg == seg.val && f.gen == gen && f.idx == line) = some f →
    (s.poolRead env .lineCache [q, c, seg, gen, line, 2] (f.bitmap + 64 * line) 64).2 = .ok data b ids →
    Gives (exec (.bitmapLineFill q c seg gen line env) s) fun t =>
      t.bmcLine q c seg gen line = some ⟨c, seg, gen, line, data, f.waiters⟩ ∧ t.que.fills = s.que.fills.erase f ∧ t.que.descs = s.que.descs) ∧
  (∀ (k : DescKey) (r : Nat) (d : Desc) (x : StallTile) (s : State), s.engineUp k.q = true → s.stalledTile k r = some x → s.desc k = some d → x.slot = none →
    (s.lookPages k x.ent x.tile (s.knownOf x)).2 = .present →
    Gives (exec (.faultRecheck k r) s) fun t => t.que.tiles = s.que.tiles.erase x ∧ t.desc k = some (d.notePages r x.ent.seg ((tilePages x.ent x.tile).map (·.1)))) ∧
  (∀ (path : Path) (q : Quad) (value : Word) (s : State), RegsKept s →
    s.fld (Reg.SEG_FAULT_REC0 q (getF value Fld.SEG_FAULT_RESOLVE_index)) Fld.SEG_FAULT_REC0_state = 1 →
    Gives (exec (.segFaultResolveResume path q value) s) fun t =>
      t.fld (Reg.SEG_FAULT_REC0 q (getF value Fld.SEG_FAULT_RESOLVE_index)) Fld.SEG_FAULT_REC0_state = 2 ∧
      t = { s with regs := t.regs, que := { s.que with bmc := t.que.bmc } } ∧ RegsBut s t [Reg.SEG_FAULT_REC0 q (getF value Fld.SEG_FAULT_RESOLVE_index)]) ∧
  (∀ (path : Path) (q : Quad) (value : Word) (x : StallTile) (d : Desc) (s : State), RegsKept s →
    s.fld (Reg.SEG_FAULT_REC0 q (getF value Fld.SEG_FAULT_RESOLVE_index)) Fld.SEG_FAULT_REC0_state = 1 →
    s.waitersOf q (getF value Fld.SEG_FAULT_RESOLVE_index) = [x] → s.desc x.key = some d → d.phase = .started → d.delivered = false → s.rcp.run = none →
    (∀ y ∈ s.que.tiles, y.slot.getD 0 < 64 ∧ y.record.getD 0 < 64) →
    Gives (exec (.segFaultResolveAbort path q value) s) fun t =>
      t.desc x.key = some { d with phase := .ended, status := 0x2002, result := 0, detail := faultDetail x.va (getF value Fld.SEG_FAULT_RESOLVE_index) } ∧
      t.fld (Reg.SEG_FAULT_REC0 q (getF value Fld.SEG_FAULT_RESOLVE_index)) Fld.SEG_FAULT_REC0_state = 0 ∧
      t.fld (Reg.SEG_FAULT_CNT q) Fld.SEG_FAULT_CNT_ended = satAdd Fld.SEG_FAULT_CNT_ended.width (s.fld (Reg.SEG_FAULT_CNT q) Fld.SEG_FAULT_CNT_ended) 1 ∧
      x ∉ t.que.tiles) ∧
  (∀ (path : Path) (q : Quad) (value : Word) (s : State), RegsKept s →
    s.fld (Reg.SEG_FAULT_REC0 q (getF value Fld.SEG_FAULT_RESOLVE_index)) Fld.SEG_FAULT_REC0_state ≠ 1 →
    Gives (exec (.segFaultResolveResume path q value) s) (fun t => Logged s t path 4 (Reg.SEG_FAULT_RESOLVE q)) ∧
    Gives (exec (.segFaultResolveAbort path q value) s) (fun t => Logged s t path 4 (Reg.SEG_FAULT_RESOLVE q))) ∧
  (∀ (q : Quad) (r : Fin 64) (env : Env) (s : State), RegsKept s → s.engineUp q = true → s.fld (Reg.SEG_FAULT_REC0 q r) Fld.SEG_FAULT_REC0_state = 2 → s.waitersOf q r = [] →
    Gives (exec (.faultResumeDone q r env) s) fun t =>
      t.fld (Reg.SEG_FAULT_REC0 q r) Fld.SEG_FAULT_REC0_state = 0 ∧
      t.reg (Reg.SEG_FAULT_OPEN q) = s.reg (Reg.SEG_FAULT_OPEN q) &&& ~~~ BitVec.ofNat 64 (2 ^ r.val) ∧
      t = { s with regs := t.regs } ∧ RegsBut s t [Reg.SEG_FAULT_REC0 q r, Reg.SEG_FAULT_OPEN q]) ∧
  (∀ (q : Quad) (r : Fin 64) (s : State), RegsKept s → s.workStopped = false → s.fld (Reg.SEG_CTL q) Fld.SEG_CTL_timeout_ms ≠ 0 →
    s.fld (Reg.SEG_FAULT_REC0 q r) Fld.SEG_FAULT_REC0_state = 1 → (s.reg (Reg.SEG_FAULT_REC3 q r)).toNat + s.fld (Reg.SEG_CTL q) Fld.SEG_CTL_timeout_ms * 1000000 ≤ s.nt →
    s.waitersOf q r = [] →
    Gives (exec (.faultTimeout q r) s) fun t =>
      t.fld (Reg.SEG_FAULT_REC0 q r) Fld.SEG_FAULT_REC0_state = 0 ∧
      t.fld (Reg.SEG_FAULT_CNT q) Fld.SEG_FAULT_CNT_ended = satAdd Fld.SEG_FAULT_CNT_ended.width (s.fld (Reg.SEG_FAULT_CNT q) Fld.SEG_FAULT_CNT_ended) 1 ∧
      t = { s with regs := t.regs } ∧ RegsBut s t [Reg.SEG_FAULT_REC0 q r, Reg.SEG_FAULT_OPEN q, Reg.SEG_FAULT_CNT q]) ∧
  (∀ (path : Path) (q : Quad) (value : Word) (s : State), RegsKept s → s.on (Reg.SEG_BMC_INV q) Fld.SEG_BMC_INV_busy = false → getF value Fld.SEG_BMC_INV_client % 4 = q →
    Gives (exec (.segBmcInv path q value) s) fun t =>
      t.on (Reg.SEG_BMC_INV q) Fld.SEG_BMC_INV_busy = true ∧
      t.que.bmc.getD q [] = ((s.que.bmc.getD q []).filter fun l => !(l.client == getF value Fld.SEG_BMC_INV_client &&
        (getF value Fld.SEG_BMC_INV_all_segments == 1 || l.seg == getF value Fld.SEG_BMC_INV_segment))) ∧
      t = { s with regs := t.regs, shadow := t.shadow, que := { s.que with bmc := t.que.bmc } } ∧ RegsBut s t [Reg.SEG_BMC_INV q]) ∧
  (∀ (q : Quad) (s : State), RegsKept s →
    Gives (exec (.segBmcInvDone q) s) fun t => t.on (Reg.SEG_BMC_INV q) Fld.SEG_BMC_INV_busy = false ∧ t = { s with regs := t.regs } ∧ RegsBut s t [Reg.SEG_BMC_INV q])

/-- A region action at the home of its ID, with its bucket read and its home able to write the 64-byte line of the record: REGION_CREATE of an absent region writes version 0 with publisher 0xFFFF and no extent into the first free way, REGION_DELETE clears valid, REGION_BUMP raises the version and takes the publisher away; each leaves result 0 and the version in SHR_RGN_CTL. An action while sharing is off is logged with kind 4. PUBLISH that holds the expected version writes the next version, its client, extent and length, counts published and ends with the new version as its result; one that does not ends with status 0x5001 and the version held as its detail, and is counted lost. -/
def Obligations.RegionsAndPublish : Prop :=
  (∀ (path : Path) (q : Quad) (value : Word) (env : Env) (b : RegionBucket) (w : Nat) (s1 : State) (x : State × PoolSeen × List Nat) (s : State),
    s.on (Reg.SHR_RGN_CTL q) Fld.SHR_RGN_CTL_busy = false → s.on (Reg.SHR_CTL q) Fld.SHR_CTL_enable = true → regionHome (s.reg (Reg.SHR_RGN_ID q)).toNat = q →
    s.bucket env (s.reg (Reg.SHR_RGN_ID q)).toNat = (s1, some (.ok b)) → wayOf b.records (s.reg (Reg.SHR_RGN_ID q)).toNat = none →
    (b.records.findIdx? fun r => !r.valid) = some w →
    s1.writeRegion env (s.recordAt (s.reg (Reg.SHR_RGN_ID q)).toNat w / 64) (b.lineWith w ⟨(s.reg (Reg.SHR_RGN_ID q)).toNat, 0, true, 0xFFFF, 0, 0⟩) false = some x →
    exec (.regionCreate path q value env) s = .next (regionDone x.1 q 0)) ∧
  (∀ (path : Path) (q : Quad) (value : Word) (env : Env) (b : RegionBucket) (w : Nat) (s1 : State) (x : State × PoolSeen × List Nat) (s : State),
    s.on (Reg.SHR_RGN_CTL q) Fld.SHR_RGN_CTL_busy = false → s.on (Reg.SHR_CTL q) Fld.SHR_CTL_enable = true → regionHome (s.reg (Reg.SHR_RGN_ID q)).toNat = q →
    s.bucket env (s.reg (Reg.SHR_RGN_ID q)).toNat = (s1, some (.ok b)) → wayOf b.records (s.reg (Reg.SHR_RGN_ID q)).toNat = some w →
    s1.writeRegion env (s.recordAt (s.reg (Reg.SHR_RGN_ID q)).toNat w / 64) (b.lineWith w { b.record w with valid := false }) false = some x →
    exec (.regionDelete path q value env) s = .next (regionDone x.1 q (b.record w).version)) ∧
  (∀ (path : Path) (q : Quad) (value : Word) (env : Env) (b : RegionBucket) (w : Nat) (s1 : State) (x : State × PoolSeen × List Nat) (s : State),
    s.on (Reg.SHR_RGN_CTL q) Fld.SHR_RGN_CTL_busy = false → s.on (Reg.SHR_CTL q) Fld.SHR_CTL_enable = true → regionHome (s.reg (Reg.SHR_RGN_ID q)).toNat = q →
    s.bucket env (s.reg (Reg.SHR_RGN_ID q)).toNat = (s1, some (.ok b)) → wayOf b.records (s.reg (Reg.SHR_RGN_ID q)).toNat = some w →
    s1.writeRegion env (s.recordAt (s.reg (Reg.SHR_RGN_ID q)).toNat w / 64) (b.lineWith w { b.record w with version := nextVersion (b.record w).version, publisher := 0xFFFF }) false = some x →
    exec (.regionBump path q value env) s = .next (regionDone x.1 q (nextVersion (b.record w).version))) ∧
  (∀ (path : Path) (q : Quad) (value : Word) (env : Env) (s : State), RegsKept s → s.on (Reg.SHR_CTL q) Fld.SHR_CTL_enable = false →
    Gives (exec (.regionBump path q value env) s) fun t => Logged s t path 4 (Reg.SHR_RGN_CTL q)) ∧
  (∀ (k : DescKey) (env : Env) (d : Desc) (b : RegionBucket) (w : Nat) (e : SegEnt) (s1 : State) (x : State × PoolSeen × List Nat) (s : State), s.jobOf k 0x07 = some d →
    s.earlierDone d = true → d.progress = 0 → s.on (Reg.SHR_CTL (regionHome (d.u 8 8))) Fld.SHR_CTL_enable = true → (s.coh.actions.any fun a => a.id == d.u 8 8) = false →
    s.bucket env (d.u 8 8) = (s1, some (.ok b)) → wayOf b.records (d.u 8 8) = some w → (b.record w).version = d.u 16 4 → segOf d.snap (addrOf (d.u 24 8)) = some e →
    s.paired d.client = false → s1.writeRegion env (s.recordAt (d.u 8 8) w / 64) (b.lineWith w
      ⟨d.u 8 8, nextVersion (d.u 16 4), true, d.client, e.paOf (addrOf (d.u 24 8)), d.u 32 8⟩) true = some x → x.2.1.lost = false → x.1.rcp.run = none →
    exec (.publish k env) s = .next (succeeds (x.1.countWrap (Reg.SHR_CNT (regionHome (d.u 8 8))) Fld.SHR_CNT_published 1)
      { d with waits := x.2.2, rebuilt := d.rebuilt || b.rebuilt || x.2.1.rebuilt } (nextVersion (d.u 16 4)))) ∧
  (∀ (k : DescKey) (env : Env) (d : Desc) (b : RegionBucket) (w : Nat) (s1 : State) (s : State), s.jobOf k 0x07 = some d → s.earlierDone d = true →
    d.progress = 0 → s.on (Reg.SHR_CTL (regionHome (d.u 8 8))) Fld.SHR_CTL_enable = true → (s.coh.actions.any fun a => a.id == d.u 8 8) = false →
    s.bucket env (d.u 8 8) = (s1, some (.ok b)) → wayOf b.records (d.u 8 8) = some w → (b.record w).version ≠ d.u 16 4 → s1.rcp.run = none →
    exec (.publish k env) s = .next (fails (s1.countSat (Reg.SHR_CNT (regionHome (d.u 8 8))) Fld.SHR_CNT_lost 1) { d with rebuilt := d.rebuilt || b.rebuilt } 0x5001 (b.record w).version))

/-- LEASE_RENEW of an ID that a segment of the client names takes the first free entry of its queue engine: ACTIVE, with the client and the first whole ms at or after the issue instant and the duration; of an ACTIVE entry it never moves the expiry back; its result is the expiry in ns. Of an ID that no segment names it ends with 0x4002 and is counted. LEASE_EXPIRY at the expiry, and LEASE_REVOKE at once, put an ACTIVE entry into DRAINING, with the count and event 0x0B01; LEASE_REVOKE of another entry is logged. LEASE_RELEASE clears a RECLAIMED entry. LEASE_DRAIN_COMPLETE with no earlier descriptor left reclaims the entry without zero_fill and starts its fill with it; LEASE_FILL_COMPLETE ends the fill. -/
def Obligations.LeasesRun : Prop :=
  (∀ (k : DescKey) (d : Desc) (e : Nat) (s : State), RegsKept s → s.jobOf k 0x08 = some d → d.key = k → s.rcp.run = none → s.leaseOf d.client (d.u 8 8) = none →
    ((s.validSegs d.client).any fun x => x.lease == d.u 8 8) = true → d.u 16 4 ≠ 0 → renewTo d.issueNt (d.u 16 4) < 2 ^ Fld.SHR_LEASE1_expiry_ms.width →
    ((List.range 256).find? fun e => s.fld (Reg.SHR_LEASE1 k.q e) Fld.SHR_LEASE1_state == 0) = some e →
    Gives (exec (.leaseRenew k) s) fun t =>
      t.reg (Reg.SHR_LEASE0 k.q e) = BitVec.ofNat 64 (d.u 8 8) ∧ t.leaseState k.q e = 1 ∧ t.fld (Reg.SHR_LEASE1 k.q e) Fld.SHR_LEASE1_client = d.client ∧
      t.fld (Reg.SHR_LEASE1 k.q e) Fld.SHR_LEASE1_expiry_ms = renewTo d.issueNt (d.u 16 4) ∧
      t = { succeeds s d (renewTo d.issueNt (d.u 16 4) * 1000000) with regs := t.regs } ∧
      RegsBut s t (Reg.SHR_LEASE0 k.q e :: (List.range 256).map (Reg.SHR_LEASE1 k.q))) ∧
  (∀ (k : DescKey) (d : Desc) (e : Nat) (s : State), RegsKept s → s.jobOf k 0x08 = some d → d.key = k → s.rcp.run = none → s.leaseOf d.client (d.u 8 8) = some e →
    s.leaseState k.q e = 1 → d.issueNt < s.fld (Reg.SHR_LEASE1 k.q e) Fld.SHR_LEASE1_expiry_ms * 1000000 →
    d.u 16 4 ≠ 0 → renewTo d.issueNt (d.u 16 4) < 2 ^ Fld.SHR_LEASE1_expiry_ms.width →
    Gives (exec (.leaseRenew k) s) fun t =>
      t.fld (Reg.SHR_LEASE1 k.q e) Fld.SHR_LEASE1_expiry_ms = max (s.fld (Reg.SHR_LEASE1 k.q e) Fld.SHR_LEASE1_expiry_ms) (renewTo d.issueNt (d.u 16 4)) ∧
      t = { succeeds s d (max (s.fld (Reg.SHR_LEASE1 k.q e) Fld.SHR_LEASE1_expiry_ms) (renewTo d.issueNt (d.u 16 4)) * 1000000) with regs := t.regs } ∧ RegsBut s t [Reg.SHR_LEASE1 k.q e]) ∧
  (∀ (k : DescKey) (d : Desc) (s : State), RegsKept s → s.jobOf k 0x08 = some d → d.key = k → s.rcp.run = none → s.leaseOf d.client (d.u 8 8) = none →
    ((s.validSegs d.client).any fun x => x.lease == d.u 8 8) = false →
    Gives (exec (.leaseRenew k) s) fun t =>
      t.fld (Reg.SHR_CNT k.q) Fld.SHR_CNT_renew_refused = satAdd Fld.SHR_CNT_renew_refused.width (s.fld (Reg.SHR_CNT k.q) Fld.SHR_CNT_renew_refused) 1 ∧
      t = { fails s d 0x4002 0 with regs := t.regs } ∧ RegsBut s t [Reg.SHR_CNT k.q]) ∧
  (∀ (q : Quad) (e : Fin 256) (s : State), RegsKept s → EventRoom s → s.leaseState q e = 1 → s.fld (Reg.SHR_LEASE1 q e) Fld.SHR_LEASE1_expiry_ms * 1000000 ≤ s.nt →
    s.workStopped = false → s.paired (s.fld (Reg.SHR_LEASE1 q e) Fld.SHR_LEASE1_client) = false →
    Gives (exec (.leaseExpiry q e) s) fun t =>
      t.leaseState q e = 2 ∧ t.fld (Reg.SHR_CNT q) Fld.SHR_CNT_expired = satAdd Fld.SHR_CNT_expired.width (s.fld (Reg.SHR_CNT q) Fld.SHR_CNT_expired) 1 ∧
      Tells s t 0x0B01 5 q ∧ t = { s with regs := t.regs, events := t.events } ∧ RegsBut s t [Reg.SHR_LEASE1 q e, Reg.SHR_CNT q, Reg.EVT_PENDING]) ∧
  (∀ (path : Path) (q : Quad) (value : Word) (s : State), RegsKept s → EventRoom s → s.leaseState q (getF value Fld.SHR_LEASE_CTL_index) = 1 →
    getF value Fld.SHR_LEASE_CTL_release = 0 →
    Gives (exec (.leaseRevoke path q value) s) fun t =>
      t.leaseState q (getF value Fld.SHR_LEASE_CTL_index) = 2 ∧
      t.fld (Reg.SHR_LEASE1 q (getF value Fld.SHR_LEASE_CTL_index)) Fld.SHR_LEASE1_expiry_ms = s.nt / 1000000 % 2 ^ Fld.SHR_LEASE1_expiry_ms.width ∧
      Tells s t 0x0B01 5 q ∧ RegsBut s t [Reg.SHR_LEASE_CTL q, Reg.SHR_LEASE1 q (getF value Fld.SHR_LEASE_CTL_index), Reg.SHR_CNT q, Reg.EVT_PENDING]) ∧
  (∀ (path : Path) (q : Quad) (value : Word) (s : State), RegsKept s → s.leaseState q (getF value Fld.SHR_LEASE_CTL_index) ≠ 1 → getF value Fld.SHR_LEASE_CTL_release = 0 →
    Gives (exec (.leaseRevoke path q value) s) fun t =>
      t.fld Reg.GLB_CFG_VIOL Fld.GLB_CFG_VIOL_kind = 4 ∧ t.fld Reg.GLB_CFG_VIOL Fld.GLB_CFG_VIOL_offset = Reg.SHR_LEASE_CTL q ∧
      RegsBut s t [Reg.SHR_LEASE_CTL q, Reg.GLB_CFG_VIOL]) ∧
  (∀ (path : Path) (q : Quad) (value : Word) (s : State), RegsKept s → s.leaseState q (getF value Fld.SHR_LEASE_CTL_index) = 4 → getF value Fld.SHR_LEASE_CTL_revoke = 0 →
    Gives (exec (.leaseRelease path q value) s) fun t =>
      t.reg (Reg.SHR_LEASE0 q (getF value Fld.SHR_LEASE_CTL_index)) = 0 ∧ t.reg (Reg.SHR_LEASE1 q (getF value Fld.SHR_LEASE_CTL_index)) = 0 ∧
      RegsBut s t [Reg.SHR_LEASE_CTL q, Reg.SHR_LEASE0 q (getF value Fld.SHR_LEASE_CTL_index), Reg.SHR_LEASE1 q (getF value Fld.SHR_LEASE_CTL_index)]) ∧
  (∀ (q : Quad) (e : Fin 256) (env : Env) (s : State), RegsKept s → EventRoom s → s.leaseState q e = 2 → s.workStopped = false →
    s.runs (s.fld (Reg.SHR_LEASE1 q e) Fld.SHR_LEASE1_client) = true → (∀ d ∈ s.que.descs, d.client ≠ s.fld (Reg.SHR_LEASE1 q e) Fld.SHR_LEASE1_client ∨ (d.phase = .fetched ∧ d.journal ≠ 2)) →
    s.on (Reg.SHR_CTL q) Fld.SHR_CTL_zero_fill = false →
    Gives (exec (.leaseDrainComplete q e env) s) fun t =>
      t.leaseState q e = 4 ∧ Tells s t 0x0B01 5 q ∧ t = { s with regs := t.regs, events := t.events } ∧ RegsBut s t [Reg.SHR_LEASE1 q e, Reg.EVT_PENDING]) ∧
  (∀ (q : Quad) (e : Fin 256) (env : Env) (pages : List Nat) (skipped : Bool) (s : State), RegsKept s → s.leaseState q e = 2 → s.workStopped = false →
    s.runs (s.fld (Reg.SHR_LEASE1 q e) Fld.SHR_LEASE1_client) = true → (∀ d ∈ s.que.descs, d.client ≠ s.fld (Reg.SHR_LEASE1 q e) Fld.SHR_LEASE1_client ∨ (d.phase = .fetched ∧ d.journal ≠ 2)) →
    s.on (Reg.SHR_CTL q) Fld.SHR_CTL_zero_fill = true →
    (s.leasePages env (s.fld (Reg.SHR_LEASE1 q e) Fld.SHR_LEASE1_client) (s.reg (Reg.SHR_LEASE0 q e)).toNat).2 = some (pages, skipped) →
    Gives (exec (.leaseDrainComplete q e env) s) fun t => t.leaseState q e = 3 ∧ t.leaseFills = s.leaseFills ++ [⟨q, e, pages, skipped⟩]) ∧
  (∀ (q : Quad) (e : Fin 256) (env : Env) (f : LeaseFill) (x s : State), s.workStopped = false → (s.leaseFills.find? fun f => f.q == q.val && f.e == e.val) = some f →
    s.zeroPages env f.pages = some x → RegsKept x →
    Gives (exec (.leaseFillComplete q e env) s) fun t =>
      t.leaseState q e = 4 ∧ t.leaseFills = x.leaseFills.erase f ∧ t.pool = x.pool ∧ RegsBut x t [Reg.SHR_LEASE1 q e, Reg.EVT_PENDING, Reg.EVT_CNT])

/-- FLUSH with an empty directory looks its lines up, ends with result 0 and asks nothing; with one, it has the home write that line back and then ends, waiting for the mirror ranges of the write. LOSS_EVENT_COMPLETE of a walked loss event with no lost lines and no region table in an enabled slab: the loss is over, the count of events rises, event 0x0801 is raised, and busy is cleared where no agent is being removed. -/
def Obligations.FlushAndLoss : Prop :=
  (∀ (k : DescKey) (env : Env) (d : Desc) (e : SegEnt) (s : State), s.jobOf k 0x05 = some d → s.rcp.run = none → segOf d.snap (addrOf (d.u 8 8)) = some e →
    ((List.range 4).flatMap fun q => s.coh.dir.getD q []) = [] →
    exec (.flush k env) s = .next (succeeds (flushCounted s d e []) d 0)) ∧
  (∀ (k : DescKey) (env : Env) (d : Desc) (e : SegEnt) (x : DirEntry) (g : State × Granted) (s : State), s.jobOf k 0x05 = some d →
    segOf d.snap (addrOf (d.u 8 8)) = some e → ((List.range 4).flatMap fun q => s.coh.dir.getD q []) = [x] → 2 ≤ x.state →
    e.paOf (addrOf (d.u 8 8)) / 64 ≤ x.line → x.line ≤ (e.paOf (addrOf (d.u 8 8)) + d.u 16 8 - 1) / 64 → (s.homeOf x.line).isSome = true →
    s.serve env ⟨.agent 15, 0, .flush, x.line, 0, []⟩ = some g → g.1.rcp.run = none →
    exec (.flush k env) s = .next (succeeds (flushCounted g.1 d e [x.line]) { d with waits := d.waits ++ g.2.ids } 0)) ∧
  (∀ (ecc : EccList) (l : Loss) (s : State), RegsKept s → EventRoom s → s.workStopped = false → s.coh.losses = [l] → l.walked = true → l.lines = [] →
    (∀ q : Quad, s.inSlabs (s.fld (Reg.SHR_RGN_BASE q) Fld.SHR_RGN_BASE_base) (2 ^ 21) = false) →
    Gives (exec (.lossEventComplete ecc) s) fun t =>
      t.coh = { s.coh with losses := [], lossWaits := t.coh.lossWaits } ∧
      t.fld (Reg.COH_LLL_STATUS 0) Fld.COH_LLL_STATUS_events = (s.fld (Reg.COH_LLL_STATUS 0) Fld.COH_LLL_STATUS_events + 1) % 2 ^ Fld.COH_LLL_STATUS_events.width ∧
      (((List.range 8).all fun a => s.agentState a != 2) = true → t.on (Reg.ILC_AGENT_CTL 0) Fld.ILC_AGENT_CTL_busy = false) ∧
      Tells s t 0x0801 7 0 ∧ t = { s with regs := t.regs, coh := t.coh, events := t.events } ∧
      RegsBut s t [Reg.COH_LLL_STATUS 0, Reg.ILC_AGENT_CTL 0, Reg.EVT_PENDING])

/-- At port A, for a request that passes the checks of R156 at a word of its owner's window: a write of the whole word stores its 32 bytes, and every other word of every bank reads as before (the first write to a line leaves its other bytes 0); a read without an uncorrectable error delivers the bytes and counts the corrected ones. An owner code that a port does not serve is refused with kind 0, a word past the window with its kind, in BNK_FAULT. When both ports write one word, port B collides, is counted and goes after port A. An atomic stores the lanes of its mask and delivers the old word at its port where its requester wants it; with no request at either port nothing changes. -/
def Obligations.BankAccesses : Prop :=
  (∀ (st : Setting) (tag : Fin 16) (oa : Nat) (data : List Byte) (ecc : List EccResult) (bi k : Nat) (s : State), Canonical s → data.length = 32 → oa % 32 = 0 →
    (s.reqVerdict st .a ⟨tag, oa, false, .write data, ecc⟩).1 = .ok → s.reqPlace st ⟨tag, oa, false, .write data, ecc⟩ = some (bi, k) →
    Gives (exec (.bankAccess st (some ⟨tag, oa, false, .write data, ecc⟩) none []) s) fun t =>
      t.bankWord bi k = data ∧ t.lineWritten bi k = true ∧ BanksBut s t [(bi, k)] ∧ t = { s with banks := { s.banks with cells := t.banks.cells, written := t.banks.written } }) ∧
  (∀ (st : Setting) (tag : Fin 16) (oa n : Nat) (ecc : List EccResult) (bi k : Nat) (s : State), RegsKept s → ecc.any eccFails = false →
    (s.reqVerdict st .a ⟨tag, oa, false, .read n, ecc⟩).1 = .ok → s.reqPlace st ⟨tag, oa, false, .read n, ecc⟩ = some (bi, k) →
    Gives (exec (.bankAccess st (some ⟨tag, oa, false, .read n, ecc⟩) none []) s) fun t =>
      t.banks = { s.banks with gotA := slice (s.bankWord bi k) (oa % 32) n } ∧
      t.fld (Reg.BNK_CNT (st / 8) (st % 8)) Fld.BNK_CNT_corrected =
        satAdd Fld.BNK_CNT_corrected.width (s.fld (Reg.BNK_CNT (st / 8) (st % 8)) Fld.BNK_CNT_corrected) (ecc.filter fun x => x == .corrected).length ∧
      t = { s with regs := t.regs, banks := t.banks } ∧ RegsBut s t [Reg.BNK_CNT (st / 8) (st % 8)]) ∧
  (∀ (st : Setting) (r : BankReq) (s : State), RegsKept s → portServes .b r.tag = false →
    Gives (exec (.bankAccess st none (some r) []) s) fun t => BankRefused s t st 0 r.tag 0) ∧
  (∀ (st : Setting) (r : BankReq) (kind bank : Nat) (s : State), RegsKept s → kind < 8 → s.reqVerdict st .a r = (.refused kind, bank) →
    Gives (exec (.bankAccess st (some r) none []) s) fun t => BankRefused s t st bank r.tag kind) ∧
  (∀ (st : Setting) (tag : Fin 16) (oa : Nat) (x y : List Byte) (bi k : Nat) (s : State), Canonical s → Unwatched s → x.length = 32 → y.length = 32 → oa % 32 = 0 →
    (s.reqVerdict st .a ⟨tag, oa, false, .write x, []⟩).1 = .ok → (s.reqVerdict st .b ⟨tag, oa, false, .write y, []⟩).1 = .ok →
    s.reqPlace st ⟨tag, oa, false, .write x, []⟩ = some (bi, k) →
    Gives (exec (.bankAccess st (some ⟨tag, oa, false, .write x, []⟩) (some ⟨tag, oa, false, .write y, []⟩) []) s) fun t =>
      t.bankWord bi k = y ∧ BanksBut s t [(bi, k)] ∧
      t.fld (Reg.BNK_CNT (st / 8) (st % 8)) Fld.BNK_CNT_collisions = satAdd Fld.BNK_CNT_collisions.width (s.fld (Reg.BNK_CNT (st / 8) (st % 8)) Fld.BNK_CNT_collisions) 1 ∧
      RegsBut s t [Reg.BNK_CNT (st / 8) (st % 8)]) ∧
  (∀ (st : Setting) (port : Port) (tag : Fin 16) (oa : Nat) (op : LaneOp) (mask : Fin 256) (operand : List Byte) (ret : Bool) (ecc : List EccResult) (bi k : Nat) (s : State), Canonical s →
    ecc.any eccFails = false → (s.reqVerdict st port ⟨tag, oa, false, .atomic op mask operand ret, ecc⟩).1 = .ok →
    s.reqPlace st ⟨tag, oa, false, .atomic op mask operand ret, ecc⟩ = some (bi, k) →
    Gives (exec (.bankAtomic st port tag oa op mask ⟨operand, ret, ecc⟩ none) s) fun t =>
      t.bankWord bi k = laneWord op mask (s.bankWord bi k) operand ∧ BanksBut s t [(bi, k)] ∧
      t.banks.gotA = (if ret && port == .a then s.bankWord bi k else s.banks.gotA) ∧ t.banks.gotB = (if ret && port == .b then s.bankWord bi k else s.banks.gotB) ∧
      t = { s with regs := t.regs, banks := { s.banks with cells := t.banks.cells, written := t.banks.written, gotA := t.banks.gotA, gotB := t.banks.gotB } } ∧
      RegsBut s t [Reg.BNK_CNT (st / 8) (st % 8)]) ∧
  (∀ (st : Setting) (s : State), exec (.bankAccess st none none []) s = .next s)

/-- BANK_OWNER_WRITE with a new owner code and the power as it is changes the owner at once and sets busy; BANK_POWER_ON, _RETENTION and _OFF set the power field and start the transition; BANK_CLEAR starts a clear. BANK_POWER_TRANSITION_DONE reaches the state, and a bank that goes off is empty; BANK_CLEAR_DONE leaves the bank empty; HANDOVER_GRANT ends the handover, and a bank granted to the test engine starts its whole-bank test. BANK_REGION_TEST_START tests the next region; BANK_REGION_TEST_END of a pass goes on, a first failure repairs the region, counted, with event 0x0601, and the failure of a second region marks the bank failed. WHOLE_BANK_TEST_DONE sets the result and leaves the bank empty. A change of owner while busy is logged with kind 4. -/
def Obligations.BanksAreManaged : Prop :=
  (∀ (path : Path) (st : Setting) (b : Fin 64) (value : Word) (s : State), RegsKept s → getF value Fld.BNK_BANK_owner ≠ s.bankOwner (bankIndex st b) →
    getF value Fld.BNK_BANK_owner < 12 → s.bankOwner (bankIndex st b) ≠ 10 → s.on (bankReg (bankIndex st b)) Fld.BNK_BANK_busy = false →
    getF value Fld.BNK_BANK_power = s.fld (bankReg (bankIndex st b)) Fld.BNK_BANK_power → getF value Fld.BNK_BANK_clear = 0 →
    bankIndex st b ∉ s.banks.whole → s.banks.testing.getD st none = none →
    Gives (exec (.bankOwnerWrite path st b value) s) fun t =>
      t.bankOwner (bankIndex st b) = getF value Fld.BNK_BANK_owner ∧ t.on (bankReg (bankIndex st b)) Fld.BNK_BANK_busy = true ∧
      t = { s with regs := t.regs, banks := { s.banks with handovers := s.banks.handovers ++ [⟨bankIndex st b, s.bankOwner (bankIndex st b), getF value Fld.BNK_BANK_owner, false⟩] } } ∧
      RegsBut s t [bankReg (bankIndex st b)]) ∧
  (∀ (path : Path) (st : Setting) (b : Fin 64) (value : Word) (s : State), RegsKept s → getF value Fld.BNK_BANK_owner = s.bankOwner (bankIndex st b) →
    getF value Fld.BNK_BANK_clear = 0 → s.on (bankReg (bankIndex st b)) Fld.BNK_BANK_busy = false → s.fld (bankReg (bankIndex st b)) Fld.BNK_BANK_power ≠ 0 →
    s.bankPower (bankIndex st b) ≠ 0 →
    Gives (exec (.bankPowerOn path st b value) s) fun t =>
      t.fld (bankReg (bankIndex st b)) Fld.BNK_BANK_power = 0 ∧ t.on (bankReg (bankIndex st b)) Fld.BNK_BANK_busy = true ∧
      t = { s with regs := t.regs, banks := { s.banks with powering := s.banks.powering ++ [(bankIndex st b, s.bankPower (bankIndex st b), 0)] } } ∧
      RegsBut s t [bankReg (bankIndex st b)]) ∧
  (∀ (path : Path) (st : Setting) (b : Fin 64) (value : Word) (s : State), RegsKept s → getF value Fld.BNK_BANK_owner = s.bankOwner (bankIndex st b) →
    getF value Fld.BNK_BANK_clear = 0 → s.on (bankReg (bankIndex st b)) Fld.BNK_BANK_busy = false → s.fld (bankReg (bankIndex st b)) Fld.BNK_BANK_power ≠ 1 →
    s.bankOwner (bankIndex st b) ≠ 9 → s.bankOwner (bankIndex st b) ≠ 10 →
    Gives (exec (.bankPowerRetention path st b value) s) fun t =>
      t.fld (bankReg (bankIndex st b)) Fld.BNK_BANK_power = 1 ∧ t.on (bankReg (bankIndex st b)) Fld.BNK_BANK_busy = true ∧
      t = { s with regs := t.regs, banks := { s.banks with powering := s.banks.powering ++ [(bankIndex st b, s.bankPower (bankIndex st b), 1)] } } ∧
      RegsBut s t [bankReg (bankIndex st b)]) ∧
  (∀ (path : Path) (st : Setting) (b : Fin 64) (value : Word) (s : State), RegsKept s → getF value Fld.BNK_BANK_owner = s.bankOwner (bankIndex st b) →
    getF value Fld.BNK_BANK_clear = 0 → s.on (bankReg (bankIndex st b)) Fld.BNK_BANK_busy = false → s.fld (bankReg (bankIndex st b)) Fld.BNK_BANK_power ≠ 2 →
    s.bankOwner (bankIndex st b) ≠ 9 → s.bankOwner (bankIndex st b) ≠ 10 →
    Gives (exec (.bankPowerOff path st b value) s) fun t =>
      t.fld (bankReg (bankIndex st b)) Fld.BNK_BANK_power = 2 ∧ t.on (bankReg (bankIndex st b)) Fld.BNK_BANK_busy = true ∧
      t = { s with regs := t.regs, banks := { s.banks with powering := s.banks.powering ++ [(bankIndex st b, s.bankPower (bankIndex st b), 2)] } } ∧
      RegsBut s t [bankReg (bankIndex st b)]) ∧
  (∀ (st : Setting) (b : Fin 64) (from' target : Nat) (s : State), Canonical s → mwf powerDefault s.banks.power = true →
    (s.banks.powering.find? fun p => p.1 == bankIndex st b) = some (bankIndex st b, from', target) → (s.banks.held.any fun x => x.1 == st.val) = false →
    Gives (exec (.bankPowerTransitionDone st b) s) fun t =>
      t.bankPower (bankIndex st b) = target ∧ t.on (bankReg (bankIndex st b)) Fld.BNK_BANK_busy = false ∧ (target = 2 → BankEmpty t (bankIndex st b)) ∧
      (target ≠ 2 → t.banks.cells = s.banks.cells ∧ t.banks.written = s.banks.written) ∧ RegsBut s t [bankReg (bankIndex st b)]) ∧
  (∀ (path : Path) (st : Setting) (b : Fin 64) (value : Word) (s : State), RegsKept s → getF value Fld.BNK_BANK_owner = s.bankOwner (bankIndex st b) →
    getF value Fld.BNK_BANK_power = s.fld (bankReg (bankIndex st b)) Fld.BNK_BANK_power → s.on (bankReg (bankIndex st b)) Fld.BNK_BANK_busy = false →
    s.banks.testing.getD st none = none →
    Gives (exec (.bankClear path st b value) s) fun t =>
      t.on (bankReg (bankIndex st b)) Fld.BNK_BANK_busy = true ∧
      t = { s with regs := t.regs, banks := { s.banks with handovers := s.banks.handovers ++ [⟨bankIndex st b, s.bankOwner (bankIndex st b), s.bankOwner (bankIndex st b), true⟩] } } ∧
      RegsBut s t [bankReg (bankIndex st b)]) ∧
  (∀ (st : Setting) (b : Fin 64) (s : State), Canonical s → (s.banks.handovers.any fun h => h.bank == bankIndex st b && h.clear) = true → s.bankOwner (bankIndex st b) ≠ 9 → (s.banks.held.any fun x => x.1 == st.val) = false →
    Gives (exec (.bankClearDone st b) s) fun t =>
      BankEmpty t (bankIndex st b) ∧ t.on (bankReg (bankIndex st b)) Fld.BNK_BANK_busy = false ∧
      t.banks.handovers = (s.banks.handovers.filter fun h => !(h.bank == bankIndex st b && h.clear)) ∧ RegsBut s t [bankReg (bankIndex st b)]) ∧
  (∀ (st : Setting) (b r : Nat) (s : State), RegsKept s → s.workStopped = false → s.on (Reg.BNK_CTL (st / 8)) Fld.BNK_CTL_enable = true →
    s.on (Reg.BNK_CTL (st / 8)) Fld.BNK_CTL_test_enable = true → s.banks.testing.getD st none = none → s.nextRegion st = some (b, r) →
    s.banks.testNt.getD st 0 + s.fld (Reg.BNK_CTL (st / 8)) Fld.BNK_CTL_test_interval * 1000 ≤ s.nt →
    Gives (exec (.bankRegionTestStart st) s) fun t =>
      t.on (bankReg (st * 64 + b)) Fld.BNK_BANK_testing = true ∧
      t = { s with regs := t.regs, banks := { s.banks with testing := s.banks.testing.set st (some (b, r)), testNt := s.banks.testNt.set st s.nt } } ∧ RegsBut s t [bankReg (st * 64 + b)]) ∧
  (∀ (st : Setting) (b r : Nat) (s : State), RegsKept s → b < 64 → s.banks.testing.getD st none = some (b, r) →
    Gives (exec (.bankRegionTestEnd st true) s) fun t =>
      t.on (bankReg (st * 64 + b)) Fld.BNK_BANK_testing = false ∧
      t = { s with regs := t.regs, banks := { s.banks with testing := s.banks.testing.set st none, testNext := s.banks.testNext.set st ((b * 256 + r + 1) % 16384) } } ∧
      RegsBut s t [bankReg (st * 64 + b)]) ∧
  (∀ (st : Setting) (b r : Nat) (s : State), RegsKept s → EventRoom s → b < 64 → s.banks.testing.getD st none = some (b, r) → s.on (bankReg (st * 64 + b)) Fld.BNK_BANK_repaired = false →
    Gives (exec (.bankRegionTestEnd st false) s) fun t =>
      t.on (bankReg (st * 64 + b)) Fld.BNK_BANK_testing = false ∧ t.on (bankReg (st * 64 + b)) Fld.BNK_BANK_repaired = true ∧
      t.fld (Reg.BNK_CNT (st / 8) (st % 8)) Fld.BNK_CNT_test_fails = satAdd Fld.BNK_CNT_test_fails.width (s.fld (Reg.BNK_CNT (st / 8) (st % 8)) Fld.BNK_CNT_test_fails) 1 ∧
      t.banks.repaired = ((st * 64 + b, r) :: s.banks.repaired.filter (· != (st * 64 + b, r))) ∧ t.banks.cells = s.banks.cells ∧ Tells s t 0x0601 1 st ∧
      RegsBut s t [bankReg (st * 64 + b), Reg.BNK_CNT (st / 8) (st % 8), Reg.EVT_PENDING]) ∧
  (∀ (st : Setting) (b : Fin 64) (s : State), Canonical s → bankIndex st b ∈ s.banks.whole →
    Gives (exec (.wholeBankTestDone st b true) s) fun t =>
      t.fld (bankReg (bankIndex st b)) Fld.BNK_BANK_test_result = 1 ∧ BankEmpty t (bankIndex st b) ∧ t.banks.whole = (s.banks.whole.filter (· != bankIndex st b)) ∧
      RegsBut s t [bankReg (bankIndex st b)]) ∧
  (∀ (st : Setting) (b : Fin 64) (h : Handover) (s : State), RegsKept s → s.workStopped = false →
    (s.banks.handovers.find? fun h => h.bank == bankIndex st b && !h.clear) = some h → h.old ≠ 9 → h.old ≠ 10 → h.new ≠ 9 → (s.banks.held.any fun x => x.1 == st.val) = false →
    Gives (exec (.handoverGrant st b) s) fun t =>
      t.on (bankReg (bankIndex st b)) Fld.BNK_BANK_busy = false ∧
      t = { s with regs := t.regs, banks := { s.banks with
        handovers := s.banks.handovers.erase h
        whole := if h.new = 11 then s.banks.whole ++ [bankIndex st b] else s.banks.whole } } ∧ RegsBut s t [bankReg (bankIndex st b)]) ∧
  (∀ (path : Path) (st : Setting) (b : Fin 64) (value : Word) (s : State), RegsKept s → getF value Fld.BNK_BANK_owner ≠ s.bankOwner (bankIndex st b) →
    s.on (bankReg (bankIndex st b)) Fld.BNK_BANK_busy = true → getF value Fld.BNK_BANK_power = s.fld (bankReg (bankIndex st b)) Fld.BNK_BANK_power → getF value Fld.BNK_BANK_clear = 0 →
    Gives (exec (.bankOwnerWrite path st b value) s) fun t => Logged s t path 4 (bankReg (bankIndex st b))) ∧
  (∀ (st : Setting) (b r : Nat) (s : State), RegsKept s → EventRoom s → b < 64 → s.banks.testing.getD st none = some (b, r) → s.on (bankReg (st * 64 + b)) Fld.BNK_BANK_repaired = true →
    s.banks.repaired.contains (st * 64 + b, r) = false →
    Gives (exec (.bankRegionTestEnd st false) s) fun t =>
      t.on (bankReg (st * 64 + b)) Fld.BNK_BANK_failed = true ∧ t.banks.repaired = s.banks.repaired ∧ Tells s t 0x0601 1 st ∧
      RegsBut s t [bankReg (st * 64 + b), Reg.BNK_CNT (st / 8) (st % 8), Reg.EVT_PENDING])

/-- INSTANCE_START of the operation that is next takes the next number, with the loop indices, and moves the run on, where its units are enabled, fewer than 8 instances are in flight and it depends on none of them. INSTANCE_COMPLETE of the last instance of a run past its last operation ends the run with the tokens as its result, counts it, and closes its channels. LOOP enters its body with index 0; BARRIER with no instance in flight moves on. RCP_LOAD and RCP_UNLOAD set busy, and an unload clears the slot's valid bit; while busy the slot takes the write and the action is logged with kind 4. RCP_LOAD_DONE ends an unload, and ends a load from space 1 that fails a check with that check's number and index. -/
def Obligations.RecipesRun : Prop :=
  (∀ (r : Run) (d : Desc) (o : Op) (s : State), Unwatched s → s.sequencer = some (r, d, o) → o.code ≠ 0x10 → o.code ≠ 0x11 → s.acceptsOp r.key.q o.code = true → r.insts.length < 8 →
    (r.insts.any fun i => r.recipe.depends (r.opOf i) o) = false →
    exec .instanceStart s = .next { s with
      rcp := { s.rcp with run := some { r.advance with
        next := r.next + 1
        insts := r.insts ++ [{ n := r.next, op := r.pc, outer := r.outer, inner := r.inner, layer := r.layer, begun := false, row := 0, done := false, waits := [], nt := s.nt, status := 0 }] } }
      loupe := { s.loupe with wdog := s.loupe.wdog.set r.key.q 0 } }) ∧
  (∀ (n : Nat) (r : Run) (i : Inst) (d : Desc) (s : State), RegsKept s → Unwatched s → s.inst n = some (r, i, d) → i.done = true → s.workStopped = false →
    s.rcp.jobs = [] → s.rcp.transfers = [] → s.rcp.sums = [] → s.rcp.sends = [] → s.mirrorOpen i.waits = false → s.mirrorOpen d.waits = false →
    s.operandWrites r.key (fun p => p / 2 ^ 64 == n + 1) = [] →
    (r.insts.filter fun x => x.n != n) = [] → r.recipe.ops.length ≤ r.pc → r.failed = false → d.pieces = [] →
    Gives (exec (.instanceComplete n) s) fun t =>
      t.rcp = { s.rcp with run := none, channels := s.rcp.channels.filter fun c => c.key != r.key } ∧
      t.que = (succeeds s d r.tokens).que ∧
      t.fld (Reg.RCP_CNT r.key.q) Fld.RCP_CNT_runs = (s.fld (Reg.RCP_CNT r.key.q) Fld.RCP_CNT_runs + 1) % 2 ^ Fld.RCP_CNT_runs.width ∧ RegsBut s t [Reg.RCP_CNT r.key.q]) ∧
  (∀ (r : Run) (d : Desc) (o : Op) (s : State), s.sequencer = some (r, d, o) → o.code = 0x10 →
    exec .loop s = .next { s with rcp := { s.rcp with run := some { r with loops := (r.pc, 0) :: r.loops, pc := r.pc + 1 } } }) ∧
  (∀ (r : Run) (d : Desc) (o : Op) (s : State), s.sequencer = some (r, d, o) → o.code = 0x11 → r.insts = [] → r.advance.pc < r.recipe.ops.length →
    exec .barrier s = .next { s with rcp := { s.rcp with run := some r.advance } }) ∧
  (∀ (path : Path) (value : Word) (s : State), RegsKept s → s.on (Reg.RCP_LOAD_CTL 0) Fld.RCP_LOAD_CTL_busy = false →
    Gives (exec (.rcpLoad path value) s) fun t =>
      t.on (Reg.RCP_LOAD_CTL 0) Fld.RCP_LOAD_CTL_busy = true ∧
      t.rcp = { s.rcp with loading := some ⟨getF value Fld.RCP_LOAD_CTL_slot, (s.reg (Reg.RCP_LOAD_SRC 0)).toNat, true⟩ } ∧
      RegsBut s t [Reg.RCP_LOAD_CTL 0]) ∧
  (∀ (path : Path) (value : Word) (s : State), RegsKept s → s.on (Reg.RCP_LOAD_CTL 0) Fld.RCP_LOAD_CTL_busy = false → getF value Fld.RCP_LOAD_CTL_go = 0 →
    Gives (exec (.rcpUnload path value) s) fun t =>
      t.on (Reg.RCP_LOAD_CTL 0) Fld.RCP_LOAD_CTL_busy = true ∧ t.storeValid (getF value Fld.RCP_LOAD_CTL_slot) = false ∧
      t.rcp = { s.rcp with loading := some ⟨getF value Fld.RCP_LOAD_CTL_slot, (s.reg (Reg.RCP_LOAD_SRC 0)).toNat, false⟩ } ∧
      RegsBut s t [Reg.RCP_LOAD_CTL 0, Reg.RCP_VALID 0 (getF value Fld.RCP_LOAD_CTL_slot / 64)]) ∧
  (∀ (path : Path) (value : Word) (s : State), RegsKept s → s.on (Reg.RCP_LOAD_CTL 0) Fld.RCP_LOAD_CTL_busy = true →
    Gives (exec (.rcpLoad path value) s) (fun t => Logged (s.setFld (Reg.RCP_LOAD_CTL 0) Fld.RCP_LOAD_CTL_slot (getF value Fld.RCP_LOAD_CTL_slot)) t path 4 (Reg.RCP_LOAD_CTL 0)) ∧
    Gives (exec (.rcpUnload path value) s) (fun t => Logged (s.setFld (Reg.RCP_LOAD_CTL 0) Fld.RCP_LOAD_CTL_slot (getF value Fld.RCP_LOAD_CTL_slot)) t path 4 (Reg.RCP_LOAD_CTL 0))) ∧
  (∀ (env : Env) (l : Loading) (s : State), RegsKept s → s.rcp.loading = some l → l.load = false → s.workStopped = false →
    Gives (exec (.rcpLoadDone env) s) fun t =>
      t.on (Reg.RCP_LOAD_CTL 0) Fld.RCP_LOAD_CTL_busy = false ∧ t.rcp = { s.rcp with loading := none } ∧ RegsBut s t [Reg.RCP_LOAD_CTL 0]) ∧
  (∀ (env : Env) (l : Loading) (code index : Nat) (s : State), RegsKept s → s.rcp.loading = some l → l.load = true → s.workStopped = false → spaceOf l.src = 1 →
    s.ilcActive = true → env.extFail = false → loadCheck (padTo 6208 env.ext) = (code, index) → code ≠ 0 → l.slot < 1024 →
    Gives (exec (.rcpLoadDone env) s) fun t =>
      t.on (Reg.RCP_LOAD_CTL 0) Fld.RCP_LOAD_CTL_busy = false ∧ t.fld (Reg.RCP_LOAD_STATUS 0) Fld.RCP_LOAD_STATUS_result = code % 2 ^ Fld.RCP_LOAD_STATUS_result.width ∧
      t.fld (Reg.RCP_LOAD_STATUS 0) Fld.RCP_LOAD_STATUS_index = index % 2 ^ Fld.RCP_LOAD_STATUS_index.width ∧
      t.fld (Reg.RCP_LOAD_STATUS 0) Fld.RCP_LOAD_STATUS_slot = l.slot % 2 ^ Fld.RCP_LOAD_STATUS_slot.width ∧
      Sends s t (.ilcenRead (addrOf l.src) 6208) ∧ t.rcp = { s.rcp with loading := none } ∧ t.pool = s.pool ∧
      RegsBut s t [Reg.RCP_LOAD_CTL 0, Reg.RCP_LOAD_STATUS 0])

/-- For an instance whose last batch row is due, with its sources and destination in usable home rows and ordinary rounding: ACT writes its function of the two rows; NORM without a gain the normalised row; SOFTMAX the softmax of each scaled segment; TOPK the index and value pairs; QUANT the row as it is; COMBINE without accumulation the weighted sum; ROPE and GATHER read their TENSOR row over Ilcen and write the rotated, or the copied, row; SCATTER writes the row to its place in the TENSOR and counts its bytes; SAMPLE writes the 32-bit token and counts it. Each is then done. -/
def Obligations.RowOperations : Prop :=
  (∀ (n : Nat) (env : Env) (r : Run) (i : Inst) (d : Desc) (s : State), LastRow s n 0x02 r i d → env.banks = [] → HomeDst s r i → HomeOk s r (src0 r i) i.row →
    r.recipe.slot? (r.opOf i).src1 ≠ none → HomeOk s r (src1 r i) i.row →
    exec (.act ⟨n, env⟩) s = .next (rowDone (rowLoaded (rowLoaded s r (src0 r i) i.row) r (src1 r i) i.row) r i d ((homeRow s r (src0 r i) i.row).zipIdx.map fun p => actFn ((r.opOf i).p 8 1) p.1 ((homeRow s r (src1 r i) i.row).getD p.2 0)))) ∧
  (∀ (n : Nat) (env : Env) (r : Run) (i : Inst) (d : Desc) (s : State), LastRow s n 0x03 r i d → env.banks = [] → HomeDst s r i → HomeOk s r (src0 r i) i.row →
    r.recipe.slot? (r.opOf i).src1 = none →
    exec (.norm n env) s = .next (rowDone (rowLoaded s r (src0 r i) i.row) r i d (normRow ((r.opOf i).p 8 1) ((r.opOf i).p 12 4) (homeRow s r (src0 r i) i.row) []))) ∧
  (∀ (n : Nat) (env : Env) (r : Run) (i : Inst) (d : Desc) (s : State), LastRow s n 0x04 r i d → env.banks = [] → HomeDst s r i → HomeOk s r (src0 r i) i.row →
    CompanionRow s r (src1 r i) → env.extFail = false →
    exec (.rope n env) s = .next (rowDone (rowLoaded (askedRow s r i d (src1 r i) 0) r (src0 r i) i.row) r i d
      (ropeRow ((r.opOf i).p 8 2) ((r.opOf i).p 10 2) (if (r.opOf i).p 12 2 = 0 then (src0 r i).cols / (r.opOf i).p 8 2 else (r.opOf i).p 12 2) (batchAt r.block i.row 8 4)
        (homeRow s r (src0 r i) i.row) (rowWords (src1 r i).fmt (src1 r i).cols (padTo (src1 r i).tensorRow env.ext))))) ∧
  (∀ (n : Nat) (env : Env) (r : Run) (i : Inst) (d : Desc) (s : State), LastRow s n 0x05 r i d → env.banks = [] → HomeDst s r i → HomeOk s r (src0 r i) i.row →
    exec (.softmax ⟨n, env⟩) s = .next (rowDone (rowLoaded s r (src0 r i) i.row) r i d ((segments ((r.opOf i).p 8 2) (homeRow s r (src0 r i) i.row)).flatMap fun g =>
      fsoftmax (g.map fun v => fmul32 (if (r.opOf i).p 12 4 = 0 then 0x3F800000 else (r.opOf i).p 12 4) v)))) ∧
  (∀ (n : Nat) (env : Env) (r : Run) (i : Inst) (d : Desc) (s : State), LastRow s n 0x06 r i d → env.banks = [] → HomeDst s r i → HomeOk s r (src0 r i) i.row →
    exec (.topk ⟨n, env⟩) s = .next (rowDone (rowLoaded s r (src0 r i) i.row) r i d ((segments ((r.opOf i).p 8 2) (homeRow s r (src0 r i) i.row)).flatMap fun g =>
      (List.range (2 * (r.opOf i).p 10 1)).map fun k => (((ranked g).take ((r.opOf i).p 10 1)).flatMap fun j => [j, g.getD j 0]).getD k 0))) ∧
  (∀ (n : Nat) (env : Env) (r : Run) (i : Inst) (d : Desc) (s : State), LastRow s n 0x07 r i d → env.banks = [] → HomeDst s r i → HomeOk s r (src0 r i) i.row →
    exec (.quant ⟨n, env⟩) s = .next (rowDone (rowLoaded s r (src0 r i) i.row) r i d (homeRow s r (src0 r i) i.row))) ∧
  (∀ (n : Nat) (env : Env) (r : Run) (i : Inst) (d : Desc) (s : State), LastRow s n 0x09 r i d → env.banks = [] → HomeDst s r i → HomeOk s r (src0 r i) i.row → HomeOk s r (src1 r i) i.row →
    ((r.opOf i).p 9 1).testBit 0 = false →
    exec (.combine ⟨n, env⟩) s = .next (rowDone (rowLoaded (rowLoaded s r (src0 r i) i.row) r (src1 r i) i.row) r i d ((List.range (dstOf r i).cols).map fun c =>
      (List.range ((r.opOf i).p 8 1 - 1)).foldl (fun acc j =>
          fmadd32 2 ((homeRow s r (src1 r i) i.row).getD (j + 1) 0) ((homeRow s r (src0 r i) i.row).getD ((j + 1) * (dstOf r i).cols + c) 0) acc)
        (fmul32 ((homeRow s r (src1 r i) i.row).getD 0 0) ((homeRow s r (src0 r i) i.row).getD c 0))))) ∧
  (∀ (n : Nat) (env : Env) (r : Run) (i : Inst) (d : Desc) (s : State), LastRow s n 0x0A r i d → HomeDst s r i → CompanionRow s r (src0 r i) → env.extFail = false →
    exec (.gather n env) s = .next (rowDone (askedRow s r i d (src0 r i) (tensorIndex r.block ((r.opOf i).p 8 1) i.row)) r i d
      (rowWords (src0 r i).fmt (src0 r i).cols (padTo (src0 r i).tensorRow env.ext)))) ∧
  (∀ (n : Nat) (env : Env) (r : Run) (i : Inst) (d : Desc) (s : State), LastRow s n 0x0B r i d → env.banks = [] → HomeOk s r (src0 r i) i.row → (r.opOf i).sr = false →
    slotSpace r.block (dstOf r i) = 1 → s.ilcActive = true → toRow (dstOf r i).fmt [] false ((homeRow s r (src0 r i) i.row).map of32) ≠ [] →
    exec (.scatter n env) s = .next (lastDone ((State.noteWork ((rowLoaded s r (src0 r i) i.row).emit
          (.ilcenWrite (slotAddr r.block (dstOf r i) i.outer i.inner + tensorIndex r.block ((r.opOf i).p 8 1) i.row * (dstOf r i).pitch)
          (toRow (dstOf r i).fmt [] false ((homeRow s r (src0 r i) i.row).map of32)))) d.key false []).countBytes
      (toRow (dstOf r i).fmt [] false ((homeRow s r (src0 r i) i.row).map of32)).length) i)) ∧
  (∀ (n : Nat) (env : Env) (r : Run) (i : Inst) (d : Desc) (s : State), LastRow s n 0x0E r i d → env.banks = [] → (src0 r i).kind ≠ 3 → HomeOk s r (src0 r i) i.row →
    slotSpace r.block (dstOf r i) = 1 → s.ilcActive = true →
    exec (.sample n env) s = .next (lastDone (((State.noteWork ((rowLoaded s r (src0 r i) i.row).emit
          (.ilcenWrite (slotAddr r.block (dstOf r i) i.outer i.inner + i.row * (dstOf r i).pitch)
          (leBytes 4 (sampleToken (homeRow s r (src0 r i) i.row) (batchAt r.block i.row 20 2 * 65536) (batchAt r.block i.row 18 2) (batchAt r.block i.row 22 2 * 65536)
            (sampleWord (d.u 24 8 ^^^ batchAt r.block i.row 24 8) (batchAt r.block i.row 8 4) (layerId d (r.opOf i) i.layer)))))) d.key false []).countBytes 4).countToken) i))

/-- RECIPE_RUN of a binding block in companion memory, of a valid slot whose image is read and nothing of R244 refuses, opens the channels of its RECVs and keeps the block; RECIPE_RUN_START then begins the run at its first operation with nothing in flight. REDUCE of the last row over one Setting opens a sum with the partials of its 8 Facets. SEND of the last row of one fragment records its packet and sends it under a tag. RECV of a whole channel closes it and is done. SEND_RETRY, 10 µs after a refusal, sends the packet again. SEND_RETRY_EXPIRY and RECV_TIMEOUT end the instance and fail the run with 0xF002. -/
def Obligations.ChannelsRun : Prop :=
  (∀ (k : DescKey) (env : Env) (d d' : Desc) (s' : State) (image : List Byte) (rebuilt : Bool) (ids : List Nat) (s : State), s.desc k = some d → d.phase = .issued → d.op = 0x10 → d.progress = 0 →
    s.engineUp k.q = true → s.hung k.q = false → spaceOf (d.u 16 8) = 1 → s.ilcActive = true → env.extFail = false →
    (blockAsked s k d).storeValid (d.u 8 2) = true →
    (blockAsked s k d).poolRead env .lineCache [k.q, k.j, k.seq, 9] ((blockAsked s k d).storeAt (d.u 8 2)) 8192 = (s', .ok image rebuilt ids) →
    (recipeOf image).issueRanges (blockOf d env) = [] → (s'.noteRead k rebuilt).runRefused d (recipeOf image) (blockOf d env) = false → (s'.noteRead k rebuilt).desc k = some d' →
    exec (.recipeRun k env) s = .next (State.setDesc { s'.noteRead k rebuilt with
      rcp := { s'.rcp with channels := s'.rcp.channels ++
        ((recipeOf image).ops.zipIdx.filter fun o => o.1.code == 0x13).map fun o => channelOf k (recipeOf image) (blockOf d env) d.batch o.1 o.2 } }
      { d' with progress := 1, delivered := false, pieces := [(0, blockOf d env)] })) ∧
  (∀ (k : DescKey) (env : Env) (d : Desc) (s' : State) (image : List Byte) (rebuilt : Bool) (ids : List Nat) (s : State), s.desc k = some d → d.phase = .started → d.op = 0x10 →
    s.engineUp k.q = true → s.rcp.run = none → s.on (Reg.RCP_CTL k.q) Fld.RCP_CTL_enable = true →
    s.poolRead env .lineCache [k.q, k.j, k.seq, 9] (s.storeAt (d.u 8 2)) 8192 = (s', .ok image rebuilt ids) →
    exec (.recipeRunStart k env) s = .next { s'.noteRead k rebuilt with
      rcp := { s'.rcp with run := some { key := k, image := image, block := (d.pieces.getD 0 (0, [])).2, pc := 0, loops := [], next := 0, insts := []
                                         failed := false, status := 0, detail := 0, bytes := 0, tokens := 0, aborted := [] } } }) ∧
  (∀ (n m : Nat) (env : Env) (r : Run) (i : Inst) (d : Desc) (s : State), LastRow s n 0x08 r i d → env.banks = [] → m < 32 → (r.opOf i).p 12 4 = 2 ^ m →
    (∀ f, f < 8 → (s.windowVerdict m f (slicePlace (src0 r i) i.row) (src0 r i).rowLen).1 = .ok) →
    (s.rcp.sums.any fun y => y.inst == n && y.id == i.row) = false →
    exec (.reduce ⟨n, env⟩) s = .next (lastDone { s with
      rcp := { s.rcp with sums := s.rcp.sums ++ [{
        inst := n, id := i.row, dest := homeSt r.block i.row
        moving := (List.range 8).map fun f => (m, rowWords (src0 r i).fmt (src0 r i).width (s.readWindow m f (slicePlace (src0 r i) i.row) (src0 r i).rowLen))
        expect := (List.range 4).map fun q => if q = m / 8 then 8 else 0
        stage := [none, none, none, none], joined := [], total := none, fin := .elems i.row 0 (((r.opOf i).p 8 1).testBit 0) [] }] } } i)) ∧
  (∀ (n tag : Nat) (env : Env) (r : Run) (i : Inst) (d : Desc) (s : State), LastRow s n 0x12 r i d → env.banks = [] → HomeOk s r (src0 r i) i.row → 0 < (src0 r i).rowLen → (src0 r i).rowLen ≤ 8160 →
    InputsKept s → s.freeTag (clientQuad d.client) = some tag →
    Gives (exec (.send ⟨n, env⟩) s) fun t =>
      t.rcp = (lastDone { s with rcp := { s.rcp with sends := s.rcp.sends ++ [⟨n, i.row * 4096, activationPacket s r i d, none, s.nt, true⟩] } } i).rcp ∧
      t.router.tags = s.router.tags ++ [⟨tag, (mget genDefault s.router.gens tag + 1) % 16, .send d.order n (i.row * 4096),
        { activationPacket s r i d with tag := tag, gen := (mget genDefault s.router.gens tag + 1) % 16 }, s.nt, s.nt, s.reg Reg.RTE_TIMING⟩] ∧
      Injects s t (32 + clientQuad d.client) { activationPacket s r i d with tag := tag, gen := (mget genDefault s.router.gens tag + 1) % 16 } ∧
      MemorySame s t ∧ t.regs = s.regs) ∧
  (∀ (n : Nat) (r : Run) (i : Inst) (d : Desc) (c : Channel) (s : State), s.instOf n 0x13 = some (r, i, d) → s.recvChannel r i = some c → c.whole = true →
    exec (.recv n) s = .next { s with
      rcp := { s.rcp with run := some (r.setInst { i with begun := true, done := true })
                          channels := s.rcp.channels.filter fun x => !(x.key == c.key && x.op == c.op) } }) ∧
  (∀ (n piece tag : Nat) (x : Sending) (r : Run) (i : Inst) (d : Desc) (s : State), s.sending n piece = some x → s.inst n = some (r, i, d) → x.asked = false → s.workStopped = false →
    x.lastNt + 10000 ≤ s.nt → InputsKept s → s.freeTag (clientQuad d.client) = some tag →
    Gives (exec (.sendRetry n piece) s) fun t =>
      t.rcp = (s.setSending { x with asked := true, lastNt := s.nt }).rcp ∧
      Injects s t (32 + clientQuad d.client)
        { x.pkt with tag := tag, gen := (mget genDefault s.router.gens tag + 1) % 16, inc := s.fld (clientReg x.pkt.client) Fld.QUE_CLIENT_incarnation } ∧
      t = { s with rcp := t.rcp, router := t.router }) ∧
  (∀ (n piece : Nat) (x : Sending) (first : Nat) (r : Run) (i : Inst) (d : Desc) (s : State), RegsKept s → s.sending n piece = some x → s.inst n = some (r, i, d) → x.firstNt = some first → r.failed = false →
    s.workStopped = false → first + s.fld (Reg.RCP_CTL r.key.q) Fld.RCP_CTL_send_retry_ms * 1000000 ≤ s.nt → worse 0xF002 r.status = true →
    Gives (exec (.sendRetryExpiry n piece) s) fun t =>
      t.rcp = { (s.dropWork n).rcp with run := some { r.setInst { i with done := true, status := 0xF002 } with failed := true, status := 0xF002, detail := 0 } } ∧
      t.fld (Reg.RCP_CNT r.key.q) Fld.RCP_CNT_send_failed = satAdd Fld.RCP_CNT_send_failed.width (s.fld (Reg.RCP_CNT r.key.q) Fld.RCP_CNT_send_failed) 1 ∧
      RegsBut s t [Reg.RCP_CNT r.key.q] ∧ t = { s with rcp := t.rcp, regs := t.regs }) ∧
  (∀ (n : Nat) (r : Run) (i : Inst) (d : Desc) (c : Channel) (s : State), s.instOf n 0x13 = some (r, i, d) → s.recvChannel r i = some c → c.whole = false →
    i.nt + s.fld (Reg.RCP_CTL r.key.q) Fld.RCP_CTL_recv_timeout_ms * 1000000 ≤ s.nt → worse 0xF002 r.status = true →
    exec (.recvTimeout n) s = .next { s with
      rcp := { (s.dropWork n).rcp with run := some { r.setInst { i with done := true, status := 0xF002 } with failed := true, status := 0xF002, detail := 0 }
                                       channels := s.rcp.channels.filter fun x => !(x.key == c.key && x.op == c.op) } })

/-- MATMUL of at most 64 rows a shard gives every Setting's Facet 0 its row block with accumulators at zero. DECODER_TILE of a tile whose masks are right reads it at the stack granule by granule, writes it to the lowest free slot of the ring, counts the granules and marks the slot ready. FACET_PASS of a sweep of one row and one token over its last K tile leaves the dot product in the accumulator, frees the slot and counts its cycles. SWEEP_END of the last sweep with ks = 1 hands the results to a mover and ends the job. MOVER_TRANSFER_COMPLETE of a broadcast to one Setting writes its 8 Facet windows. REDUCE_CONTRIBUTION adds a partial at its stage Setting, and the last stage sum at the destination, where the total goes to a mover. -/
def Obligations.FacetsWork : Prop :=
  (∀ (n : Nat) (r : Run) (i : Inst) (d : Desc) (s : State), s.instOf n 0x01 = some (r, i, d) → i.begun = false → 0 < (src0 r i).shardRows → (src0 r i).shardRows ≤ 64 →
    exec (.matmul n) s = .next (State.setInst { s with
      rcp := { s.rcp with jobs := s.rcp.jobs ++ (List.range 32).map fun st =>
        { inst := n, st := st, f := 0, fill := (r.opOf i).fill, blocks := [0], rb := 0, sweep := 0, tile := 0, tok := 0, loaded := 0, slots := []
          acc := List.replicate ((src0 r i).shardRows * min 256 d.batch) 0, full := false } } } { i with begun := true, done := true })) ∧
  (∀ (st : Setting) (f : Fin 8) (fill : Bool) (env : Env) (j : FacetJob) (r : Run) (i : Inst) (d : Desc) (o : Op) (m : MatShape) (free rb t : Nat) (w : Doing) (tile : List Byte) (s : State),
    s.jobAt st f fill = some j → s.jobShape j = some (r, i, d, o, m) → s.workStopped = false → j.loaded < tileSeq m o.hold j.blocks.length 0 0 → s.decoderElsewhere st f fill = false →
    free < r.recipe.ringSlots fill → (∀ y, y < free → (j.slots.any fun x => x.2 == y) = true) → (j.slots.any fun x => x.2 == free) = false →
    rb = tileRowBlock m o.hold j → t = (tileAt m o.hold j.loaded).2 → tileFetch s env st r i d m rb t = (w, tile) → w.halt = .go →
    (w.s.windowVerdict st f ((r.recipe.ringRange fill).1 * 32 + free * 9216) tile.length).1 = .ok →
    badMasks m.w.dens (m.rowsOf rb) (cdiv (m.posOf t) 64) (tileMaskBytes m rb t tile) = [] →
    exec (.decoderTile st f fill env) s = .next
      ((((w.s.writeWindow st f ((r.recipe.ringRange fill).1 * 32 + free * 9216) tile).setDecoding st f fill false).setJob
          { j with loaded := j.loaded + 1, slots := j.slots ++ [(j.loaded, free)] }).countGranules st (granulesOf (tilePlaces r i m st rb t)).length (instWork d o i.layer))) ∧
  (∀ (st : Setting) (f : Fin 8) (fill : Bool) (env : Env) (j : FacetJob) (r : Run) (i : Inst) (d : Desc) (o : Op) (m : MatShape) (slot : Nat) (s : State),
    s.jobAt st f fill = some j → s.jobShape j = some (r, i, d, o, m) → Unwatched s → RegsKept s → s.workStopped = false → env.banks = [] → o.hold = false → j.full = false → s.mayPass st f fill = true →
    (j.slots.find? fun x => x.1 == (j.rb * m.sweeps + j.sweep) * m.tiles + j.tile) = some ((j.rb * m.sweeps + j.sweep) * m.tiles + j.tile, slot) →
    m.rowsOf (j.blocks.getD j.rb 0) = 1 → m.tokensOf j.sweep = 1 → j.tok = 0 → m.tiles = j.tile + 1 →
    (s.windowVerdict st f ((r.recipe.ringRange fill).1 * 32 + slot * 9216) (tileBytes m (j.blocks.getD j.rb 0) j.tile)).1 = .ok →
    ((Doing.start s env).actsRead m st f j.tile (slicePlace m.a (256 * j.sweep))).halt = .go →
    Gives (exec (.facetPass st f ⟨fill, env⟩) s) fun t =>
      t.rcp = (s.setJob { j with
        tok := 0, tile := j.tile + 1, full := true
        slots := j.slots.filter fun x => x.1 != (j.rb * m.sweeps + j.sweep) * m.tiles + j.tile
        acc := [tileDot m (o.p 8 1) j.tile (j.acc.getD 0 0)
          (tileRow m 1 j.tile (s.readWindow st f ((r.recipe.ringRange fill).1 * 32 + slot * 9216) (tileBytes m (j.blocks.getD j.rb 0) j.tile)) 0)
          (s.readWindow st f (slicePlace m.a (256 * j.sweep)) m.a.rowLen)] }).rcp ∧
      RegsBut s t [Reg.FAC_ARRAY_CNT (st / 8) (st % 8 * 8 + f), Reg.FAC_FILL_CNT (st / 8) (st % 8 * 8 + f), Reg.FAC_SKIP_CNT (st / 8) (st % 8 * 8 + f)] ∧
      t = { s with regs := t.regs, rcp := t.rcp }) ∧
  (∀ (st : Setting) (f : Fin 8) (fill : Bool) (j : FacetJob) (r : Run) (i : Inst) (d : Desc) (o : Op) (m : MatShape) (s : State),
    s.jobAt st f fill = some j → s.jobShape j = some (r, i, d, o, m) → s.workStopped = false → j.full = true → m.w.ks = 1 → m.sweeps ≤ j.sweep + 1 → j.blocks.length ≤ j.rb + 1 →
    exec (.sweepEnd st f fill) s = .next { s with
      rcp := { s.rcp with
        transfers := s.rcp.transfers ++ [⟨j.inst, moverFor j.st j.inst, (List.range (m.tokensOf j.sweep)).map fun t =>
          .elems (256 * j.sweep + t) (o.p 10 2 + j.st * m.w.shardRows + 64 * j.blocks.getD j.rb 0) ((o.p 9 1).testBit 0)
            ((List.range (m.rowsOf (j.blocks.getD j.rb 0))).map fun row => j.acc.getD (row * m.tokensOf j.sweep + t) 0)⟩]
        jobs := s.rcp.jobs.filter fun x => !(x.st == j.st && x.f == j.f && x.fill == j.fill) } }) ∧
  (∀ (mover : Fin 128) (env : Env) (x : Transfer) (m oa : Nat) (data : List Byte) (r : Run) (i : Inst) (d : Desc) (s : State),
    (s.rcp.transfers.find? fun t => t.mover == mover.val) = some x → x.puts = [.broadcast (2 ^ m) oa data] → m < 32 → s.inst x.inst = some (r, i, d) → s.workStopped = false → Unwatched s →
    (∀ f, f < 8 → (s.windowVerdict m f oa data.length).1 = .ok) →
    exec (.moverTransferComplete mover env) s = .next { (List.range 8).foldl (fun (s : State) f => s.writeWindow m f oa data) s with
      rcp := { s.rcp with transfers := s.rcp.transfers.erase x } }) ∧
  (∀ (n sum : Nat) (source : Fin 36) (vals : List Nat) (x : Sum) (s : State), (s.rcp.sums.find? fun y => y.inst == n && y.id == sum) = some x → s.workStopped = false → source.val < 32 →
    (x.moving.find? fun m => m.1 == source.val) = some (source.val, vals) →
    exec (.reduceContribution n sum source) s = .next (s.setSum { x with
      moving := x.moving.erase (source.val, vals)
      expect := x.expect.set (source.val / 8) (x.expect.getD (source.val / 8) 0 - 1)
      stage := x.stage.set (source.val / 8) (some (addLanes (x.stage.getD (source.val / 8) none) vals)) })) ∧
  (∀ (n sum : Nat) (source : Fin 36) (q : Nat) (vals : List Nat) (x : Sum) (s : State), (s.rcp.sums.find? fun y => y.inst == n && y.id == sum) = some x → s.workStopped = false →
    source.val = 32 + q → x.stage.getD q none = some vals → x.joined.contains q = false → x.moving = [] → x.expect = [0, 0, 0, 0] →
    (∀ y, y < 4 → y ≠ q → x.stage.getD y none = none ∨ x.joined.contains y = true) →
    exec (.reduceContribution n sum source) s = .next { s with
      rcp := { s.rcp with
        sums := s.rcp.sums.filter fun y => !(y.inst == x.inst && y.id == x.id)
        transfers := s.rcp.transfers ++ [⟨x.inst, moverFor x.dest x.inst, [match x.fin with
          | .elems row col acc _ => .elems row col acc (addLanes x.total vals)
          | p => p]⟩] } })

/-- EXPERT of one token with choices reads its entry and keeps the choices of the router row, counting those it discards. EXPERT_ADMISSION of one token's one choice, under capacity and with one good holder, admits the pair and forms its group. ROUTED_CHUNK_END moves its Setting's group on by a chunk, or ends it. SHARED_PHASE_A_END enters phase B. EXPERT_CLOSE with nothing open and no shared expert closes a sub-batch, and ends an instance of a recipe. EXPERT_BATCH that issues has its entry read and its ranges checked, and one that has started begins a sub-batch of the rows that are left; EXPERT_SUB_BATCH_END ends the descriptor with its admitted pairs as the result, or makes the next sub-batch due. -/
def Obligations.ExpertsRun : Prop :=
  (∀ (n : Nat) (env : Env) (r : Run) (i : Inst) (d : Desc) (w : Doing) (e : List Byte) (s : State), s.instOf n 0x0D = some (r, i, d) → i.begun = false → s.exd.work = none → d.batch = 1 → env.banks = [] →
    (r.opOf i).p 12 1 = 1 → ((r.opOf i).p 13 1).testBit 0 = true →
    (Doing.start s env).entryOf env r.key (expertIndex r i) = (w, e) → w.halt = .go → w.s.expertBad (expertIndex r i) e (exOpPlan r (r.opOf i) 1) = false →
    (w.s.windowVerdict (homePlace r.block (dstOf r i) 0).1 (homePlace r.block (dstOf r i) 0).2.1 (homePlace r.block (dstOf r i) 0).2.2 (4 * (dstOf r i).cols)).1 = .ok →
    (w.s.windowVerdict (homePlace r.block (src1 r i) 0).1 (homePlace r.block (src1 r i) 0).2.1 (homePlace r.block (src1 r i) 0).2.2 (4 * (2 * (r.opOf i).p 8 1))).1 = .ok →
    gateNan e ((r.opOf i).p 8 1) (routerLanes w.s r i (2 * (r.opOf i).p 8 1)) (routerChoices w.s r i e) true = false →
    exec (.expert n env) s = .next (State.setInst
      (((rowLoaded w.s r (src1 r i) 0).countSat (Reg.EXD_CNT2 r.key.q) Fld.EXD_CNT2_bad_choice ((routerChoices w.s r i e).filter Option.isNone).length).setExpert
        { key := r.key, inst := some n, first := 0, work := instWork d (r.opOf i) i.layer, phase := 1, index := expertIndex r i, entry := e, plan := exOpPlan r (r.opOf i) 1
          cands := [routerChoices w.s r i e], placement := [], failed := [], pairs := [], groups := [], spills := [], askedNt := 0, sharedA := false, closed := false }) { i with begun := true })) ∧
  (∀ (env : Env) (x : Expert) (e1 w1 : Nat) (h : Holder) (w : Doing) (pl : List Byte) (s : State), s.expertNow = some x → x.phase = 1 → x.cands = [[some (e1, w1)]] → x.plan.k = 1 → x.plan.choices = true →
    x.spills = [] → e1 < exN x.entry → exLoad x.entry = 0 → (Doing.start s env).paRead env x.key .lineCache (exPlacement x.entry) (32 * exN x.entry) 1 = (w, pl) → w.halt = .go → Unwatched w.s →
    holdersOf pl e1 = [h] → w.s.holderOk x.entry h = true → 0 < expertCap s.failedStacks x.entry pl e1 →
    exec (.expertAdmission env) s = .next { w.s with
      regs := (w.s.countWrap (Reg.EXD_CNT x.key.q) Fld.EXD_CNT_admitted 1 |>.countSat (Reg.EXD_CNT x.key.q) Fld.EXD_CNT_rerouted 0
        |>.countSat (Reg.EXD_CNT x.key.q) Fld.EXD_CNT_dropped 0).regs
      exd := { w.s.exd with
        batchPairs := w.s.exd.batchPairs + 1
        work := some { x with phase := 4, placement := pl, failed := s.failedStacks, pairs := [⟨0, e1, w1, 0⟩], groups := [⟨e1, h.st, h.pa, [(0, w1)], 0⟩], spills := [] } } }) ∧
  (∀ (st : Setting) (env : Env) (x : Expert) (g : ExpGroup) (at' : Nat) (s : State), s.expertNow = some x → 4 ≤ x.phase → (x.groups.zipIdx.find? fun y => y.1.st == st.val) = some (g, at') →
    ((Doing.start s env).routedChunk env x g).halt = .go → ((Doing.start s env).routedChunk env x g).counted.exd.work = some x →
    Gives (exec (.routedChunkEnd st env) s) fun t =>
      t.exd.work = some { x with groups := (
        if g.pairs.length ≤ g.done + min (exChunk x.entry) (g.pairs.length - g.done) then x.groups.eraseIdx at'
        else x.groups.set at' { g with done := g.done + min (exChunk x.entry) (g.pairs.length - g.done) }) } ∧
      t.banks = ((Doing.start s env).routedChunk env x g).counted.banks ∧ t.pool = ((Doing.start s env).routedChunk env x g).counted.pool ∧
      t.que = ((Doing.start s env).routedChunk env x g).counted.que) ∧
  (∀ (env : Env) (x : Expert) (s : State), s.expertNow = some x → x.phase = 4 → exShared x.entry ≠ 0 → x.sharedA = false → s.fillsRun = true → ((Doing.start s env).sharedPhaseA env x).halt = .go →
    exec (.sharedPhaseAEnd env) s = .next (((Doing.start s env).sharedPhaseA env x).counted.setExpert { x with sharedA := true, phase := 5 })) ∧
  (∀ (env : Env) (x : Expert) (s : State), s.expertNow = some x → 4 ≤ x.phase → x.groups = [] → (x.spills.any fun g => g.state == 1) = false → exShared x.entry = 0 → x.inst = none →
    exec (.expertClose env) s = .next (s.setExpert { x with phase := 6, closed := true })) ∧
  (∀ (env : Env) (x : Expert) (n : Nat) (r : Run) (i : Inst) (d : Desc) (s : State), s.expertNow = some x → 4 ≤ x.phase → x.groups = [] → (x.spills.any fun g => g.state == 1) = false → exShared x.entry = 0 →
    x.inst = some n → s.inst n = some (r, i, d) →
    exec (.expertClose env) s = .next { s with
      exd := { s.exd with work := none }
      rcp := { s.rcp with run := some (r.setInst { i with done := true }) } }) ∧
  (∀ (k : DescKey) (env : Env) (d : Desc) (w : Doing) (e : List Byte) (s : State), s.issuingOf k 0x11 = some d → (Doing.start s env).entryOf env d.key (d.u 4 2) = (w, e) → w.halt = .go →
    (w.s.batchShape d e).perFacet ≠ 0 →
    exec (.expertBatch k env) s = .next (w.s.endIssue d (batchRanges d e (w.s.batchShape d e)) 0 [])) ∧
  (∀ (k : DescKey) (env : Env) (d : Desc) (w : Doing) (s : State), s.issuingOf k 0x11 = none → s.jobOf k 0x11 = some d → s.exd.work = none → s.on (Reg.EXD_CTL k.q) Fld.EXD_CTL_enable = true → d.progress = 0 →
    w = (Doing.start { s with exd := { s.exd with batchPairs := 0, batchBytes := 0 } } env).subBatch env d 0 → w.halt = .go →
    exec (.expertBatch k env) s = .next w.counted ∧ ∃ x, w.counted.exd.work = some x ∧
      x.key = d.key ∧ x.inst = none ∧ x.first = 0 ∧ x.phase = 1 ∧ x.closed = false ∧ x.plan.tokens ≤ d.u 8 2) ∧
  (∀ (k : DescKey) (env : Env) (d : Desc) (x : Expert) (d' : Desc) (s : State), s.jobOf k 0x11 = some d → s.exd.work = some x → x.key = k → x.closed = true → s.workStopped = false →
    ((Doing.start s env).batchOut env d x).halt = .go → ((Doing.start s env).batchOut env d x).s.desc k = some d' → ((Doing.start s env).batchOut env d x).s.runOf d'.key = none →
    d'.u 8 2 ≤ x.first + x.plan.tokens →
    Gives (exec (.expertSubBatchEnd k env) s) fun t =>
      t.que = (succeeds ((Doing.start s env).batchOut env d x).s d' ((Doing.start s env).batchOut env d x).s.exd.batchPairs).que ∧ t.exd.work = none ∧
      t.exd.batchBytes = ((Doing.start s env).batchOut env d x).s.exd.batchBytes + x.plan.tokens * rowBytes ((fmtOf x.plan.srcFmt).getD .fp32) x.plan.srcWidth) ∧
  (∀ (k : DescKey) (env : Env) (d : Desc) (x : Expert) (d' : Desc) (s : State), s.jobOf k 0x11 = some d → s.exd.work = some x → x.key = k → x.closed = true → s.workStopped = false →
    ((Doing.start s env).batchOut env d x).halt = .go → ((Doing.start s env).batchOut env d x).s.desc k = some d' → x.first + x.plan.tokens < d'.u 8 2 →
    Gives (exec (.expertSubBatchEnd k env) s) fun t =>
      t.desc k = some { d' with progress := x.first + x.plan.tokens } ∧ t.exd.work = none)

/-- KV_APPEND that issues has its source range checked, and one that has started and whose page table, entries and rows are in order ends with its number of positions as the result. ATTN_STEP that issues reads its list, has its ranges checked and keeps the list; one that has started becomes the attention in progress with no sequence finished, after the windows of its home Settings are overwritten. ATTN_SEQUENCE_END of a sequence whose earlier ones of the same home Setting are finished marks it finished and adds its pages and output bytes, and the last one ends the descriptor with the pages of all as the result. ATTN of the last batch row is done after the row's attention. -/
def Obligations.AttentionRuns : Prop :=
  (∀ (k : DescKey) (env : Env) (d d' : Desc) (s' s : State), s.issuingOf k 0x13 = some d → s.issueChecks d.key d (s.appendRanges d) = (s', some none) → s'.desc d.key = some d' →
    exec (.kvAppend k env) s = .next (s'.setDesc (Desc.leasesOf { d' with progress := 1, delivered := false, pieces := [] } (s.appendRanges d)))) ∧
  (∀ (k : DescKey) (env : Env) (d : Desc) (w : Doing) (h : PageTable) (es : List Nat) (d' : Desc) (s : State), s.issuingOf k 0x13 = none → s.jobOf k 0x13 = some d →
    (Doing.start s env).appendPlan env d = (w, some (h, es)) → (w.appendRows env d h es).halt = .go → (w.appendRows env d h es).s.desc k = some d' → (w.appendRows env d h es).s.runOf k = none →
    exec (.kvAppend k env) s = .next (succeeds (w.appendRows env d h es).s d' (d'.u 28 2))) ∧
  (∀ (k : DescKey) (env : Env) (d d' : Desc) (w : Doing) (l : List Byte) (s : State), s.issuingOf k 0x12 = some d →
    (Doing.start s env).fetch env d.key (256 + d.key.q.val) .lineCache (spaceOf (d.u 16 8)) (addrOf (d.u 16 8)) (32 * d.seqCount) 0 = (w, l) → w.halt = .go → w.s.desc d.key = some d' →
    (∀ n, n < d'.seqCount → ∀ f, f < 8 → w.s.ownedBanks (seqHome l n) f ≠ []) →
    exec (.attnStep k env) s = .next (w.s.endIssue d' (w.s.stepRanges d' l) 0 [(0, l)])) ∧
  (∀ (k : DescKey) (env : Env) (d d' : Desc) (s : State), s.issuingOf k 0x12 = none → s.jobOf k 0x12 = some d → s.attn = none → (windowsUsed s env d).halt = .go → (windowsUsed s env d).s.desc k = some d' →
    exec (.attnStep k env) s = .next { (windowsUsed s env d).s with attn := some ⟨k, d.seqList, [], 0, 0⟩ }) ∧
  (∀ (n : Fin 4096) (env : Env) (a : AttnWork) (d : Desc) (w : Doing) (pages len : Nat) (d' : Desc) (s : State), s.attn = some a → s.jobOf a.key 0x12 = some d → n.val < d.seqCount → a.finished.contains n.val = false →
    s.workStopped = false → (∀ i, i < n.val → seqHome a.list i = seqHome a.list n → a.finished.contains i = true) →
    (Doing.start s env).sequence env d a.list n = (w, pages, len) → w.halt = .go → w.s.desc a.key = some d' → a.finished.length + 1 ≠ d'.seqCount →
    Gives (exec (.attnSequenceEnd n env) s) fun t =>
      t.attn = some { a with finished := a.finished ++ [n.val], bytes := a.bytes + len, pages := a.pages + pages } ∧ t.que = w.s.que ∧ t.banks = w.s.banks ∧ t.pool = w.s.pool) ∧
  (∀ (n : Fin 4096) (env : Env) (a : AttnWork) (d : Desc) (w : Doing) (pages len : Nat) (d' : Desc) (s : State), s.attn = some a → s.jobOf a.key 0x12 = some d → n.val < d.seqCount → a.finished.contains n.val = false →
    s.workStopped = false → (∀ i, i < n.val → seqHome a.list i = seqHome a.list n → a.finished.contains i = true) →
    (Doing.start s env).sequence env d a.list n = (w, pages, len) → w.halt = .go → w.s.desc a.key = some d' → a.finished.length + 1 = d'.seqCount → w.s.runOf d'.key = none →
    Gives (exec (.attnSequenceEnd n env) s) fun t =>
      t.attn = none ∧ t.que = (succeeds w.s d' (a.pages + pages)).que ∧ t.banks = w.s.banks ∧ t.pool = w.s.pool) ∧
  (∀ (n : Nat) (env : Env) (r : Run) (i : Inst) (d : Desc) (w : Doing) (r' : Run) (i' : Inst) (d' : Desc) (s : State), LastRow s n 0x0C r i d →
    w = (Doing.start s env).attnRow env r i d i.row → w.halt = .go → w.counted.inst n = some (r', i', d') →
    exec (.attn n env) s = .next (w.counted.setInst { i' with row := i.row + 1, begun := true, done := true }))

/-- SPILL_ACCEPT of an asked group sends the group's token rows, counts and adds its pairs and marks it accepted. SPILL_REFUSE of one, while another group is unanswered, drops it: its pairs count as refused and dropped. SPILL_ANSWER_TIMEOUT drops every unanswered group. SPILL_RESULT_ROW of a fragment not yet seen adds the weighted values to the token's row and closes a group whose results have all come. SPILL_RESULT_TIMEOUT counts the missing pairs and fails the instance with 0xF002. SPILL_TOKEN_ROW keeps a fragment that has not come before. SPILL_REQUEST is accepted where the server's entry, holder and pair bound allow it and the sender's entry matches (Config.spillMatches, which the spec leaves open), and else refused. SPILL_GROUP_SERVE sends the result rows back, counts the pairs and closes the group. -/
def Obligations.SpillsWork : Prop :=
  (∀ (port : Fin 36) (p : Packet) (env : Env) (t : State) (x : Expert) (g : SpillOut) (s : State), s.spillIn port p 1 = (some t, t) → t.spillOut p = some (x, g) → g.state = 0 →
    ((Doing.start t env).sendRows x g).halt = .go →
    exec (.spillAccept port ⟨p, env⟩) s = .next (State.spillAnswered
      { ((Doing.start t env).sendRows x g).s.countSat (Reg.EXD_CNT2 x.key.q) Fld.EXD_CNT2_spilled g.pairs.length with
        exd := { ((Doing.start t env).sendRows x g).s.exd with batchPairs := ((Doing.start t env).sendRows x g).s.exd.batchPairs + g.pairs.length } }
      (x.setSpill { g with state := 1, nt := ((Doing.start t env).sendRows x g).s.nt }))) ∧
  (∀ (port : Fin 36) (p : Packet) (t : State) (x : Expert) (g : SpillOut) (s : State), s.spillIn port p 2 = (some t, t) → t.spillOut p = some (x, g) → g.state = 0 → RegsKept t →
    ((x.setSpill { g with state := 2 }).spills.all fun y => y.state != 0) = false →
    Gives (exec (.spillRefuse port p) s) fun u =>
      u.exd = { t.exd with work := some { x with
        spills := x.spills.map fun (y : SpillOut) => if y.id == g.id then { g with state := 2 } else y
        pairs := x.pairs.map fun (y : ExpPair) => if y.e == g.e && y.fate == 2 then { y with fate := 1 } else y } } ∧
      u.fld (Reg.EXD_CNT2 x.key.q) Fld.EXD_CNT2_spill_refused = satAdd Fld.EXD_CNT2_spill_refused.width (t.fld (Reg.EXD_CNT2 x.key.q) Fld.EXD_CNT2_spill_refused) g.pairs.length ∧
      u.fld (Reg.EXD_CNT x.key.q) Fld.EXD_CNT_dropped = satAdd Fld.EXD_CNT_dropped.width (t.fld (Reg.EXD_CNT x.key.q) Fld.EXD_CNT_dropped) g.pairs.length ∧
      RegsBut t u [Reg.EXD_CNT2 x.key.q, Reg.EXD_CNT x.key.q] ∧ u = { t with regs := u.regs, exd := u.exd }) ∧
  (∀ (x : Expert) (s : State), s.expertNow = some x → x.phase = 3 → (x.spills.filter fun g => g.state == 0) ≠ [] → x.askedNt + s.fld (Reg.EXD_CTL x.key.q) Fld.EXD_CTL_answer_us * 1000 ≤ s.nt →
    exec .spillAnswerTimeout s = .next (s.dropSpills x (x.spills.filter fun g => g.state == 0))) ∧
  (∀ (port : Fin 36) (p : Packet) (env : Env) (t : State) (x : Expert) (g : SpillOut) (b wt : Nat) (s : State), s.spillIn port p 4 = (some t, t) → t.spillOut p = some (x, g) → 4 ≤ x.phase → g.state = 1 →
    g.pairs[spCount p]? = some (b, wt) → g.got.contains (spCount p, spOffset p, (spData p).length) = false → (spOffset p, (spData p).length) ∈ fragments (2 * exH x.entry) →
    ((Doing.start t env).addOut (x.plan.dst.getD b (0, 0, 0)) (spOffset p / 2) ((rowWords .bf16 ((spData p).length / 2) (spData p)).map fun y => fmul32 wt y)).halt = .go →
    exec (.spillResultRow port ⟨p, env⟩) s = .next (State.setExpert
      ((Doing.start t env).addOut (x.plan.dst.getD b (0, 0, 0)) (spOffset p / 2) ((rowWords .bf16 ((spData p).length / 2) (spData p)).map fun y => fmul32 wt y)).s
      (x.setSpill { g with
        got := g.got ++ [(spCount p, spOffset p, (spData p).length)]
        state := if (List.range g.pairs.length).all fun i => SpillOut.whole { g with got := g.got ++ [(spCount p, spOffset p, (spData p).length)] } (2 * exH x.entry) i then 3 else g.state }))) ∧
  (∀ (group : Fin 65536) (x : Expert) (g : SpillOut) (s : State), s.expertNow = some x → (x.spills.find? fun y => y.id == group.val && y.state == 1) = some g →
    g.nt + s.fld (Reg.EXD_CTL x.key.q) Fld.EXD_CTL_spill_timeout_us * 1000 ≤ s.nt →
    exec (.spillResultTimeout group) s = .next ((s.countSat (Reg.EXD_CNT2 x.key.q) Fld.EXD_CNT2_spill_lost
      ((List.range g.pairs.length).filter fun i => !g.whole (2 * exH x.entry) i).length).failExpert x 0xF002)) ∧
  (∀ (port : Fin 36) (p : Packet) (t : State) (v : SpillServe) (s : State), s.spillIn port p 3 = (some t, t) → t.serveOf p.src (spGroup p) = some v → spCount p < spCount v.req →
    (v.rows.any fun r => r.1 == spCount p && r.2.1 == spOffset p) = false →
    exec (.spillTokenRow port p) s = .next { t with
      exd := { t.exd with serves := t.exd.serves.flatMap fun (y : SpillServe) =>
        if y.req.src == p.src && spGroup y.req == spGroup p then [{ v with rows := v.rows ++ [(spCount p, spOffset p, spData p)] }] else [y] } }) ∧
  (∀ (port : Fin 36) (p : Packet) (env : Env) (t : State) (w1 : Doing) (e : List Byte) (w : Doing) (pl : List Byte) (h : Holder) (s : State), s.spillIn port p 0 = (some t, t) →
    t.on (Reg.EXD_CTL 0) Fld.EXD_CTL_spill_serve = true → spEntry p < 256 → (t.sealed && !t.isPeer p.src) = false →
    (Doing.start t env).paRead env ⟨0, 0, spGroup p⟩ .lineCache (t.fld (Reg.EXD_TABLE 0) Fld.EXD_TABLE_base + 64 * spEntry p) 64 p.src = (w1, e) →
    w1.paRead env ⟨0, 0, spGroup p⟩ .lineCache (exPlacement e) (32 * exN e) p.src = (w, pl) → w.halt = .go → w.s.serveHolder pl (spExpert p) = some h →
    exServable e = true → spExpert p < exN e → spRowBytes p = 2 * exH e → w.s.servedPairs + spCount p ≤ w.s.fld (Reg.EXD_SPILL_CFG 0) Fld.EXD_SPILL_CFG_max_pairs →
    exec (.spillRequest port p env) s = .next (if Config.spillMatches p.src (spEntry p) then
        State.answerSpill { w.s with exd := { w.s.exd with serves := w.s.exd.serves ++ [⟨p, port, e, h.st, h.pa, []⟩] } } port p 1 0 0 []
      else (w.s.countSat (Reg.EXD_SERVE_CNT 0) Fld.EXD_SERVE_CNT_refused 1).answerSpill port p 2 0 0 [])) ∧
  (∀ (src group : Fin 65536) (env : Env) (v : SpillServe) (w : Doing) (ys : List (List Nat)) (s : State), s.serveOf src group = some v → s.workStopped = false → s.ownGroupsDone = true →
    (∀ i, i < spCount v.req → v.row i ≠ none) → (Doing.start s env).servedRows env ⟨0, 0, group⟩ v ((List.range (spCount v.req)).filterMap v.row) = (w, ys) → w.halt = .go →
    exec (.spillGroupServe src group env) s = .next (((ys.zipIdx.foldl (fun (s : State) r =>
        (fragments (2 * exH v.entry)).foldl (fun (s : State) c => s.answerSpill v.port v.req 4 r.2 (c.1 / 32) (slice (wordsRow .bf16 [] false r.1) c.1 c.2)) s) w.counted).countWrap
      (Reg.EXD_SERVE_CNT 0) Fld.EXD_SERVE_CNT_served (spCount v.req)).setServe src group []))

/-- REFRESH of a stack that takes commands goes to its next bank. POWER_DOWN_IDLE of a trained stack puts it into power-down. A write of STK_PORT_CTL with 0 begins the exit from self-refresh, with 1 the entry, and with 2 turns a failed stack off; the transition's end sets the state it leads to. STACK_INTERFACE_ERRORS, STACK_FATAL_REPORT and CLS_FAIL mark a working stack failed with causes 2, 4 and 5, and without spares a HEALTHY group becomes DEGRADED and a DEGRADED one LOST; with spares a HEALTHY group starts to rebuild the failed position from row 0. SLAB_FILL_DONE leaves the slab filled and ready. -/
def Obligations.StacksFailAndPower : Prop :=
  (∀ (n : Setting) (s : State), s.stackFailed n = false → s.fld (portStatus n) Fld.STK_PORT_STATUS_state ≠ 2 →
    exec (.refresh n) s = .next { s with pool := { s.pool with refreshNext := s.pool.refreshNext.set n ((s.pool.refreshNext.getD n 0 + 1) % 16) } }) ∧
  (∀ (n : Setting) (s : State), s.fld (portStatus n) Fld.STK_PORT_STATUS_state = 1 → n.val ∉ s.pool.powerDown →
    exec (.powerDownIdle n) s = .next { s with pool := { s.pool with powerDown := n.val :: s.pool.powerDown } }) ∧
  (∀ (path : Path) (n : Setting) (value : Word) (s : State), RegsKept s → s.stackFailed n = false → s.fld (portCtl n) Fld.STK_PORT_CTL_power = 1 →
    Gives (exec (.stackPowerActive path n value) s) fun t =>
      t.fld (portCtl n) Fld.STK_PORT_CTL_power = 0 ∧ RegsBut s t [portCtl n] ∧
      t = { s with regs := t.regs, pool := { s.pool with powerDown := s.pool.powerDown.filter (· != n.val), moving := (n.val, 1) :: s.pool.moving.filter (·.1 != n.val) } }) ∧
  (∀ (path : Path) (n : Setting) (value : Word) (s : State), RegsKept s → s.stackFailed n = false → s.fld (portCtl n) Fld.STK_PORT_CTL_power ≠ 2 →
    Gives (exec (.stackSelfRefresh path n value) s) fun t =>
      t.fld (portCtl n) Fld.STK_PORT_CTL_power = 1 ∧ t.fld (portStatus n) Fld.STK_PORT_STATUS_state = 2 ∧ RegsBut s t [portCtl n, portStatus n] ∧
      t = { s with regs := t.regs, pool := { s.pool with powerDown := s.pool.powerDown.filter (· != n.val), moving := (n.val, 2) :: s.pool.moving.filter (·.1 != n.val) } }) ∧
  (∀ (path : Path) (n : Setting) (value : Word) (s : State), RegsKept s → s.stackFailed n = true →
    Gives (exec (.stackPowerOff path n value) s) fun t =>
      t.fld (portCtl n) Fld.STK_PORT_CTL_power = 2 ∧ t.fld (portStatus n) Fld.STK_PORT_STATUS_state = 3 ∧ RegsBut s t [portCtl n, portStatus n] ∧ t = { s with regs := t.regs }) ∧
  (∀ (n : Setting) (target : Nat) (s : State), RegsKept s → (s.pool.moving.find? fun x => x.1 == n.val) = some (n.val, target) →
    Gives (exec (.stackPowerTransitionDone n) s) fun t =>
      t.fld (portStatus n) Fld.STK_PORT_STATUS_state = target % 8 ∧ RegsBut s t [portStatus n] ∧
      t = { s with regs := t.regs, pool := { s.pool with moving := s.pool.moving.filter (·.1 != n.val) } }) ∧
  (∀ (n : Setting) (s : State), RegsKept s → Unwatched s → s.stackFailed n = false → s.spareMode = false → s.groupState (n / 8) < 2 →
    Gives (exec (.stackInterfaceErrors n) s) (fun t => StackFails s t n 2 (if s.groupState (n / 8) = 0 then 1 else 5)) ∧
    Gives (exec (.stackFatalReport n) s) (fun t => StackFails s t n 4 (if s.groupState (n / 8) = 0 then 1 else 5))) ∧
  (∀ (path : Path) (n : Setting) (value : Word) (s : State), RegsKept s → Unwatched s → s.stackFailed n = false → s.spareMode = false → s.groupState (n / 8) < 2 →
    s.on (Reg.CLS_CTL (n / 8)) Fld.CLS_CTL_busy = false → getF value Fld.CLS_CTL_stack = n.val % 8 → getF value Fld.CLS_CTL_reinstate = 0 →
    Gives (exec (.clsFail path (quadOf n) value) s) fun t =>
      StackFails (s.setFld (Reg.CLS_CTL (n / 8)) Fld.CLS_CTL_stack (n.val % 8)) t n 5 (if s.groupState (n / 8) = 0 then 1 else 5)) ∧
  (∀ (n : Setting) (s : State), RegsKept s → Unwatched s → s.stackFailed n = false → s.spareMode = true → s.groupState (n / 8) = 0 →
    Gives (exec (.stackFatalReport n) s) fun t =>
      t.stackFailed n = true ∧ t.groupState (n / 8) = 2 ∧ t.watermark (n / 8) = 0 ∧ t.fld (portStatus n) Fld.STK_PORT_STATUS_cause = 4 ∧
      (n.val / 8 < s.pool.groups.length → t.group (n / 8) = { s.group (n / 8) with spareOf := some (n.val % 8), spareFrom := 0, spareTo := 0, task := .rebuild }) ∧
      t.pool.cells = s.pool.cells) ∧
  (∀ (slab : Fin 14336) (s : State), s.fld (slabReg slab) Fld.STK_SLAB_state = 1 → 7 ≤ s.doneStep →
    exec (.slabFillDone slab) s = .next (((s.zeroSlab slab).dropCopies slab).setFld (slabReg slab) Fld.STK_SLAB_state 2))

/-- CLS_REINSTATE of the one failed stack of a DEGRADED or REBUILT group starts its retraining. REINSTATE_RETRAIN_DONE with success and an unchanged group enters REINSTATING from row 0 with the task it needs; without success the group keeps its state. BACKGROUND_TASK_ROW of a rebuild reads the failed position's granule and places it in the row's spare slot, and the last row leaves the group REBUILT. CLS_ROW_REPAIR of a valid entry begins its repair, and is logged while one runs; its end without a further error frees the entry with result 0. PATROL_SCRUB_ROW of a row whose parity is right only moves on; a wrong parity of a row whose granules all read well is rewritten, counted and reported. -/
def Obligations.GroupsRecover : Prop :=
  (∀ (path : Path) (q : Quad) (value : Word) (s : State), RegsKept s → s.on (Reg.CLS_CTL q) Fld.CLS_CTL_busy = false → (s.groupState q = 1 ∨ s.groupState q = 3) →
    s.fld (Reg.CLS_STATUS q) Fld.CLS_STATUS_failed = 2 ^ getF value Fld.CLS_CTL_stack → getF value Fld.CLS_CTL_fail = 0 →
    Gives (exec (.clsReinstate path q value) s) fun t =>
      t.on (Reg.CLS_CTL q) Fld.CLS_CTL_busy = true ∧ t.fld (Reg.CLS_CTL q) Fld.CLS_CTL_stack = getF value Fld.CLS_CTL_stack ∧ RegsBut s t [Reg.CLS_CTL q] ∧
      t = { s.setGroup q { s.group q with target := some (getF value Fld.CLS_CTL_stack), ownRows := 0, atReinstate := some (s.groupState q, 2 ^ getF value Fld.CLS_CTL_stack) } with regs := t.regs }) ∧
  (∀ (q : Quad) (from' failed j : Nat) (s : State), RegsKept s → (s.group q).atReinstate = some (from', failed) → (s.group q).target = some j → s.groupState q = from' → from' ≠ 4 →
    s.fld (Reg.CLS_STATUS q) Fld.CLS_STATUS_failed = failed → j < 8 → q.val < s.pool.groups.length →
    Gives (exec (.reinstateRetrainDone q true) s) fun t =>
      t.groupState q = 4 ∧ t.watermark q = 0 ∧ t.on (Reg.CLS_CTL q) Fld.CLS_CTL_busy = false ∧ t.fld (portCtl (8 * q + j)) Fld.STK_PORT_CTL_power = 0 ∧
      t.group q = { s.group q with atReinstate := none, origin := from', ownRows := 0, task := if s.spareMode && (s.group q).spareOf == some j then .copyBack else .reinstate } ∧
      t.pool.cells = s.pool.cells) ∧
  (∀ (q : Quad) (from' failed j : Nat) (s : State), RegsKept s → (s.group q).atReinstate = some (from', failed) → (s.group q).target = some j → q.val < s.pool.groups.length →
    Gives (exec (.reinstateRetrainDone q false) s) fun t =>
      t.groupState q = s.groupState q ∧ t.on (Reg.CLS_CTL q) Fld.CLS_CTL_busy = false ∧ t.group q = { s.group q with atReinstate := none, target := none } ∧
      t.pool.cells = s.pool.cells ∧ RegsBut s t [Reg.CLS_CTL q, Reg.EVT_PENDING, Reg.EVT_CNT]) ∧
  (∀ (q : Quad) (ecc : List (Nat × Nat × EccResult)) (j : Nat) (s' : State) (raw : List Byte) (via : ReadVia) (s : State), s.workStopped = false → 7 ≤ s.doneStep → (s.group q).task = .rebuild →
    (s.group q).spareOf = some j → sparePos (s.watermark q) ≠ j → s.watermark q + 1 < rowCount → s.readRow ecc q (s.watermark q) j allUnits = (s', raw, via) → via ≠ .lost → (s'.group q).task = .rebuild →
    exec (.backgroundTaskRow q ecc) s = .next (State.placeRaw ((s'.setGroup q { s'.group q with spareTo := s.watermark q + 1 }).setWatermark q (s.watermark q + 1)) q (s.watermark q) j raw)) ∧
  (∀ (q : Quad) (ecc : List (Nat × Nat × EccResult)) (j : Nat) (s : State), RegsKept s → s.workStopped = false → 7 ≤ s.doneStep → (s.group q).task = .rebuild →
    (s.group q).spareOf = some j → sparePos (s.watermark q) = j → s.watermark q + 1 = rowCount → q.val < s.pool.groups.length →
    Gives (exec (.backgroundTaskRow q ecc) s) fun t =>
      t.groupState q = 3 ∧ t.watermark q = 0 ∧ t.group q = { s.group q with spareTo := rowCount, task := .none } ∧ t.pool.cells = s.pool.cells) ∧
  (∀ (path : Path) (q : Quad) (value : Word) (s : State), RegsKept s → s.on (Reg.CLS_ROW_REPAIR q) Fld.CLS_ROW_REPAIR_busy = false →
    s.on (Reg.CLS_ROW_LOG q (getF value Fld.CLS_ROW_REPAIR_entry)) Fld.CLS_ROW_LOG_valid = true →
    Gives (exec (.clsRowRepair path q value) s) fun t =>
      t.on (Reg.CLS_ROW_REPAIR q) Fld.CLS_ROW_REPAIR_busy = true ∧ t.fld (Reg.CLS_ROW_REPAIR q) Fld.CLS_ROW_REPAIR_entry = getF value Fld.CLS_ROW_REPAIR_entry ∧
      RegsBut s t [Reg.CLS_ROW_REPAIR q] ∧ t = { s.setGroup q { s.group q with repairing := getF value Fld.CLS_ROW_REPAIR_entry } with regs := t.regs }) ∧
  (∀ (path : Path) (q : Quad) (value : Word) (s : State), RegsKept s → s.on (Reg.CLS_ROW_REPAIR q) Fld.CLS_ROW_REPAIR_busy = true →
    Gives (exec (.clsRowRepair path q value) s) fun t =>
      Logged (s.setFld (Reg.CLS_ROW_REPAIR q) Fld.CLS_ROW_REPAIR_entry (getF value Fld.CLS_ROW_REPAIR_entry)) t path 4 (Reg.CLS_ROW_REPAIR q)) ∧
  (∀ (q : Quad) (s : State), RegsKept s → Unwatched s → s.on (Reg.CLS_ROW_REPAIR q) Fld.CLS_ROW_REPAIR_busy = true → (s.group q).waiting = [] → (s.group q).repairing < 256 →
    Gives (exec (.rowRepairDone q []) s) fun t =>
      t.on (Reg.CLS_ROW_REPAIR q) Fld.CLS_ROW_REPAIR_busy = false ∧ t.fld (Reg.CLS_ROW_REPAIR q) Fld.CLS_ROW_REPAIR_result = 0 ∧ t.reg (Reg.CLS_ROW_LOG q (s.group q).repairing) = 0 ∧
      t.fld (Reg.CLS_LOG_STATUS q) Fld.CLS_LOG_STATUS_entries = s.fld (Reg.CLS_LOG_STATUS q) Fld.CLS_LOG_STATUS_entries - 1 ∧
      RegsBut s t [Reg.CLS_ROW_REPAIR q, Reg.CLS_ROW_LOG q (s.group q).repairing, Reg.CLS_LOG_STATUS q] ∧ t.pool.groups = s.pool.groups) ∧
  (∀ (q : Quad) (s : State), RegsKept s → Unwatched s → s.workStopped = false → 13 ≤ s.doneStep → s.stale q (scrubRow s q) = false → (∀ j ∈ s.members (scrubRow s q), s.working q (scrubRow s q) j = true) →
    s.rowXor q (scrubRow s q) = zeroGranule → scrubRow s q + 1 < rowCount →
    Gives (exec (.patrolScrubRow q []) s) fun t =>
      scrubRow t q = scrubRow s q + 1 ∧ RegsBut s t [Reg.CLS_SCRUB q] ∧ t = { s with regs := t.regs, pool := { s.pool with powerDown := t.pool.powerDown } }) ∧
  (∀ (q : Quad) (s : State), RegsKept s → Unwatched s → EventRoom s → s.workStopped = false → 13 ≤ s.doneStep → s.stale q (scrubRow s q) = false → s.groupState q ≠ 1 → s.groupState q ≠ 5 →
    (∀ j ∈ s.members (scrubRow s q), s.working q (scrubRow s q) j = true) → s.rowXor q (scrubRow s q) ≠ zeroGranule → scrubRow s q + 1 < rowCount →
    Gives (exec (.patrolScrubRow q []) s) fun t =>
      t.pool.cells = (s.xorGranule q (scrubRow s q) (parityPos (scrubRow s q)) 0 (s.rowXor q (scrubRow s q))).pool.cells ∧ scrubRow t q = scrubRow s q + 1 ∧
      t.fld (Reg.CLS_CNT q) Fld.CLS_CNT_parity_fixed = satAdd Fld.CLS_CNT_parity_fixed.width (s.fld (Reg.CLS_CNT q) Fld.CLS_CNT_parity_fixed) 1 ∧ Tells s t 0x0505 4 q)

/-- LINE_CACHE_ACCESS of a read delivers a line that is held and else sends RdShared, or RdCur where the cache owns no bank; of a write it changes a line held in M or E. At a free home, of a line without a directory entry, RD_SHARED and RD_OWN read the stack, make the requester the owner and grant E; RD_CUR grants the data and no copy; WR_INV of a whole line writes it. UPGRADE of a line of which the requester is the one holder grants M without data. A request of an agent that is not active is refused; one of an active agent uses a credit and goes to its home. EVICT_DIRTY of the owner writes the line and frees its entry, and EVICT_CLEAN frees it. HOME_TRANSACTION_START takes the oldest request that waits for the line. DATA brings the line into the cache and delivers it; CMP ends an eviction. LINE_CACHE_EVICTION announces a line with its data if it is dirty. -/
def Obligations.RequestsAtTheHome : Prop :=
  (∀ (st : Setting) (line : Nat) (l : LcLine) (s : State), CacheFree s st line → s.cachedNow st line = some l →
    exec (.lineCacheAccess st line .read) s = .next { s.putLine st l with coh := { (s.putLine st l).coh with delivered := l.data } }) ∧
  (∀ (st : Setting) (line : Nat) (s : State), CacheFree s st line → s.cachedNow st line = none →
    exec (.lineCacheAccess st line .read) s = .next { s with
      coh := { s.coh with misses := s.coh.misses ++ [⟨st, line, .read⟩]
                          msgs := s.coh.msgs ++ [.req ⟨.setting st, 0, if s.lcBanks st = 0 then .rdCur else .rdShared, line, 0, []⟩] } }) ∧
  (∀ (st : Setting) (line : Nat) (start : Fin 64) (d : List Byte) (l : LcLine) (s : State), CacheFree s st line → s.cachedNow st line = some l → (l.state = .m ∨ l.state = .e) →
    s.lcBanks st ≠ 0 → s.mirroring (line / 2 ^ 24) false = .no →
    exec (.lineCacheAccess st line (.write start d)) s = .next (s.putLine st { l with state := .m, data := splice l.data start d })) ∧
  (∀ (st : Setting) (txn line : Nat) (ecc : EccList) (r : CohReq) (q : Nat) (s' : State) (d : List Byte) (seen : PoolSeen) (s : State), AtFreeHome s r q ⟨.setting st, .rdShared, line⟩ →
    (atHome s r q).dirEntry q line = none → (atHome s r q).setFull q line = false → (atHome s r q).stackLine ecc line = (s', d, seen) → seen.lost = false →
    exec (.rdShared (.setting st) txn line ecc) s = .next (granted (ownedBy s' q line s.coh.born (.setting st)) r .e (some d))) ∧
  (∀ (st : Setting) (txn line : Nat) (ecc : EccList) (r : CohReq) (q : Nat) (s' : State) (d : List Byte) (seen : PoolSeen) (s : State), AtFreeHome s r q ⟨.setting st, .rdOwn, line⟩ →
    (atHome s r q).dirEntry q line = none → (atHome s r q).setFull q line = false → (ownedBy (atHome s r q) q line s.coh.born (.setting st)).stackLine ecc line = (s', d, seen) → seen.lost = false →
    exec (.rdOwn (.setting st) txn line ecc) s = .next (granted s' r .e (some d))) ∧
  (∀ (st : Setting) (txn line : Nat) (ecc : EccList) (r : CohReq) (q : Nat) (e : DirEntry) (s : State), AtFreeHome s r q ⟨.setting st, .upgrade, line⟩ →
    (atHome s r q).dirEntry q line = some e → (atHome s r q).holders e = [st.val] → e.ptrs.contains (some st.val) = true →
    exec (.upgrade (.setting st) txn line ecc) s = .next (granted { (atHome s r q).putDir q (ownerEntry line e.born (.setting st)) with
      coh := { ((atHome s r q).putDir q (ownerEntry line e.born (.setting st))).coh with born := s.coh.born + 1 } } r .m none)) ∧
  (∀ (st : Setting) (txn line : Nat) (ecc : EccList) (r : CohReq) (q : Nat) (s' : State) (d : List Byte) (seen : PoolSeen) (s : State), AtFreeHome s r q ⟨.setting st, .rdCur, line⟩ →
    (atHome s r q).dirEntry q line = none → (atHome s r q).stackLine ecc line = (s', d, seen) → seen.lost = false →
    exec (.rdCur (.setting st) txn line ecc) s = .next (granted s' r .i (some d))) ∧
  (∀ (st : Setting) (txn line mask : Nat) (data : List Byte) (ecc : EccList) (r : CohReq) (q : Nat) (s' : State) (seen : PoolSeen) (ids : List Nat) (s : State), AtFreeHome s r q ⟨.setting st, .wrInv, line⟩ →
    (atHome s r q).dirEntry q line = none → r.mask = 2 ^ 64 - 1 → (atHome s r q).writePool ecc (line * 64) (slice r.data 0 64) false = (s', seen, ids) → seen.lost = false →
    exec (.wrInv (.setting st) txn line mask data ecc) s = .next (granted (s'.dropDir q line) r .i none)) ∧
  (∀ (a : Fin 16) (txn line : Nat) (ecc : EccList) (s : State), s.ilcActive = true → a.val < 8 → s.agentState a = 0 →
    exec (.rdShared (.agent a) txn line ecc) s = .next ((s.countSat (Reg.ILC_CNT 0) Fld.ILC_CNT_refused 1).emit (.grant a txn line .i 2 none))) ∧
  (∀ (a : Fin 16) (txn line : Nat) (ecc : EccList) (s : State), s.ilcActive = true → a.val < 8 → s.agentState a = 1 → s.homeOf line ≠ none → s.tenantSlab (line / 2 ^ 24) = false →
    exec (.rdShared (.agent a) txn line ecc) s = .next (State.reachHome { s with
      ilc := { s.ilc with reqCredits := s.ilc.reqCredits.set a (s.ilc.reqCredits.getD a 0 - 1) } } ecc ⟨.agent a, txn, .rdShared, line, 0, []⟩)) ∧
  (∀ (st : Setting) (txn line : Nat) (ecc : EccList) (d : List Byte) (q : Nat) (s' : State) (seen : PoolSeen) (ids : List Nat) (e : DirEntry) (s : State), EvictingAt s st line (some d) q →
    ((offMesh s (.evict st line (some d))).countLookup q).writePool ecc (line * 64) d false = (s', seen, ids) → s'.dirEntry q line = some e → (e.remove st.val).empty = true →
    exec (.evictDirty (.setting st) txn line false [] ecc) s = .next { s'.dropDir q line with coh := { (s'.dropDir q line).coh with msgs := (s'.dropDir q line).coh.msgs ++ [.evictDone st line] } }) ∧
  (∀ (st : Setting) (txn line : Nat) (ecc : EccList) (q : Nat) (e : DirEntry) (s : State), EvictingAt s st line none q →
    ((offMesh s (.evict st line none)).countLookup q).dirEntry q line = some e → (e.remove st.val).empty = true →
    exec (.evictClean (.setting st) txn line ecc) s = .next { ((offMesh s (.evict st line none)).countLookup q).dropDir q line with
      coh := { (((offMesh s (.evict st line none)).countLookup q).dropDir q line).coh with msgs := (s.coh.msgs.erase (.evict st line none)) ++ [.evictDone st line] } }) ∧
  (∀ (line : Nat) (ecc : EccList) (q : Nat) (r : CohReq) (s : State), s.homeOf line = some q → (s.coh.waiting.find? fun x => x.line == line) = some r → s.homeReady q line (writesStack r.op) = true →
    exec (.homeTransactionStart line ecc) s = .next (State.beginHome { s with coh := { s.coh with waiting := s.coh.waiting.erase r } } ecc q r)) ∧
  (∀ (st : Setting) (line : Nat) (g : LineState) (status : Nat) (d : List Byte) (s : State), s.workStopped = false → g ≠ .i →
    s.coh.msgs = [.reply st line g status (some d)] → (s.coh.misses.filter fun x => x.st == st.val && x.line == line) = [⟨st, line, .read⟩] →
    exec (.data st line) s = .next (State.install { s with
      coh := { s.coh with msgs := [], misses := s.coh.misses.filter fun x => !(x.st == st.val && x.line == line), delivered := d } } st line g d)) ∧
  (∀ (st : Setting) (line : Nat) (s : State), s.workStopped = false → s.coh.msgs = [.evictDone st line] →
    exec (.cmp st line) s = .next { s with coh := { s.coh with msgs := [] } }) ∧
  (∀ (st : Setting) (line : Nat) (l : LcLine) (s : State), s.workStopped = false → s.cached st line = some l → (l.state = .e ∨ l.state = .s) →
    exec (.lineCacheEviction st line) s = .next { s.dropLine st l.line with coh := { (s.dropLine st l.line).coh with msgs := s.coh.msgs ++ [.evict st l.line none] } }) ∧
  (∀ (st : Setting) (line : Nat) (l : LcLine) (s : State), s.workStopped = false → s.cached st line = some l → (l.state = .m ∨ l.state = .o) → s.on (bankReg l.bank) Fld.BNK_BANK_failed = false →
    exec (.lineCacheEviction st line) s = .next { s.dropLine st l.line with coh := { (s.dropLine st l.line).coh with msgs := s.coh.msgs ++ [.evict st l.line (some l.data)] } })

/-- A line cache that holds a snooped line, with a bank that serves, answers from its state and keeps what Table CO-4 says: SNP_CUR leaves it as it is; SNP_SHR keeps O of a dirty line and S else; SNP_CLN and SNP_FWD keep S; SNP_INV and BACK_INV drop it; SNP_WB keeps E of an M line and S of an O line. Dirty data goes with the answer. RSP_S, RSP_E, RSP_FWD, RSP_I and DATA_WB of an awaited holder are taken into the line's open transaction, which ends once nothing is awaited; RSP_I with wb_pending waits for the eviction. DATA_WB of an agent with a data error makes the line a lost line. -/
def Obligations.SnoopsAreAnswered : Prop :=
  (∀ (st : Setting) (line : Nat) (l : LcLine) (s : State), SnoopDue s st line .cur l →
    exec (.snpCur st line) s = .next (snoopedTo s st line .cur none (if dirtyLine l then .data l.state l.data else if l.state = .e then .rspE else .rspS))) ∧
  (∀ (st : Setting) (line : Nat) (l : LcLine) (s : State), SnoopDue s st line .shr l →
    exec (.snpShr st line) s = .next (snoopedTo s st line .shr (some (if dirtyLine l then .o else .s)) (if dirtyLine l then .data .o l.data else .rspS))) ∧
  (∀ (st : Setting) (line : Nat) (l : LcLine) (s : State), SnoopDue s st line .cln l →
    exec (.snpCln st line) s = .next (snoopedTo s st line .cln (some .s) (if dirtyLine l then .data .s l.data else .rspS))) ∧
  (∀ (st : Setting) (line : Nat) (l : LcLine) (s : State), SnoopDue s st line .fwd l →
    exec (.snpFwd st line) s = .next (snoopedTo s st line .fwd (some .s) .rspFwd)) ∧
  (∀ (st : Setting) (line : Nat) (l : LcLine) (s : State), SnoopDue s st line .inv l →
    exec (.snpInv st line) s = .next (snoopedTo s st line .inv (some .i) (if dirtyLine l then .data .i l.data else .rspI false))) ∧
  (∀ (st : Setting) (line : Nat) (l : LcLine) (s : State), SnoopDue s st line .backInv l →
    exec (.backInv st line) s = .next (snoopedTo s st line .backInv (some .i) (if dirtyLine l then .data .i l.data else .rspI false))) ∧
  (∀ (st : Setting) (line : Nat) (l : LcLine) (s : State), SnoopDue s st line .wb l →
    exec (.snpWb st line) s = .next (snoopedTo s st line .wb (match l.state with | .m => some .e | .o => some .s | _ => none)
      (match l.state with | .m => .data .e l.data | .o => .data .s l.data | .e => .rspE | _ => .rspS))) ∧
  (∀ (st : Setting) (line : Nat) (ecc : EccList) (t : Txn) (s : State), AnswerDue s st line .rspS t →
    exec (.rspS (.setting st) line ecc) s = .next (answeredBy s st line .rspS ecc { t with waiting := t.waiting.filter (·.1 != st.val) })) ∧
  (∀ (st : Setting) (line : Nat) (ecc : EccList) (t : Txn) (s : State), AnswerDue s st line .rspE t →
    exec (.rspE (.setting st) line ecc) s = .next (answeredBy s st line .rspE ecc { t with waiting := t.waiting.filter (·.1 != st.val) })) ∧
  (∀ (st : Setting) (line : Nat) (ecc : EccList) (t : Txn) (s : State), AnswerDue s st line .rspFwd t →
    exec (.rspFwd (.setting st) line ecc) s = .next (answeredBy s st line .rspFwd ecc { t with waiting := t.waiting.filter (·.1 != st.val), forwarded := true })) ∧
  (∀ (st : Setting) (line : Nat) (wb : Bool) (ecc : EccList) (t : Txn) (s : State), AnswerDue s st line (.rspI wb) t → t.evicted.contains st.val = false →
    exec (.rspI (.setting st) line wb ecc) s = .next (answeredBy s st line (.rspI wb) ecc
      { t with waiting := t.waiting.filter (·.1 != st.val), wbWait := if wb then st.val :: t.wbWait else t.wbWait })) ∧
  (∀ (st : Setting) (line : Nat) (keep : LineState) (d : List Byte) (ecc : EccList) (t : Txn) (s : State), AnswerDue s st line (.data keep d) t →
    exec (.dataWb (.setting st) line false [] ecc) s = .next (answeredBy s st line (.data keep d) ecc { t with waiting := t.waiting.filter (·.1 != st.val), got := some d })) ∧
  (∀ (a : Fin 16) (line : Nat) (data : List Byte) (ecc : EccList) (s : State), RegsKept s → s.ilcActive = true → s.agentState a ≠ 3 → s.txnOf line = none →
    Gives (exec (.dataWb (.agent a) line true data ecc) s) fun t =>
      t.coh = { s.coh with losses := s.coh.losses ++ [⟨[], s.nextLoss, s.nt, [line], [a], false, 0, 0⟩] } ∧ t = { s.setFld (Reg.ILC_AGENT_CTL 0) Fld.ILC_AGENT_CTL_busy 1 with coh := t.coh })

/-- ILCEN_FLIT with the expected number is taken with its acknowledgement and credits; one that asks for a replay is answered with the flits from that number on; one that fails its CRC is counted and answered with a NAK. ILCEN_CRC_LIMIT retrains the link. ILCEN_HELLO in PARAM with the same version and mode loads the credits and makes the link ACTIVE. ILCEN_TRAINED leads from TRAINING to PARAM with a Hello. ILCEN_TRAINING_TIMEOUT leads from TRAINING to DOWN with every agent lost, and ILCEN_RETRY from DOWN to TRAINING again. ILCEN_PARAM_TIMEOUT, and a Hello that does not agree, lead from PARAM to RETRAIN, or, at the third failure within a second, to DOWN. NP8_HOLD_EXPIRY sends the snoop that a grant held back. -/
def Obligations.IlcenLinkWorks : Prop :=
  (∀ (f : IlcFlit) (s : State), s.ilcActive = true → f.bad = false → f.seq = s.ilc.expect → (s.ilc.sent.dropWhile fun x => x.1 != f.ack) = [] →
    exec (.ilcenFlit f) s = .next (flitTaken s f).sendAllHeld) ∧
  (∀ (f : IlcFlit) (x : Nat × OutMsg) (l : List (Nat × OutMsg)) (s : State), s.ilcActive = true → f.bad = false → f.seq = s.ilc.expect → f.nak = true →
    (s.ilc.sent.dropWhile fun x => x.1 != f.ack) = x :: l →
    exec (.ilcenFlit f) s = .next (State.sendAllHeld { flitTaken s f with ilc := { (flitTaken s f).ilc with sent := x :: l }, out := s.out ++ (x :: l).map (·.2) })) ∧
  (∀ (f : IlcFlit) (s : State), s.ilcActive = true → f.bad = true →
    exec (.ilcenFlit f) s = .next (State.emit { s.countWrap (Reg.ILC_CNT 0) Fld.ILC_CNT_crc_errors 1 with
      ilc := { s.ilc with errMs := s.nt / 1000000, errs := if s.ilc.errMs = s.nt / 1000000 then s.ilc.errs + 1 else 1 } } (.ilcNak s.ilc.expect))) ∧
  (∀ (s : State), RegsKept s → Unwatched s → s.ilcActive = true → s.ilc.errMs = s.nt / 1000000 → s.fld (Reg.ILC_CTL 0) Fld.ILC_CTL_crc_limit < s.ilc.errs →
    Gives (exec .ilcenCrcLimit s) fun t => IlcenEnters s t 4 ∧
      t.fld (Reg.ILC_STATUS 0) Fld.ILC_STATUS_retrains = min (s.fld (Reg.ILC_STATUS 0) Fld.ILC_STATUS_retrains + 1) 65535) ∧
  (∀ (h : IlcHello) (s : State), s.ilcState = 2 → h.version = 1 → h.np8 = s.on (Reg.ILC_CTL 0) Fld.ILC_CTL_np8_compat →
    exec (.ilcenHello h) s = .next ((s.ilcLoad h).ilcEnter 3).flushIlcen.sendAllHeld) ∧
  (∀ (s : State), RegsKept s → Unwatched s → s.ilcState = 1 →
    Gives (exec .ilcenTrained s) fun t => IlcenEnters s { t with out := s.out } 2 ∧ t.out = s.out ++ [.ilcHello (s.on (Reg.ILC_CTL 0) Fld.ILC_CTL_np8_compat)]) ∧
  (∀ (s : State), s.ilcState = 1 → s.ilc.since + 50000000 ≤ s.nt → exec .ilcenTrainingTimeout s = .next ((s.ilcEnter 0).declareLost [] (List.range 8))) ∧
  (∀ (s : State), RegsKept s → Unwatched s → s.ilcState = 0 → s.on (Reg.ILC_CTL 0) Fld.ILC_CTL_enable = true → s.ilc.since + 100000000 ≤ s.nt → s.boot.idle = false → 9 ≤ s.doneStep →
    Gives (exec .ilcenRetry s) fun t => IlcenEnters s t 1) ∧
  (∀ (s : State), RegsKept s → Unwatched s → s.ilcState = 2 → s.ilc.since + 1000000 ≤ s.nt → (s.ilc.fails.filter fun t => decide (s.nt < t + 1000000000)).length < 2 →
    Gives (exec .ilcenParamTimeout s) fun t =>
      IlcenEnters { s with ilc := { s.ilc with fails := (s.ilc.fails.filter fun t => decide (s.nt < t + 1000000000)) ++ [s.nt] } } t 4 ∧
      t.fld (Reg.ILC_STATUS 0) Fld.ILC_STATUS_retrains = min (s.fld (Reg.ILC_STATUS 0) Fld.ILC_STATUS_retrains + 1) 65535) ∧
  (∀ (s : State), s.ilcState = 2 → s.ilc.since + 1000000 ≤ s.nt → 2 ≤ (s.ilc.fails.filter fun t => decide (s.nt < t + 1000000000)).length →
    exec .ilcenParamTimeout s = .next ((({ s with ilc := { s.ilc with fails := [] } } : State).ilcEnter 0).declareLost [] (List.range 8))) ∧
  (∀ (h : IlcHello) (s : State), RegsKept s → Unwatched s → s.ilcState = 2 → (h.version ≠ 1 ∨ h.np8 ≠ s.on (Reg.ILC_CTL 0) Fld.ILC_CTL_np8_compat) →
    (s.ilc.fails.filter fun t => decide (s.nt < t + 1000000000)).length < 2 →
    Gives (exec (.ilcenHello h) s) fun t =>
      IlcenEnters { s with ilc := { s.ilc with fails := (s.ilc.fails.filter fun t => decide (s.nt < t + 1000000000)) ++ [s.nt] } } t 4) ∧
  (∀ (line h : Nat) (s : State), s.coh.holds = [(line, h, 0)] → 76 ≤ s.nt →
    exec (.np8HoldExpiry line) s = .next (State.sendHeld { s with coh := { s.coh with holds := [] } } line))

/-- SNOOP_TIMEOUT declares the agent lost. AGENT_REMOVE of an active agent that holds no line turns it off at once. AGENT_LOSE makes the agent lost and opens a loss event without lines for it where it owns none; either write is ignored and logged while busy. LOSS_WALK_DONE cleans the directory and enters a lost line with its agent, event and NT in the log, or counts it where the log is full. DIR_PROBE answers with the entry of the line in its quadrant's slice. LLL_CONSUME takes entries from the front of the log and LLL_CLEAR_OVERFLOW clears the count of lines that found it full; outside quadrant 0 both are ignored and logged. -/
def Obligations.AgentsAreLost : Prop :=
  (∀ (a : Fin 8) (ecc : EccList) (s : State), s.ilcActive = true → s.ilc.closing = false →
    (s.coh.txns.any fun t => t.waiting.any fun w => w.1 == 32 + a.val && decide (w.2 + s.fld (Reg.ILC_CTL 0) Fld.ILC_CTL_snoop_timeout_us * 1000 ≤ s.nt)) = true →
    exec (.snoopTimeout a ecc) s = .next (s.declareLost ecc [a])) ∧
  (∀ (path : Path) (value : Word) (s : State), RegsKept s → s.on (Reg.ILC_AGENT_CTL 0) Fld.ILC_AGENT_CTL_busy = false → getF value Fld.ILC_AGENT_CTL_lose = 0 →
    s.agentState (getF value Fld.ILC_AGENT_CTL_agent) = 1 → HoldsNoLine s (32 + getF value Fld.ILC_AGENT_CTL_agent) → s.coh.waiting = [] → s.coh.txns = [] → s.coh.losses = [] → s.ilc.closing = false →
    (∀ b, b < 8 → s.agentState b ≠ 2) →
    Gives (exec (.agentRemove path value) s) fun t =>
      t.agentState (getF value Fld.ILC_AGENT_CTL_agent) = 0 ∧ t.fld (Reg.ILC_AGENT_CTL 0) Fld.ILC_AGENT_CTL_busy = 0 ∧
      RegsBut s t [Reg.ILC_AGENT 0 (getF value Fld.ILC_AGENT_CTL_agent), Reg.ILC_AGENT_CTL 0] ∧ t = { s with regs := t.regs }) ∧
  (∀ (path : Path) (value : Word) (s : State), RegsKept s → Unwatched s → s.on (Reg.ILC_AGENT_CTL 0) Fld.ILC_AGENT_CTL_busy = false → getF value Fld.ILC_AGENT_CTL_remove = 0 →
    s.agentState (getF value Fld.ILC_AGENT_CTL_agent) = 1 → HoldsNoLine s (32 + getF value Fld.ILC_AGENT_CTL_agent) → s.coh.waiting = [] → s.coh.txns = [] → s.coh.heldGrants = [] → s.ilc.held = [] →
    Gives (exec (.agentLose path value) s) fun t =>
      t.agentState (getF value Fld.ILC_AGENT_CTL_agent) = 3 ∧ (t.fld (Reg.ILC_STATUS 0) Fld.ILC_STATUS_lost).testBit (getF value Fld.ILC_AGENT_CTL_agent) = true ∧
      t.fld (Reg.ILC_AGENT_CTL 0) Fld.ILC_AGENT_CTL_busy = 1 ∧
      RegsBut s t [Reg.ILC_AGENT 0 (getF value Fld.ILC_AGENT_CTL_agent), Reg.ILC_AGENT_CTL 0, Reg.ILC_STATUS 0] ∧
      t = { s with
        regs := t.regs
        coh := { s.coh with losses := s.coh.losses ++ [⟨[getF value Fld.ILC_AGENT_CTL_agent], s.nextLoss, s.nt, [], [], false, 0, 0⟩] } }) ∧
  (∀ (path : Path) (value : Word) (s : State), s.on (Reg.ILC_AGENT_CTL 0) Fld.ILC_AGENT_CTL_busy = true →
    Gives (exec (.agentRemove path value) s) (fun t => Logged s t path 4 (Reg.ILC_AGENT_CTL 0)) ∧
    Gives (exec (.agentLose path value) s) (fun t => Logged s t path 4 (Reg.ILC_AGENT_CTL 0))) ∧
  (∀ (l : Loss) (line a e : Nat) (s : State), RegsKept s → s.workStopped = false → s.coh.losses = [l] → l.walked = false → l.lines = [line] → l.owners = [a] →
    s.fld (Reg.COH_LLL_STATUS 0) Fld.COH_LLL_STATUS_count < 4096 → e = (s.fld (Reg.COH_LLL_STATUS 0) Fld.COH_LLL_STATUS_head + s.fld (Reg.COH_LLL_STATUS 0) Fld.COH_LLL_STATUS_count) % 4096 →
    Gives (exec .lossWalkDone s) fun t =>
      t.coh = { s.coh with dir := s.coh.dir.map (fun d => d.filterMap (walkEntry l.agents)), losses := [{ l with walked := true, logged := 1, spill := 0 }] } ∧
      t.fld (Reg.COH_LLL_STATUS 0) Fld.COH_LLL_STATUS_count = s.fld (Reg.COH_LLL_STATUS 0) Fld.COH_LLL_STATUS_count + 1 ∧
      t.fld (Reg.COH_LLL0 0 e) Fld.COH_LLL0_line = line % 2 ^ 38 ∧ t.fld (Reg.COH_LLL0 0 e) Fld.COH_LLL0_agent = a % 8 ∧
      t.fld (Reg.COH_LLL0 0 e) Fld.COH_LLL0_event = l.event % 2 ^ 16 ∧ t.reg (Reg.COH_LLL1 0 e) = BitVec.ofNat 64 l.nt ∧
      RegsBut s t [Reg.COH_LLL0 0 e, Reg.COH_LLL1 0 e, Reg.COH_LLL_STATUS 0] ∧
      t = { s with regs := t.regs, coh := t.coh }) ∧
  (∀ (l : Loss) (line a : Nat) (s : State), RegsKept s → s.workStopped = false → s.coh.losses = [l] → l.walked = false → l.lines = [line] → l.owners = [a] →
    4096 ≤ s.fld (Reg.COH_LLL_STATUS 0) Fld.COH_LLL_STATUS_count →
    Gives (exec .lossWalkDone s) fun t =>
      t.coh.losses = [{ l with walked := true, logged := 0, spill := 1 }] ∧
      t.fld (Reg.COH_LLL_STATUS 0) Fld.COH_LLL_STATUS_overflow = min (s.fld (Reg.COH_LLL_STATUS 0) Fld.COH_LLL_STATUS_overflow + 1) 65535 ∧
      RegsBut s t [Reg.COH_LLL_STATUS 0] ∧ t = { s with regs := t.regs, coh := t.coh }) ∧
  (∀ (path : Path) (q : Quad) (value : Word) (s : State), RegsKept s → Unwatched s →
    Gives (exec (.dirProbe path q value) s) fun t =>
      t.reg (Reg.COH_DIR_RESULT q) = dirWord (s.dirEntry q (getF value Fld.COH_DIR_PROBE_line)) (s.lineBusy (getF value Fld.COH_DIR_PROBE_line)) ∧
      t.fld (Reg.COH_CNT q) Fld.COH_CNT_lookups = (s.fld (Reg.COH_CNT q) Fld.COH_CNT_lookups + 1) % 2 ^ Fld.COH_CNT_lookups.width ∧
      RegsBut s t [Reg.COH_DIR_PROBE q, Reg.COH_DIR_RESULT q, Reg.COH_CNT q] ∧ t = { s with regs := t.regs }) ∧
  (∀ (path : Path) (value : Word) (n : Nat) (s : State), RegsKept s → getF value Fld.COH_LLL_CTL_clear_overflow = 0 →
    n = min (s.fld (Reg.COH_LLL_STATUS 0) Fld.COH_LLL_STATUS_count) (getF value Fld.COH_LLL_CTL_consume) →
    Gives (exec (.lllConsume path 0 value) s) fun t =>
      t.fld (Reg.COH_LLL_STATUS 0) Fld.COH_LLL_STATUS_count = s.fld (Reg.COH_LLL_STATUS 0) Fld.COH_LLL_STATUS_count - n ∧
      t.fld (Reg.COH_LLL_STATUS 0) Fld.COH_LLL_STATUS_head = (s.fld (Reg.COH_LLL_STATUS 0) Fld.COH_LLL_STATUS_head + n) % 4096 ∧
      RegsBut s t [Reg.COH_LLL_STATUS 0] ∧ t = { s with regs := t.regs }) ∧
  (∀ (path : Path) (value : Word) (s : State), RegsKept s →
    Gives (exec (.lllClearOverflow path 0 value) s) fun t =>
      t.fld (Reg.COH_LLL_STATUS 0) Fld.COH_LLL_STATUS_overflow = 0 ∧ RegsBut s t [Reg.COH_LLL_STATUS 0] ∧ t = { s with regs := t.regs }) ∧
  (∀ (path : Path) (q : Quad) (value : Word) (s : State), q ≠ 0 →
    Gives (exec (.lllConsume path q value) s) (fun t => Logged s t path 6 (Reg.COH_LLL_CTL q)) ∧
    Gives (exec (.lllClearOverflow path q value) s) (fun t => Logged s t path 6 (Reg.COH_LLL_CTL q)))

/-- FRAME_SLOT of an ACTIVE link resends the frame whose turn it is in a replay; sends IDLE while the CORE clocks stand or nothing can go; and else sends the next frame of the packet in progress, or of the one that starts. DATA_FRAME with the expected number is taken and its bytes go to the router; one ahead of it makes a NAK due, one behind it is counted, and one in error is counted with a NAK due. IDLE gives its ack, nak and credit fields. NAK_RESEND makes the NAK due again, and REPLAY_TIMEOUT starts the replay at the oldest frame. -/
def Obligations.FramesAreDelivered : Prop :=
  (∀ (n : LinkId) (i : Nat) (f : Frame) (s : State), s.linkState n = 6 → s.linkIdle n = false → (s.link n).slots + 1 < 65536 → n.val < s.links.length →
    (s.link n).replayAt = some ((s.link n).ackBase + i) → i < 2048 → (s.link n).replay[i]? = some f →
    exec (.frameSlot n) s = .next (State.sendFrame (s.setLink n { s.link n with
      slots := (s.link n).slots + 1, replayAt := if i + 1 < (s.link n).replay.length then some (((s.link n).ackBase + i + 1) % 4096) else none }) n f)) ∧
  (∀ (n : LinkId) (s : State), s.linkState n = 6 → s.linkIdle n = false → (s.link n).slots + 1 < 65536 → (s.link n).replayAt = none → s.coreStopped = true →
    exec (.frameSlot n) s = .next ((s.tickWindow n).sendFrame n (ctrlFrame 0 []))) ∧
  (∀ (n : LinkId) (key : Nat) (w s : State), SlotDue s n → w = (s.tickWindow n).deferAll n → (w.link n).tx = some key →
    exec (.frameSlot n) s = .next (if (w.sendData n key).2 then (w.sendData n key).1 else (w.sendData n key).1.sendFrame n (ctrlFrame 0 []))) ∧
  (∀ (n : LinkId) (key : Nat) (w s : State), SlotDue s n → w = (s.tickWindow n).deferAll n → (w.link n).tx = none → (w.link n).outstanding < 2048 → w.pick n = some key → ((w.startPacket n key).link n).tx = some key →
    exec (.frameSlot n) s = .next (if ((w.startPacket n key).sendData n key).2 then ((w.startPacket n key).sendData n key).1
      else ((w.startPacket n key).sendData n key).1.sendFrame n (ctrlFrame 0 []))) ∧
  (∀ (n : LinkId) (w s : State), SlotDue s n → w = (s.tickWindow n).deferAll n → (w.link n).tx = none → w.pick n = none →
    exec (.frameSlot n) s = .next (w.sendFrame n (ctrlFrame 0 []))) ∧
  (∀ (n : LinkId) (f : Frame) (w s : State), (s.linkState n = 6 ∨ s.linkState n = 7) → frameError f = false → w = s.takeFields n f → f.seq % 4096 = (w.link n).expect →
    exec (.dataFrame n f) s = .next (State.receiveBytes ((w.setLink n { w.link n with expect := ((w.link n).expect + 1) % 4096, nak := false, nakDue := false }).countWrap (Reg.LNK_CNT0 n) Fld.LNK_CNT0_rx_frames 1)
      n (f.vc % 8) f.fill (f.payload.take f.fill))) ∧
  (∀ (n : LinkId) (f : Frame) (w s : State), (s.linkState n = 6 ∨ s.linkState n = 7) → frameError f = false → w = s.takeFields n f →
    0 < (f.seq % 4096 + 4096 - (w.link n).expect) % 4096 → (f.seq % 4096 + 4096 - (w.link n).expect) % 4096 < 2048 → (w.link n).nak = false →
    exec (.dataFrame n f) s = .next (w.setLink n { w.link n with nakDue := true })) ∧
  (∀ (n : LinkId) (f : Frame) (w s : State), (s.linkState n = 6 ∨ s.linkState n = 7) → frameError f = false → w = s.takeFields n f →
    2048 ≤ (f.seq % 4096 + 4096 - (w.link n).expect) % 4096 →
    exec (.dataFrame n f) s = .next (w.countSat (Reg.LNK_CNT1 n) Fld.LNK_CNT1_dups 1)) ∧
  (∀ (n : LinkId) (f : Frame) (s : State), RegsKept s → Unwatched s → s.linkState n = 6 → frameError f = true → (s.link n).nak = false → n.val < s.links.length →
    Gives (exec (.dataFrame n f) s) fun t =>
      (t.link n).nakDue = true ∧ (t.link n).window = ((s.link n).window.getD 0 0 + 1) :: (s.link n).window.drop 1 ∧
      t.fld (Reg.LNK_CNT1 n) Fld.LNK_CNT1_crc_err = min (s.fld (Reg.LNK_CNT1 n) Fld.LNK_CNT1_crc_err + 1) (2 ^ 20 - 1) ∧
      RegsBut s t [Reg.LNK_CNT1 n, Reg.LNK_CNT3 n] ∧ t = { s.setLink n { s.link n with nakDue := true, window := (t.link n).window } with regs := t.regs }) ∧
  (∀ (n : LinkId) (f : Frame) (s : State), 4 ≤ s.linkState n → s.linkState n ≤ 8 → frameError f = false → exec (.idle n f) s = .next (s.takeFields n f)) ∧
  (∀ (n : LinkId) (s : State), s.linkState n = 6 → (s.link n).nak = true → (s.link n).nakNt * 2 + s.fld (Reg.LNK_CFG n) Fld.LNK_CFG_replay_timeout_us * 1000 ≤ s.nt * 2 →
    exec (.nakResend n) s = .next (s.setLink n { s.link n with nakDue := true })) ∧
  (∀ (n : LinkId) (s : State), RegsKept s → Unwatched s → s.linkState n = 6 → (s.link n).outstanding ≠ 0 → (s.link n).ackNt + s.fld (Reg.LNK_CFG n) Fld.LNK_CFG_replay_timeout_us * 1000 ≤ s.nt →
    Gives (exec (.replayTimeout n) s) fun t =>
      t.fld (Reg.LNK_CNT1 n) Fld.LNK_CNT1_replays = min (s.fld (Reg.LNK_CNT1 n) Fld.LNK_CNT1_replays + 1) 65535 ∧ RegsBut s t [Reg.LNK_CNT1 n] ∧
      t = { s.setLink n { s.link n with replayAt := some (s.link n).ackBase, ackNt := s.nt } with regs := t.regs })

/-- LINK_TRAINING_DONE with two trained lanes puts them into slots 0 and 1, the third being the spare if it is trained, and leads to ALIGN. LINK_TRAINING_TIMEOUT, ALIGN_TIMEOUT, PARAM_TIMEOUT and SYNTONISE_TIMEOUT, of the time source, lead to DOWN, counted. ALIGN_LOCK leads to PARAM. HELLO_TICK sends a HELLO; HELLO resumes the session of the same peer or starts it fresh, records the peer and leads to SYNTONISE. SYNTONISE_LOCK leads to OFFSET and ends holdover on the time source. TIME_EXCHANGE_TICK sends the TIME_REQ of the next exchange; TIME_REQ is answered with both instants of this end, and the sixteenth leads to ACTIVE; TIME_RESP records its exchange, and with the sixteenth the delay and offset of the best one are given, NT is corrected from the source link, and the link is ACTIVE. DOWN_RETRY trains again. -/
def Obligations.LinksComeUp : Prop :=
  (∀ (n : LinkId) (a b : Fin 3) (third : Bool) (s : State), RegsKept s → Unwatched s → s.linkState n = 1 → a ≠ b → s.boot.laneFailed = [] → s.nt ≤ (s.link n).since + 900000000 →
    Gives (exec (.linkTrainingDone n a b third) s) fun t =>
      t.linkState n = 2 ∧ t.fld (Reg.LNK_STATUS n) Fld.LNK_STATUS_slot0 = a ∧ t.fld (Reg.LNK_STATUS n) Fld.LNK_STATUS_slot1 = b ∧
      t.fld (Reg.LNK_STATUS n) Fld.LNK_STATUS_spare = (if third then 3 - a.val - b.val else 3) ∧
      t.laneRole n a = 1 ∧ t.laneRole n b = 1 ∧ t.laneRole n (3 - a.val - b.val) = (if third then 2 else 0) ∧
      RegsBut s t [Reg.LNK_STATUS n, Reg.LNK_LANE n 0, Reg.LNK_LANE n 1, Reg.LNK_LANE n 2, Reg.EVT_PENDING, Reg.EVT_CNT] ∧
      t = { s.setLink n { s.link n with since := s.nt } with regs := t.regs, events := t.events }) ∧
  (∀ (n : LinkId) (s : State), RegsKept s → Unwatched s → (s.link n).since + 900000000 ≤ s.nt →
    (s.linkState n = 1 → Gives (exec (.linkTrainingTimeout n) s) (LinkDown s n)) ∧ (s.linkState n = 2 → Gives (exec (.alignTimeout n) s) (LinkDown s n)) ∧
    (s.linkState n = 3 → Gives (exec (.paramTimeout n) s) (LinkDown s n))) ∧
  (∀ (n : LinkId) (s : State), RegsKept s → Unwatched s → s.linkState n = 2 → s.nt ≤ (s.link n).since + 10000000 →
    Gives (exec (.alignLock n) s) (LinkEnters s n 3)) ∧
  (∀ (n : LinkId) (s : State), s.linkState n = 3 → s.linkIdle n = false → exec (.helloTick n) s = .next (s.sendFrame n (ctrlFrame 1 (s.helloBytes n)))) ∧
  (∀ (n : LinkId) (f : Frame) (w s : State), s.linkState n = 3 → frameError f = false → leAt f.payload 0 1 = 1 →
    (List.range 8).foldl (fun a v => a + leAt f.payload (20 + 2 * v) 2) 0 ≤ 1536 →
    w = (if (s.link n).peer = some (leAt f.payload 8 8, leAt f.payload 2 2) then s.resumeSession n f.payload else s.freshSession n f.payload) →
    exec (.hello n f) s = .next ((((w.setLink n { w.link n with
        peer := some (leAt f.payload 8 8, leAt f.payload 2 2), peerSource := leAt f.payload 1 1 % 2 == 1, exchanges := [], asked := none }).setFld
      (Reg.LNK_STATUS n) Fld.LNK_STATUS_peer_node (leAt f.payload 2 2)).setFld (Reg.LNK_STATUS n) Fld.LNK_STATUS_peer_link (leAt f.payload 4 1)).enterState n 4)) ∧
  (∀ (n : LinkId) (s : State), RegsKept s → Unwatched s → s.linkState n = 4 → s.nt ≤ (s.link n).since + 50000000 →
    Gives (exec (.syntoniseLock n) s) (LinkEnters (if s.timeSource n then s.setFld Reg.CLK_STATUS Fld.CLK_STATUS_holdover 0 else s) n 5)) ∧
  (∀ (n : LinkId) (s : State), RegsKept s → Unwatched s → s.linkState n = 4 → s.timeSource n = true → (s.link n).since + 50000000 ≤ s.nt →
    Gives (exec (.syntoniseTimeout n) s) (LinkDown s n)) ∧
  (∀ (n : LinkId) (frac : Fin 65536) (s : State), s.linkState n = 5 → s.asksTime n = true → (s.link n).exchanges.length < 16 → s.linkIdle n = false →
    exec (.timeExchangeTick n frac) s = .next ((s.setLink n { s.link n with asked := some ((s.link n).exchanges.length, s.nt * 65536 + frac.val) }).sendFrame n
      (ctrlFrame 2 ([BitVec.ofNat 8 (s.link n).exchanges.length] ++ leBytes 7 0 ++ leBytes 8 s.nt ++ leBytes 2 frac)))) ∧
  (∀ (n : LinkId) (f : Frame) (arr dep : Fin 65536) (w s : State), s.linkState n = 5 → frameError f = false → s.linkIdle n = false → w = s.takeFields n f → w.linkState n = 5 →
    exec (.timeReq n f arr dep) s = .next (if leAt f.payload 0 1 = 15 then
        State.enterActive (if (answeredTime w n f arr dep).timeSource n && ((answeredTime w n f arr dep).link n).peerSource then
          (answeredTime w n f arr dep).raise 0x0901 8 n [BitVec.ofNat 8 n, 5, 5] else answeredTime w n f arr dep) n
      else answeredTime w n f arr dep)) ∧
  (∀ (n : LinkId) (f : Frame) (arr : Fin 65536) (i t1 : Nat) (w s : State), s.linkState n = 5 → frameError f = false → w = s.takeFields n f → w.linkState n = 5 →
    (w.link n).asked = some (i, t1) → leAt f.payload 0 1 = i → (w.link n).exchanges.length < 15 →
    exec (.timeResp n f arr) s = .next (exchangeDone w n f arr t1)) ∧
  (∀ (n : LinkId) (f : Frame) (arr : Fin 65536) (i t1 : Nat) (w s : State), RegsKept s → n.val < s.links.length → s.linkState n = 5 → frameError f = false → w = s.takeFields n f → w.linkState n = 5 →
    (w.link n).asked = some (i, t1) → leAt f.payload 0 1 = i → (w.link n).exchanges.length = 15 →
    exec (.timeResp n f arr) s = .next (State.enterActive
      (if w.timeSource n then (timeMeasured (exchangeDone w n f arr t1) n).correctTime (measuredTime (exchangeDone w n f arr t1) n).2
        else timeMeasured (exchangeDone w n f arr t1) n) n)) ∧
  (∀ (n : LinkId) (s : State), s.linkState n = 9 → (s.link n).since + s.fld (Reg.LNK_CFG n) Fld.LNK_CFG_retry_ms * 1000000 ≤ s.nt →
    s.on (Reg.LNK_CTL n) Fld.LNK_CTL_enable = true → s.linkIdle n = false → exec (.downRetry n) s = .next (s.startTraining n))

/-- TRAIN keeps a spare or training lane locked. LANE_FAILURE of an active lane in ACTIVE stops data and asks for the spare, or without one takes the link DOWN; in PAUSE it waits for the swap to end; of the spare, it leaves the link without one. SWAP is answered with SWAP_ACK and the slot moves; SWAP_ACK moves it at the end that asked. SPARE_DESKEW_DONE and EQUALISER_ADAPTATION_DONE send RESUME, and RESUME from the peer after it makes the link ACTIVE and replays from the number it carries, counting a swap. RETRAIN and ERROR_WINDOW_EXCEEDED retrain an ACTIVE link, PAUSE_TIMEOUT a paused one. RETRAIN_TIMEOUT retrains again, or at the third failure within a second takes the link DOWN; DOWN takes an ACTIVE one DOWN. LANE_RETRY of a failed lane puts it on trial or leaves it failed; LANE_SPARE_PROMOTION after a second of lock makes it the spare. LNK_CTL_RETRAIN retrains an ACTIVE link, and LNK_CTL_DISCARD of a link that is DOWN discards what it holds. -/
def Obligations.LanesAndRetrains : Prop :=
  (∀ (n : LinkId) (lane : Fin 3) (p : Prong) (s : State), p.valid = true → 2 ≤ s.laneRole n lane → exec (.train n lane p) s = .next (s.setFld (Reg.LNK_LANE n lane) Fld.LNK_LANE_lock 1)) ∧
  (∀ (n : LinkId) (lane sp : Fin 3) (s : State), RegsKept s → Unwatched s → s.stopped = false → s.timeSource n = false → s.linkIdle n = false → s.linkState n = 6 → s.laneRole n lane = 1 →
    s.spareLane n = some sp.val → s.on (Reg.LNK_CTL n) Fld.LNK_CTL_spare_en = true →
    Gives (exec (.laneFailure n lane) s) fun t =>
      t.linkState n = 7 ∧ t.laneRole n lane = 0 ∧
      t.out = s.out ++ ((List.range 3).filter fun m => m != lane.val && s.laneRole n m != 0).map (fun m => .prong n m (s.prongOf n .swap lane)) ∧
      RegsBut s t [Reg.LNK_STATUS n, Reg.LNK_LANE n lane, Reg.EVT_PENDING, Reg.EVT_CNT] ∧
      t = { s.setLink n { s.link n with since := s.nt, swap := some ⟨lane, sp, false, false⟩, resumeSent := false, resumeGot := none } with regs := t.regs, events := t.events, out := t.out }) ∧
  (∀ (n : LinkId) (lane : Fin 3) (s : State), RegsKept s → s.linkState n = 6 → s.laneRole n lane = 1 → s.fld (Reg.LNK_STATUS n) Fld.LNK_STATUS_spare = 3 →
    exec (.laneFailure n lane) s = .next ((s.setLane n lane 0).goDown n)) ∧
  (∀ (n : LinkId) (lane : Fin 3) (s : State), s.linkState n = 7 → s.laneRole n lane = 1 → lane.val ∉ (s.link n).laneFaults →
    exec (.laneFailure n lane) s = .next (s.setLink n { s.link n with laneFaults := (s.link n).laneFaults ++ [lane.val] })) ∧
  (∀ (n : LinkId) (lane : Fin 3) (s : State), s.laneRole n lane = 2 →
    exec (.laneFailure n lane) s = .next ((s.setLane n lane 0).setFld (Reg.LNK_STATUS n) Fld.LNK_STATUS_spare 3)) ∧
  (∀ (n : LinkId) (p : Prong) (sp : Fin 3) (s : State), RegsKept s → Unwatched s → s.stopped = false → s.timeSource n = false → s.linkIdle n = false → s.linkState n = 6 → p.valid = true → p.lane < 3 →
    s.spareLane n = some sp.val → p.lane ≠ sp.val →
    Gives (exec (.swap n p) s) fun t =>
      t.linkState n = 7 ∧ t.laneRole n p.lane = 0 ∧ t.laneRole n sp = 1 ∧ t.fld (Reg.LNK_STATUS n) Fld.LNK_STATUS_spare = 3 ∧
      t.out = s.out ++ ((List.range 3).filter fun m => s.laneRole n m != 0).map (fun m => .prong n m (s.prongOf n .swapAck p.lane)) ∧
      RegsBut s t [Reg.LNK_STATUS n, Reg.LNK_LANE n p.lane, Reg.LNK_LANE n sp, Reg.EVT_PENDING, Reg.EVT_CNT] ∧
      t = { s.setLink n { s.link n with since := s.nt, swap := some ⟨p.lane, sp, true, false⟩, resumeSent := false, resumeGot := none } with regs := t.regs, events := t.events, out := t.out }) ∧
  (∀ (n : LinkId) (p : Prong) (sp : Nat) (s : State), s.linkState n = 7 → p.valid = true → (s.link n).swap = some ⟨p.lane, sp, false, false⟩ →
    exec (.swapAck n p) s = .next ((s.moveSlot n p.lane sp).setLink n { s.link n with swap := some ⟨p.lane, sp, true, false⟩ })) ∧
  (∀ (n : LinkId) (x : Swap) (s : State), s.linkState n = 7 → (s.link n).swap = some x → x.moved = true → (s.link n).resumeGot = none → s.linkIdle n = false →
    exec (.spareDeskewDone n) s = .next { s.setLink n { s.link n with swap := some { x with deskewed := true }, resumeSent := true } with
      out := s.out ++ ((List.range 3).filter fun m => s.laneRole n m != 0).map (fun m => .prong n m (s.prongOf n .resume 0)) }) ∧
  (∀ (n : LinkId) (s : State), s.linkState n = 8 → (s.link n).resumeGot = none → s.linkIdle n = false →
    exec (.equaliserAdaptationDone n) s = .next { s.setLink n { s.link n with resumeSent := true } with
      out := s.out ++ ((List.range 3).filter fun m => s.laneRole n m != 0).map (fun m => .prong n m (s.prongOf n .resume 0)) }) ∧
  (∀ (n : LinkId) (p : Prong) (s : State), (s.linkState n = 7 ∨ s.linkState n = 8) → p.valid = true → n.val < s.links.length → (s.link n).resumeSent = true → (s.link n).laneFaults = [] →
    exec (.resume n p) s = .next (((if (s.link n).swap.any (·.moved) then
        ((s.setLink n { s.link n with resumeGot := some (p.next % 4096) }).enterActive n).countSat (Reg.LNK_CNT2 n) Fld.LNK_CNT2_spares 1
      else (s.setLink n { s.link n with resumeGot := some (p.next % 4096) }).enterActive n).takeAck n (p.next % 4096)).startReplay n (p.next % 4096) false)) ∧
  (∀ (n : LinkId) (p : Prong) (s : State), s.linkState n = 6 → p.valid = true → exec (.retrain n p) s = .next (s.startRetrain n) ∧ exec (.down n p) s = .next (s.goDown n)) ∧
  (∀ (n : LinkId) (s : State), s.linkState n = 8 → (s.link n).since + 20000000 ≤ s.nt → ((s.link n).fails.filter fun t => decide (s.nt < t + 1000000000)).length < 2 →
    exec (.retrainTimeout n) s = .next ((s.setLink n { s.link n with fails := s.nt :: (s.link n).fails.filter fun t => decide (s.nt < t + 1000000000) }).startRetrain n)) ∧
  (∀ (n : LinkId) (s : State), s.linkState n = 8 → (s.link n).since + 20000000 ≤ s.nt → 2 ≤ ((s.link n).fails.filter fun t => decide (s.nt < t + 1000000000)).length →
    exec (.retrainTimeout n) s = .next ((s.setLink n { s.link n with fails := s.nt :: (s.link n).fails.filter fun t => decide (s.nt < t + 1000000000) }).goDown n)) ∧
  (∀ (n : LinkId) (s : State), RegsKept s → Unwatched s → s.linkIdle n = false → (s.link n).swap = none → s.linkState n = 7 → (s.link n).since + 20000 ≤ s.nt →
    Gives (exec (.pauseTimeout n) s) fun t =>
      t.linkState n = 8 ∧ t.fld (Reg.LNK_CNT2 n) Fld.LNK_CNT2_retrains = min (s.fld (Reg.LNK_CNT2 n) Fld.LNK_CNT2_retrains + 1) 65535 ∧
      t.out = s.out ++ ((List.range 3).filter fun m => s.laneRole n m != 0).map (fun m => .prong n m (s.prongOf n .retrain 0)) ∧
      RegsBut s t [Reg.LNK_STATUS n, Reg.LNK_CNT2 n, Reg.EVT_PENDING, Reg.EVT_CNT] ∧
      t = { s.setLink n { s.link n with since := s.nt, resumeSent := false, resumeGot := none, replayAt := none } with regs := t.regs, events := t.events, out := t.out }) ∧
  (∀ (n : LinkId) (s : State), s.linkState n = 6 → s.fld (Reg.LNK_CFG n) Fld.LNK_CFG_err_limit < s.fld (Reg.LNK_CNT3 n) Fld.LNK_CNT3_window → exec (.errorWindowExceeded n) s = .next (s.startRetrain n)) ∧
  (∀ (n : LinkId) (lane : Fin 3) (s : State), s.linkState n = 6 → s.laneRole n lane = 0 → (∀ e ∈ (s.link n).laneSince, e.1 ≠ lane.val) →
    exec (.laneRetry n lane true) s = .next (((s.setFld (Reg.LNK_LANE n lane) Fld.LNK_LANE_lock 1).setLink n { s.link n with laneSince := (lane.val, s.nt) :: (s.link n).laneSince }).setLane n lane 3) ∧
    exec (.laneRetry n lane false) s = .next (((s.setFld (Reg.LNK_LANE n lane) Fld.LNK_LANE_lock 0).setLink n (s.link n)).setLane n lane 0)) ∧
  (∀ (n : LinkId) (lane : Fin 3) (since : Nat) (s : State), s.laneRole n lane = 3 → (s.link n).laneSince = [(lane.val, since)] → since + 1000000000 ≤ s.nt → s.fld (Reg.LNK_STATUS n) Fld.LNK_STATUS_spare = 3 →
    exec (.laneSparePromotion n lane) s = .next { ((s.setLane n lane 2).setFld (Reg.LNK_STATUS n) Fld.LNK_STATUS_spare lane).setLink n { s.link n with laneSince := [] } with
      boot := { s.boot with laneFailed := s.boot.laneFailed.filter (· != (n.val, lane.val)) } }) ∧
  (∀ (path : Path) (n : LinkId) (value : Word) (w s : State), w = s.writeFields path (Reg.LNK_CTL n) (setF value Fld.LNK_CTL_retrain 1) → getF value Fld.LNK_CTL_discard = 0 → w.linkState n = 6 →
    exec (.lnkCtlRetrain path n value) s = .next (w.startRetrain n)) ∧
  (∀ (path : Path) (n : LinkId) (value : Word) (w s : State), w = s.writeFields path (Reg.LNK_CTL n) (setF value Fld.LNK_CTL_discard 1) → getF value Fld.LNK_CTL_retrain = 0 →
    exec (.lnkCtlDiscard path n value) s = .next (if w.linkState n = 9 ∨ w.linkState n = 0 then w.discardHeld n else w.logViol path 4 (Reg.LNK_CTL n)))

/-- PACKET_HEAD_ROUTE of a head whose destination is elsewhere sends it to the output of the entry that the table gives, with its dateline level; one that is addressed here goes to the local port; one without hops left, or without a route, is counted and dropped; at the local port it waits while the router is not enabled. DRAIN_END ends the drain and retires the version that is not injected under auto_retire. TAG_QUARANTINE_END frees the tag, and the oldest request of its quadrant that waits takes it. DROP_NOTICE_HOLDOFF_END sends one notice for the drops gathered and begins a new holdoff, or ends it. TAG_TIMEOUT of a completion frees the tag, counts, and sends the completion again. -/
def Obligations.PacketsAreRouted : Prop :=
  (∀ (port : Fin 32) (vc : Vc) (out dl : Nat) (x : InPkt) (rest : List InPkt) (s : State), HeadDue s port vc x rest → s.verValid x.hdr.epoch = true → s.toHere x.hdr.dst = false → x.hdr.hops ≠ 0 →
    s.lookup x.hdr = (out, dl) → out < 32 →
    exec (.packetHeadRoute (port.castSucc) vc) s = .next (s.setInq (inKey port vc) ({ x with out := some out, dl := dl } :: rest))) ∧
  (∀ (port : Fin 32) (vc : Vc) (x : InPkt) (rest : List InPkt) (s : State), HeadDue s port vc x rest → s.toHere x.hdr.dst = true →
    exec (.packetHeadRoute (port.castSucc) vc) s = .next ((s.setInq (inKey port vc) ({ x with out := some 32, dl := x.hdr.dl } :: rest)).settle port vc)) ∧
  (∀ (port : Fin 32) (vc : Vc) (x : InPkt) (rest : List InPkt) (s : State), HeadDue s port vc x rest → s.toHere x.hdr.dst = false → x.hdr.hops = 0 →
    exec (.packetHeadRoute (port.castSucc) vc) s = .next ((((s.countSat Reg.RTE_CNT0 Fld.RTE_CNT0_ttl 1).observe 9 (if x.port < 32 then x.port / 8 else x.port - 32) 0x242 1 noWork
      ([1, 0] ++ leBytes 2 x.hdr.dst ++ leBytes 2 x.hdr.src)).setInq (inKey port vc) ({ x with out := some 63 } :: rest)).settle port vc)) ∧
  (∀ (port : Fin 32) (vc : Vc) (x : InPkt) (rest : List InPkt) (s : State), HeadDue s port vc x rest → s.verValid x.hdr.epoch = true → s.toHere x.hdr.dst = false → x.hdr.hops ≠ 0 → (s.lookup x.hdr).1 = 63 →
    exec (.packetHeadRoute (port.castSucc) vc) s = .next (((s.countDrop .noRoute x.hdr x.port).setInq (inKey port vc) ({ x with out := some 63 } :: rest)).settle port vc)) ∧
  (∀ (vc : Vc) (x : InPkt) (rest : List InPkt) (s : State), s.inq (inKey 32 vc) = x :: rest → x.out = none → (s.boot.routerOn = false ∨ s.on Reg.RTE_CTL Fld.RTE_CTL_enable = false) →
    exec (.packetHeadRoute 32 vc) s = .next s) ∧
  (∀ (x : Nat) (s : State), RegsKept s → s.router.drainEnd = some x → x ≤ s.nt →
    Gives (exec .drainEnd s) fun t =>
      t.router = { s.router with drainEnd := none } ∧ t.fld Reg.RTE_VER Fld.RTE_VER_draining = 0 ∧
      t.verValid (if s.on Reg.RTE_CTL Fld.RTE_CTL_inj_epoch then 1 else 0) = s.verValid (if s.on Reg.RTE_CTL Fld.RTE_CTL_inj_epoch then 1 else 0) ∧
      t.verValid (if s.on Reg.RTE_CTL Fld.RTE_CTL_inj_epoch then 0 else 1) = (!s.on Reg.RTE_CTL Fld.RTE_CTL_auto_retire && s.verValid (if s.on Reg.RTE_CTL Fld.RTE_CTL_inj_epoch then 0 else 1)) ∧
      RegsBut s t [Reg.RTE_VER] ∧ t = { s with regs := t.regs, shadow := t.shadow, router := t.router }) ∧
  (∀ (tag : Fin 4096) (s : State), (s.router.quarantine.any fun x => x.1 == tag.val && decide (x.2 ≤ s.nt)) = true → (∀ w ∈ s.router.waiting, w.1 ≠ tag.val / 1024) →
    exec (.tagQuarantineEnd tag) s = .next { s with router := { s.router with quarantine := s.router.quarantine.filter (·.1 != tag.val) } }) ∧
  (∀ (tag : Fin 4096) (q : Nat) (p : Packet) (why : Purpose) (first : Nat) (l : List (Nat × Packet × Purpose × Nat)) (s : State), (s.router.quarantine.any fun x => x.1 == tag.val && decide (x.2 ≤ s.nt)) = true →
    s.router.waiting = (q, p, why, first) :: l → q = tag.val / 1024 →
    exec (.tagQuarantineEnd tag) s = .next (State.sendAgain { s with router := { s.router with quarantine := s.router.quarantine.filter (·.1 != tag.val), waiting := l } } q p why first)) ∧
  (∀ (c : Client) (h : Holdoff) (s : State), s.traffic.holdoffs = [h] → h.client = c.val → h.until' ≤ s.nt →
    exec (.dropNoticeHoldoffEnd c) s = .next (if h.drops = 0 then { s with traffic := { s.traffic with holdoffs := [] } }
      else { s.notice c h.drops h.opcode h.tc h.firstNt with traffic := { s.traffic with holdoffs := [⟨c, s.nt + 1000000, 0, 0, 0, 0⟩] } })) ∧
  (∀ (tag : Fin 4096) (q j seq : Nat) (g : Tag) (s : State), s.workStopped = false → (s.router.tags.find? fun t => t.tag == tag.val) = some g → g.purpose = .completion q j seq →
    g.sentNt + getF g.timing Fld.RTE_TIMING_tag_timeout_us * 1000 ≤ s.nt →
    exec (.tagTimeout tag) s = .next (((s.countWrap (Reg.RTE_TAG_STATUS (tag.val / 1024)) Fld.RTE_TAG_STATUS_timeouts 1).releaseTag tag).sendAgain (g.tag / 1024) g.pkt g.purpose g.firstNt))

/-- READ of bytes that the client may read answers READ_DATA with status 0 and the bytes; READ and WRITE that fail a check answer with the status of its cause; WRITE puts its bytes in place and answers WRITE_ACK with their number. ACTIVATION is written into the bank of its open channel, noted and accepted, or, with no channel, refused and counted. READ_DATA with the data of a ring fetch or of a source frees the tag and brings them; WRITE_ACK of a completion frees the tag, and of the mirror acknowledges its range; ACT_ACK takes the packet from those that wait, or lets it be sent again. An answer that matches no request is counted. DROP_NOTICE is checked and calls for nothing. -/
def Obligations.FabricRequestsAndAnswers : Prop :=
  (∀ (port : Fin 36) (p : Packet) (env : Env) (e : SegEnt) (w w2 : State) (d : List Byte) (rebuilt : Bool) (ids : List Nat) (s : State), Accepted s p opRead → (s.takeEjected port p).serves p.client = true →
    (s.takeEjected port p).packetCheck p ⟨p.addr, p.aux, 1, 0, false⟩ = .ok e → (s.takeEjected port p).packetPages env p e ⟨p.addr, p.aux, 1, 0, false⟩ = (w, .fine) →
    w.poolRead env .lineCache [p.src, p.tag, p.gen, 8] (e.paOf p.addr) p.aux = (w2, .ok d rebuilt ids) →
    exec (.read port p env) s = .next (w2.inject port (answerTo p opReadData 1 0 0 d))) ∧
  (∀ (port : Fin 36) (p : Packet) (env : Env) (status : Nat) (s : State), (s.takeEjected port p).serves p.client = true →
    (Accepted s p opRead → (s.takeEjected port p).packetCheck p ⟨p.addr, p.aux, 1, 0, false⟩ = .error status →
      exec (.read port p env) s = .next ((s.takeEjected port p).inject port (answerTo p opReadData 1 (2 + 16 * causeOf status) 0 []))) ∧
    (Accepted s p opWrite → s.pair.log = [] → (s.takeEjected port p).packetCheck p ⟨p.addr, p.payload.length, 1, 0, true⟩ = .error status →
      exec (.write port p env) s = .next ((s.takeEjected port p).inject port (answerTo p opWriteAck 1 (2 + 16 * causeOf status) 0 [])))) ∧
  (∀ (port : Fin 36) (p : Packet) (env : Env) (e : SegEnt) (w w2 : State) (d : List Byte) (rebuilt : Bool) (ids : List Nat) (s : State), Accepted s p opWrite → (s.takeEjected port p).serves p.client = true →
    (s.takeEjected port p).packetCheck p ⟨p.addr, p.payload.length, 1, 0, true⟩ = .ok e → (s.takeEjected port p).packetPages env p e ⟨p.addr, p.payload.length, 1, 0, true⟩ = (w, .fine) →
    w.poolWrite env .lineCache (e.paOf p.addr) p.payload = (w2, .ok d rebuilt ids) → w2.mirrorWrite p = false → w2.mirrorOpen ids = false →
    exec (.write port p env) s = .next (w2.inject port (answerTo p opWriteAck 1 0 p.payload.length []))) ∧
  (∀ (port : Fin 36) (p : Packet) (c : Channel) (st f oa : Nat) (w : Doing) (s : State), Accepted s p opActivation → s.rcp.channels = [c] → c.id = leAt p.payload 0 2 → 16 ≤ p.payload.length → c.accepts p.payload = true → c.got = [] →
    c.at'.getD (leAt p.payload 2 2) (0, 0, 0) = (st, f, oa) →
    w = (Doing.look ⟨s.takeEjected port p, [], .go, [], []⟩ st f (oa + 32 * leAt p.payload 6 2) (p.payload.length - 16)).put st f (oa + 32 * leAt p.payload 6 2) (p.payload.drop 16) → w.halt = .go →
    exec (.activation port p) s = .next (State.inject { w.s with
      rcp := { w.s.rcp with channels := w.s.rcp.channels.map fun (x : Channel) =>
        if x.key == c.key && x.op == c.op && !x.got.contains (leAt p.payload 2 2, 32 * leAt p.payload 6 2, p.payload.length - 16)
        then { x with got := x.got ++ [(leAt p.payload 2 2, 32 * leAt p.payload 6 2, p.payload.length - 16)] } else x } } port (answerTo p opActAck 1 0 0 []))) ∧
  (∀ (port : Fin 36) (p : Packet) (s : State), Accepted s p opActivation → s.rcp.channels = [] →
    exec (.activation port p) s = .next (((s.takeEjected port p).countSat (Reg.RCP_CNT (p.client % 4)) Fld.RCP_CNT_recv_refused 1).inject port (answerTo p opActAck 1 0 1 []))) ∧
  (∀ (port : Fin 36) (p : Packet) (g : Tag) (q j seq n : Nat) (f : Fetch) (s : State), Answered s p opReadData opRead g → g.purpose = .fetch q j seq n → s.que.fetches = [f] → f.q = q → f.j = j → f.seq = seq → p.status = 0 → p.payload.length = g.pkt.aux →
    exec (.readData port p) s = .next { (s.takeEjected port p).releaseTag g.tag with que := { s.que with fetches := [{ f with data := some p.payload }] } }) ∧
  (∀ (port : Fin 36) (p : Packet) (g : Tag) (q j seq piece : Nat) (s : State), Answered s p opReadData opRead g → g.purpose = .operand q j seq piece → p.status % 16 = 0 → p.payload.length = g.pkt.aux →
    exec (.readData port p) s = .next (((s.takeEjected port p).releaseTag g.tag).bringPiece q j seq piece p.payload)) ∧
  (∀ (port : Fin 36) (p : Packet) (g : Tag) (q j seq : Nat) (s : State), Answered s p opWriteAck opWrite g → g.purpose = .completion q j seq →
    exec (.writeAck port p) s = .next ((s.takeEjected port p).releaseTag g.tag)) ∧
  (∀ (port : Fin 36) (p : Packet) (g : Tag) (id off n : Nat) (s : State), Answered s p opWriteAck opWrite g → g.purpose = .mirror id off n →
    exec (.writeAck port p) s = .next (((s.takeEjected port p).releaseTag g.tag).mirrorAck id off n p.status)) ∧
  (∀ (port : Fin 36) (p : Packet) (g : Tag) (order inst piece : Nat) (s : State), Answered s p opActAck opActivation g → g.purpose = .send order inst piece → s.runIs order = true → p.status % 16 = 0 →
    exec (.actAck port p) s = .next (if p.aux = 0 then
        { (s.takeEjected port p).releaseTag g.tag with rcp := { s.rcp with sends := s.rcp.sends.filter fun x => !(x.inst == inst && x.piece == piece) } }
      else ((s.takeEjected port p).releaseTag g.tag).sendAgainLater inst piece)) ∧
  (∀ (port : Fin 36) (p : Packet) (s : State), Welcome s p → p.opcode = opWriteAck → s.matchTag p = none →
    exec (.writeAck port p) s = .next ((s.takeEjected port p).countSat Reg.RTE_CNT1 Fld.RTE_CNT1_stale_gen 1)) ∧
  (∀ (port : Fin 36) (p : Packet) (s : State), Welcome s p → p.opcode = opDropNotice → exec (.dropNotice port p) s = .next (s.takeEjected port p))

/-- HEARTBEAT_TICK sends the BEAT on both paths, and the next is due 100 µs later. BEAT with a valid message of the partner, on the pins or in a packet, keeps its path alive and is heard; another is counted. HANDOVER makes a STANDBY claim. PATH_SILENT notes the path silent and the pair degraded, and, where the other path is silent too, makes a STANDBY declare the active failed and claim. CLAIM_TICK sends the CLAIM to the fabric manager, CLAIM_TIMEOUT returns the node to STANDBY. PAI_GRANT of a CLAIMING node takes over; of another it is ignored and logged. TAKEOVER_QUARANTINE_END takes up the journal slots of every paired queue pair in order and notes the NT at which service resumes. -/
def Obligations.PartnersHearAndClaim : Prop :=
  (∀ (s : State), s.beating = true → s.pair.nextBeat ≤ s.nt →
    exec .heartbeatTick s = .next { State.sendHeartbeat { s with out := s.out ++ [.heartbeat (s.heartbeat 0)] } s.partner (s.heartbeat 0) with
      pair := { s.pair with beats := (s.pair.beats + 1) % 2 ^ 32, nextBeat := s.nt + 100000 } }) ∧
  (∀ (m : List Byte) (s : State), s.role ≠ 0 → leAt m 2 1 ≠ 2 → s.heartbeatValid m = true → exec (.beat (.pins m)) s = .next ((s.pathAlive false).heard m)) ∧
  (∀ (port : Fin 36) (p : Packet) (s : State), Welcome s p → p.opcode = opHeartbeat → s.role ≠ 0 → leAt p.payload 2 1 ≠ 2 → s.heartbeatValid p.payload = true →
    exec (.beat (.packet port p)) s = .next (((s.takeEjected port p).pathAlive true).heard p.payload)) ∧
  (∀ (m : List Byte) (s : State), s.role ≠ 0 → leAt m 2 1 ≠ 2 → s.heartbeatValid m = false → exec (.beat (.pins m)) s = .next (s.countSat Reg.PAI_CNT Fld.PAI_CNT_hb_bad 1)) ∧
  (∀ (m : List Byte) (w s : State), s.role ≠ 0 → leAt m 2 1 = 2 → s.heartbeatValid m = true → w = (s.pathAlive false).heard m → w.role = 2 →
    exec (.handover (.pins m)) s = .next { w.setRole 3 with pair := { (w.setRole 3).pair with claimNt := (w.setRole 3).nt, nextClaim := (w.setRole 3).nt } }) ∧
  (∀ (fabric : Bool) (s : State), RegsKept s → Unwatched s → s.role ≠ 0 → (if fabric then s.pair.fabNt else s.pair.pinNt) + 800000 ≤ s.nt →
    s.on Reg.PAI_STATUS Fld.PAI_STATUS_pin_ok = true → s.on Reg.PAI_STATUS Fld.PAI_STATUS_fab_ok = true →
    Gives (exec (.pathSilent fabric) s) fun t =>
      t.on Reg.PAI_STATUS Fld.PAI_STATUS_pin_ok = fabric ∧ t.on Reg.PAI_STATUS Fld.PAI_STATUS_fab_ok = !fabric ∧ t.on Reg.PAI_STATUS Fld.PAI_STATUS_degraded = true ∧ t.role = s.role ∧
      (EventRoom s → Tells s t 0x0C01 11 0) ∧ RegsBut s t [Reg.PAI_STATUS, Reg.EVT_PENDING, Reg.EVT_CNT] ∧ t = { s with regs := t.regs, events := t.events }) ∧
  (∀ (fabric : Bool) (s : State), RegsKept s → Unwatched s → s.role = 2 → (if fabric then s.pair.fabNt else s.pair.pinNt) + 800000 ≤ s.nt →
    s.on Reg.PAI_STATUS Fld.PAI_STATUS_pin_ok = !fabric → s.on Reg.PAI_STATUS Fld.PAI_STATUS_fab_ok = fabric →
    Gives (exec (.pathSilent fabric) s) fun t =>
      t.role = 3 ∧ t.reg Reg.PAI_DECLARE_NT = BitVec.ofNat 64 s.nt ∧ t.on Reg.PAI_STATUS Fld.PAI_STATUS_pin_ok = false ∧ t.on Reg.PAI_STATUS Fld.PAI_STATUS_fab_ok = false ∧
      RegsBut s t [Reg.PAI_STATUS, Reg.PAI_DECLARE_NT, Reg.EVT_PENDING, Reg.EVT_CNT] ∧
      t = { s with regs := t.regs, events := t.events, pair := { s.pair with claimNt := s.nt, nextClaim := s.nt } }) ∧
  (∀ (s : State), s.role = 3 → s.beating = true → s.pair.nextClaim ≤ s.nt →
    exec .claimTick s = .next { s.sendHeartbeat (s.fld Reg.RTE_CTL Fld.RTE_CTL_fm_node) (s.heartbeat 1) with
      pair := { s.pair with beats := (s.pair.beats + 1) % 2 ^ 32, nextClaim := s.nt + 100000 } }) ∧
  (∀ (s : State), RegsKept s → Unwatched s → s.role = 3 → s.pair.claimNt + s.fld Reg.PAI_CFG Fld.PAI_CFG_claim_ms * 1000000 ≤ s.nt →
    Gives (exec .claimTimeout s) fun t => t.role = 2 ∧ RegsBut s t [Reg.PAI_STATUS, Reg.EVT_PENDING, Reg.EVT_CNT] ∧ t = { s with regs := t.regs, events := t.events }) ∧
  (∀ (path : Path) (value : Word) (w s : State), w = s.writeFields path Reg.PAI_CTL (setF value Fld.PAI_CTL_grant 1) → getF value Fld.PAI_CTL_fence = 0 → getF value Fld.PAI_CTL_handover = 0 →
    exec (.paiGrant path value) s = .next (if w.role = 3 then w.takeOver else w.logViol path 4 Reg.PAI_CTL)) ∧
  (∀ (env : Env) (w s : State), s.pair.takeover = some 0 → 13 ≤ s.doneStep →
    ((s.pairedQps.flatMap fun k => (s.journalFrom k.1 k.2).map fun x => (k, x)).foldl (fun (a : State × Bool) e =>
      ((a.1.takeSlot env e.1.1 e.1.2 e.2.1 e.2.2).1, a.2 && (a.1.takeSlot env e.1.1 e.1.2 e.2.1 e.2.2).2)) (s, true)) = (w, true) →
    exec (.takeoverQuarantineEnd env) s = .next { w.setReg Reg.PAI_SERVICE_NT (BitVec.ofNat 64 w.nt) with pair := { w.pair with takeover := none } })

/-- PAI_FENCE of a node that is paired and not FENCED fences it. PAI_HANDOVER of an ACTIVE node begins a handover; of another it is ignored and logged. HANDOVER_DRAIN_DONE sends the HANDOVER on both paths and makes the node STANDBY, with nothing of its paired clients left. MIRROR_SEND sends the next piece of a captured range, at most 8,192 bytes, on the next mirror link under a free tag, or a piece again, counted. JOIN_COPY_COMPLETE makes the sender ACTIVE once everything is copied, and the joiner STANDBY once its partner is ACTIVE. -/
def Obligations.PartnersAreMirrored : Prop :=
  (∀ (path : Path) (value : Word) (w s : State), w = s.writeFields path Reg.PAI_CTL (setF value Fld.PAI_CTL_fence 1) → getF value Fld.PAI_CTL_grant = 0 → getF value Fld.PAI_CTL_handover = 0 → w.role ≠ 0 → w.role ≠ 6 →
    exec (.paiFence path value) s = .next w.enterFenced) ∧
  (∀ (path : Path) (value : Word) (w s : State), w = s.writeFields path Reg.PAI_CTL (setF value Fld.PAI_CTL_handover 1) → getF value Fld.PAI_CTL_grant = 0 → getF value Fld.PAI_CTL_fence = 0 →
    exec (.paiHandover path value) s = .next (if w.role = 4 then { w with pair := { w.pair with leaving := true } } else w.logViol path 4 Reg.PAI_CTL)) ∧
  (∀ (w s : State), s.pair.leaving = true → s.pair.takeover = none → s.role = 4 → 13 ≤ s.doneStep → s.que.descs = [] → s.router.tags = [] → s.router.waiting = [] →
    w = (((s.sendBoth 2).setRole 2).setAlias false).dropPaired →
    exec .handoverDrainDone s = .next { w.stopMirror with pair := { w.stopMirror.pair with leaving := false } }) ∧
  (∀ (r : MirrorRange) (i t : Nat) (s : State), s.role = 4 → s.workStopped = false → s.pair.log = [r] → r.again = [] → r.sent = false → s.mirrorLink = some i → s.freeTag i = some t →
    exec .mirrorSend s = .next ((if r.copy ∧ r.len ≤ r.off + min 8192 (r.len - r.off) then s.setFld Reg.PAI_SYNC Fld.PAI_SYNC_watermark (r.pa / 2 ^ 30 + 1) else s).sendMirrorPiece i t
      { r with off := r.off + min 8192 (r.len - r.off), sent := decide (r.len ≤ r.off + min 8192 (r.len - r.off)) } r.off (min 8192 (r.len - r.off)))) ∧
  (∀ (r : MirrorRange) (i t off n : Nat) (more : List (Nat × Nat)) (s : State), s.role = 4 → s.workStopped = false → s.pair.log = [r] → r.again = (off, n) :: more → s.mirrorLink = some i → s.freeTag i = some t →
    exec .mirrorSend s = .next ((s.countSat Reg.PAI_CNT Fld.PAI_CNT_retries 1).sendMirrorPiece i t { r with again := more } off n)) ∧
  (∀ (s : State), RegsKept s → Unwatched s → s.role = 5 → s.pair.copying = true → s.nextSlab = none → s.pair.log = [] →
    Gives (exec .joinCopyComplete s) fun t => t.role = 4 ∧ RegsBut s t [Reg.PAI_STATUS, Reg.EVT_PENDING, Reg.EVT_CNT] ∧ t = { s with regs := t.regs, events := t.events, pair := { s.pair with copying := false } }) ∧
  (∀ (s : State), RegsKept s → Unwatched s → s.role = 1 → s.pair.partnerRole = 4 →
    Gives (exec .joinCopyComplete s) fun t => t.role = 2 ∧ RegsBut s t [Reg.PAI_STATUS, Reg.EVT_PENDING, Reg.EVT_CNT] ∧ t = { s with regs := t.regs, events := t.events })

/-- QUOTE, where Hallmark takes it, opens a session of 32,768 quotes if none is open, uses one of them, destroys the ephemeral key before it and is at work; while Hallmark is busy it reports result 1 and is logged. QUOTE_DONE writes the quote and the certificate and keeps the new key, or reports result 3; the session ends with its last quote. BIND checks the record, destroys the ephemeral key and hides the mailbox, and an accepted one starts the fill. BIND_FILL_DONE empties the caches, the banks, the recipe slots and the stacks, installs the keys and the tenant, and the Bezel is BOUND. RELEASE of a BOUND Bezel starts it RELEASING; of another it is logged. RELEASE_DRAIN_END destroys the keys and zero-writes the stacks; RELEASE_SCRUB_DONE empties caches, banks and tenant tables, and the Bezel is OPEN. SVN_COMMIT starts the commit, and SVN_COMMIT_DONE raises the count of blown bits to the running svn. -/
def Obligations.HallmarkAttestsAndBinds : Prop :=
  (∀ (path : Path) (value : Word) (w s : State), OnlySec value Fld.SEC_CTL_quote → w = s.writeFields path Reg.SEC_CTL (setF value Fld.SEC_CTL_quote 1) → RegsKept w → w.sec.job = none → w.hallmarkOn = true →
    w.sec.session = none → w.sec.sessionsUsed < 1024 →
    Gives (exec (.quote path value) s) fun t =>
      t.quotesLeft = 32767 ∧ RegsBut w t [Reg.SEC_STATUS] ∧
      t = { w with regs := t.regs, sec := { w.sec with
        session := some w.sec.sessionsUsed, sessionsUsed := w.sec.sessionsUsed + 1, mboxHidden := false, ephemeral := none
        job := some (.quote (w.mailbox.take 48) (w.reg Reg.SEC_QUOTE_DST).toNat) } }) ∧
  (∀ (path : Path) (value : Word) (w s : State), OnlySec value Fld.SEC_CTL_quote → w = s.writeFields path Reg.SEC_CTL (setF value Fld.SEC_CTL_quote 1) → RegsKept w → w.sec.job = none → w.hallmarkOn = true →
    w.sec.session ≠ none →
    Gives (exec (.quote path value) s) fun t =>
      t.quotesLeft = w.quotesLeft - 1 ∧ RegsBut w t [Reg.SEC_STATUS] ∧
      t = { w with regs := t.regs, sec := { w.sec with mboxHidden := false, ephemeral := none, job := some (.quote (w.mailbox.take 48) (w.reg Reg.SEC_QUOTE_DST).toNat) } }) ∧
  (∀ (path : Path) (value : Word) (w s : State), OnlySec value Fld.SEC_CTL_quote → w = s.writeFields path Reg.SEC_CTL (setF value Fld.SEC_CTL_quote 1) → w.sec.job ≠ none →
    exec (.quote path value) s = .next ((w.setFld Reg.SEC_STATUS Fld.SEC_STATUS_result 1).logViol path 4 Reg.SEC_CTL)) ∧
  (∀ (cert : List Byte) (env : Env) (nonce : List Byte) (dst k : Nat) (s : State), s.sec.job = some (.quote nonce dst) → s.sec.session = some k → s.pair.log = [] → spaceOf dst = 1 ∨ (spaceOf dst = 0 ∧ s.inSlabs (addrOf dst) 69188 = false) →
    exec (.quoteDone cert env) s = .next (match spaceOf dst with
      | 1 => if s.ilcActive then
          quoteEnds { State.emit { s with fresh := s.fresh + 1 } (.ilcenWrite (addrOf dst) (quoteBytes (quoteOf s nonce cert) k s.quotesLeft ++ cert.take 65536)) with
            sec := { s.sec with ephemeral := some (s.fresh, (Config.sha384 (quoteOf s nonce cert)).toNat) } } 0
        else quoteEnds { s with fresh := s.fresh + 1 } 3
      | _ => quoteEnds { s with fresh := s.fresh + 1 } 3)) ∧
  (∀ (path : Path) (value : Word) (code : Nat) (r : List Byte) (w s : State), OnlySec value Fld.SEC_CTL_bind → w = s.writeFields path Reg.SEC_CTL (setF value Fld.SEC_CTL_bind 1) → w.sec.job = none → w.hallmarkOn = true →
    w.bindCheck = (code, r) →
    exec (.bind path value) s = .next { w.setFld Reg.SEC_STATUS Fld.SEC_STATUS_result code with
      sec := { w.sec with ephemeral := none, mboxHidden := true, job := if code = 0 then some (.bindFill r) else none } }) ∧
  (∀ (r : List Byte) (s : State), s.sec.job = some (.bindFill r) →
    exec .bindFillDone s = .next (State.setBezel { (boundWith ((s.backInvAll.dropTenantSegs (recordSlabs r)).emptyRecipes.clearBitmaps) r) with
      sec := { (boundWith ((s.backInvAll.dropTenantSegs (recordSlabs r)).emptyRecipes.clearBitmaps) r).sec with job := none } } 1)) ∧
  (∀ (path : Path) (value : Word) (w s : State), OnlySec value Fld.SEC_CTL_release → w = s.writeFields path Reg.SEC_CTL (setF value Fld.SEC_CTL_release 1) → w.sec.job = none → w.bezel = 1 → w.que.descs = [] →
    (w.setBezel 2).que.descs = [] → (w.setBezel 2).nt = w.nt →
    exec (.release path value) s = .next { w.setBezel 2 with sec := { (w.setBezel 2).sec with job := some .drain, releaseNt := w.nt } }) ∧
  (∀ (path : Path) (value : Word) (w s : State), OnlySec value Fld.SEC_CTL_release → w = s.writeFields path Reg.SEC_CTL (setF value Fld.SEC_CTL_release 1) → w.sec.job = none → w.bezel ≠ 1 →
    exec (.release path value) s = .next (w.logViol path 4 Reg.SEC_CTL)) ∧
  (∀ (s : State), s.sec.job = some .drain → s.que.descs = [] → s.rcp.run = none →
    exec .releaseDrainEnd s = .next (State.fillStacks { s with sec := { s.sec with key := none, job := some .scrub } })) ∧
  (∀ (s : State), RegsKept s → Unwatched s → s.sec.job = some .scrub → s.coh.dir.flatten = [] →
    Gives (exec .releaseScrubDone s) fun t =>
      t.bezel = 0 ∧ t.sec = { s.sec with job := none } ∧ t.banks = { s.banks with written := [] } ∧ (∀ c ∈ t.coh.caches, c = []) ∧
      (∀ e, e < 16 → t.reg (Reg.SEC_TENANT e) = 0) ∧ (∀ m, m < 224 → t.reg (Reg.SEC_SEAL_MAP m) = 0) ∧ (∀ v, v < 16 → t.reg (Reg.RCP_VALID 0 v) = 0) ∧ t.reg Reg.SEC_KEY_ID = 0 ∧
      t.pool = s.pool ∧ t.que = s.que) ∧
  (∀ (path : Path) (value : Word) (w s : State), OnlySec value Fld.SEC_CTL_svn_commit → w = s.writeFields path Reg.SEC_CTL (setF value Fld.SEC_CTL_svn_commit 1) → w.sec.job = none →
    exec (.svnCommit path value) s = .next { w with sec := { w.sec with job := some .svn } }) ∧
  (∀ (s : State), s.sec.job = some .svn → exec .svnCommitDone s = .next { s with sec := { s.sec with svnMin := max s.sec.svnMin s.boot.fwSvn, job := none } })

/-- TRACE_RECORD_WRITE gives the oldest record of a source to the capture, or, while the Setting of a bank-mode buffer stands, to the writer's queue of 1,024. TRACE_TRIGGER triggers and TRACE_REARM starts a capture. LPE_MARK is an event of Loupe and changes nothing else. LPE_SEL_WRITE clears the selector's counter, LPE_CTR_WRITE sets it. GLOBAL_STOP_REQUEST stops the CORE domains with cause 1; STOP_IN_N low stops them with cause 2 where pin_en is 1. GLOBAL_STOP_RESUME is accepted at the next multiple of 1,000 ns when nothing forbids it, and else reports why. RESUME_INSTANT restarts them. NT_HIGH_BITS_CHANGE writes a time record. -/
def Obligations.LoupeTracesAndStops : Prop :=
  (∀ (cls : Fin 16) (idx : Fin 4096) (r : TraceRec) (s : State), s.coreStopped = false → s.loupe.writer = [] → (s.loupe.sources.find? fun r => r.cls == cls.val && r.idx % 4096 == idx.val) = some r →
    exec (.traceRecordWrite cls idx) s = .next (State.admitRecord { s with loupe := { s.loupe with sources := s.loupe.sources.erase r } } r).tellRefused) ∧
  (∀ (cls : Fin 16) (idx : Fin 4096) (r : TraceRec) (s : State), s.coreStopped = true → s.on Reg.LPE_TRC_CFG Fld.LPE_TRC_CFG_dest = false → s.loupe.refused = [] → s.loupe.writer.length < 1024 →
    (s.loupe.sources.find? fun r => r.cls == cls.val && r.idx % 4096 == idx.val) = some r →
    exec (.traceRecordWrite cls idx) s = .next { s with loupe := { s.loupe with sources := s.loupe.sources.erase r, writer := s.loupe.writer ++ [r] } }) ∧
  (∀ (path : Path) (value : Word) (w s : State), w = s.writeFields path Reg.LPE_TRC_CTL (setF value Fld.LPE_TRC_CTL_trigger 1) → getF value Fld.LPE_TRC_CTL_rearm = 0 →
    exec (.traceTrigger path value) s = .next (w.trigger 0 0).tellRefused) ∧
  (∀ (path : Path) (value : Word) (w s : State), w = s.writeFields path Reg.LPE_TRC_CTL (setF value Fld.LPE_TRC_CTL_rearm 1) → getF value Fld.LPE_TRC_CTL_trigger = 0 →
    exec (.traceRearm path value) s = .next w.startCapture.tellRefused) ∧
  (∀ (path : Path) (value : Word) (s : State), exec (.lpeMark path value) s = .next (s.observe 14 0 0xF81 1 noWork (leBytes 8 value.toNat)) ∧ (Unwatched s → exec (.lpeMark path value) s = .next s)) ∧
  (∀ (path : Path) (q : Quad) (n : Fin 512) (value : Word) (s : State), RegsKept s →
    Gives (exec (.lpeSelWrite path q n value) s) (fun t => t.reg (Reg.LPE_CTR q n) = 0 ∧ t.reg (Reg.LPE_SEL q n) = (s.writeFields path (Reg.LPE_SEL q n) value).reg (Reg.LPE_SEL q n)) ∧
    Gives (exec (.lpeCtrWrite path q n value) s) (fun t => t.reg (Reg.LPE_CTR q n) = value ∧ RegsBut s t [Reg.LPE_CTR q n])) ∧
  (∀ (path : Path) (value : Word) (w s : State), w = s.writeFields path Reg.LPE_STOP (setF value Fld.LPE_STOP_stop 1) → getF value Fld.LPE_STOP_resume = 0 →
    exec (.globalStopRequest path value) s = .next (w.requestStop 1)) ∧
  (∀ (held : Bool) (w s : State), w = { s with pins := { s.pins with stopInN := !held } } →
    exec (.stopInNLow held) s = .next (if s.on Reg.LPE_STOP Fld.LPE_STOP_pin_en then w.requestStop 2 else w)) ∧
  (∀ (path : Path) (value : Word) (w s : State), w = s.writeFields path Reg.LPE_STOP (setF value Fld.LPE_STOP_resume 1) → getF value Fld.LPE_STOP_stop = 0 → w.stopped = true → w.dumping = false → w.loupe.lostLinks = [] →
    w.on Reg.LPE_STOP Fld.LPE_STOP_resumable = true → (w.on Reg.LPE_STOP Fld.LPE_STOP_pin_en = true → w.pins.stopInN = true) → w.pins.thermN = true →
    exec (.globalStopResume path value) s = .next { w.setFld Reg.LPE_STOP Fld.LPE_STOP_result 0 with loupe := { w.loupe with resume := some ((w.nt / 1000 + 1) * 1000) } }) ∧
  (∀ (path : Path) (value : Word) (w s : State), w = s.writeFields path Reg.LPE_STOP (setF value Fld.LPE_STOP_resume 1) → getF value Fld.LPE_STOP_stop = 0 → w.stopped = false →
    exec (.globalStopResume path value) s = .next (w.setFld Reg.LPE_STOP Fld.LPE_STOP_result 1)) ∧
  (∀ (x : Nat) (s : State), RegsKept s → s.loupe.resume = some x → x ≤ s.nt →
    Gives (exec .resumeInstant s) fun t => t.stopped = false ∧ RegsBut s t [Reg.LPE_STOP] ∧ t = { s with regs := t.regs, loupe := { s.loupe with resume := none, stopLinks := [], lostLinks := [] } }) ∧
  (∀ (s : State), s.nt / 2 ^ 48 % 2 ^ 16 ≠ s.loupe.ntHigh →
    exec .ntHighBitsChange s = .next (State.captureRecord { s with loupe := { s.loupe with ntHigh := s.nt / 2 ^ 48 % 2 ^ 16 } }
      (State.record { s with loupe := { s.loupe with ntHigh := s.nt / 2 ^ 48 % 2 ^ 16 } } 15 0 0xFC2 noWork (leBytes 8 s.nt ++ [0]))))

/-- SNAPSHOT is due at the first multiple of 1,000 ns that lies at least 1,000 ns on; one that is asked for while another is due is ignored and logged. SNAPSHOT_INSTANT copies every counter and notes its NT. DUMP while stopped begins a dump, or reports result 1 where there is no area; else it is ignored and logged. DUMP_DONE writes the whole sections that fit behind their header and reports whether all did. WATCHDOG_EXPIRY marks the quadrant expired and dumping and stops its fetch, issue and instance starts, with a trigger where trig_on_wdog is 1; HANG_DUMP_DONE without an area reports result 1, and the quadrant goes on; WATCHDOG_REARM arms it with its count at 0. -/
def Obligations.LoupeDumpsAndWatches : Prop :=
  (∀ (path : Path) (value : Word) (s : State), s.on Reg.LPE_SNAP_CTL Fld.LPE_SNAP_CTL_busy = false →
    exec (.snapshot path value) s = .next { s.setFld Reg.LPE_SNAP_CTL Fld.LPE_SNAP_CTL_busy 1 with loupe := { s.loupe with snapshot := some ((s.nt + 1999) / 1000 * 1000) } }) ∧
  (∀ (path : Path) (value : Word) (s : State), s.on Reg.LPE_SNAP_CTL Fld.LPE_SNAP_CTL_busy = true →
    Gives (exec (.snapshot path value) s) fun t => Logged s t path 4 Reg.LPE_SNAP_CTL) ∧
  (∀ (q : Quad) (n : Fin 512) (x : Nat) (s : State), RegsKept s → s.loupe.snapshot = some x → x ≤ s.nt →
    Gives (exec .snapshotInstant s) fun t =>
      t.reg (Reg.LPE_SNAP q n) = s.reg (Reg.LPE_CTR q n) ∧ t.reg (Reg.LPE_CTR q n) = s.reg (Reg.LPE_CTR q n) ∧ t.reg (Reg.LPE_FIX q 3) = s.reg (Reg.LPE_FIX q 0) ∧
      t.reg Reg.LPE_SNAP_NT = BitVec.ofNat 64 x ∧ t.on Reg.LPE_SNAP_CTL Fld.LPE_SNAP_CTL_busy = false ∧ t = { s with regs := t.regs, loupe := { s.loupe with snapshot := none } }) ∧
  (∀ (path : Path) (value : Word) (w s : State), w = s.writeFields path Reg.LPE_DUMP_CTL (setF value Fld.LPE_DUMP_CTL_go 1) → w.stopped = true → w.on Reg.LPE_DUMP_CTL Fld.LPE_DUMP_CTL_busy = false →
    exec (.dump path value) s = .next (if w.dumpBase = 0 then w.setFld Reg.LPE_DUMP_CTL Fld.LPE_DUMP_CTL_result 1
      else { (w.countWrap Reg.LPE_DUMP_CTL Fld.LPE_DUMP_CTL_seq 1).setFld Reg.LPE_DUMP_CTL Fld.LPE_DUMP_CTL_busy 1 with loupe := { w.loupe with dumpNt := w.loupe.dumpNt.set 4 w.nt } })) ∧
  (∀ (path : Path) (value : Word) (w s : State), w = s.writeFields path Reg.LPE_DUMP_CTL (setF value Fld.LPE_DUMP_CTL_go 1) → w.stopped = false →
    exec (.dump path value) s = .next (w.logViol path 4 Reg.LPE_DUMP_CTL)) ∧
  (∀ (s : State), s.on Reg.LPE_DUMP_CTL Fld.LPE_DUMP_CTL_busy = true →
    exec .dumpDone s = .next { (((s.pokePool (s.dumpBase + 2 ^ 22) (s.dumpImage 0 0 (s.loupe.dumpNt.getD 4 0) (dumpSections s))).setFld Reg.LPE_DUMP_CTL Fld.LPE_DUMP_CTL_result
      (if (dumpSections s).length = s.globalSections.length then 0 else 2)).setFld Reg.LPE_DUMP_CTL Fld.LPE_DUMP_CTL_busy 0) with
        fresh := (s.pokePool (s.dumpBase + 2 ^ 22) (s.dumpImage 0 0 (s.loupe.dumpNt.getD 4 0) (dumpSections s))).fresh + 1 }) ∧
  (∀ (q : Quad) (s : State), s.fld (Reg.LPE_WDOG q) Fld.LPE_WDOG_timeout_ms ≠ 0 → s.on (Reg.LPE_WDOG q) Fld.LPE_WDOG_expired = false → s.loupe.wdogArmed.getD q true = true →
    s.fld (Reg.LPE_WDOG q) Fld.LPE_WDOG_timeout_ms * 1000000 ≤ s.loupe.wdog.getD q 0 →
    exec (.watchdogExpiry q) s = .next (if s.on Reg.LPE_TRC_CFG Fld.LPE_TRC_CFG_trig_on_wdog then (hungQuad s q).trigger 4 q else hungQuad s q)) ∧
  (∀ (q : Quad) (s : State), RegsKept s → Unwatched s → s.on (Reg.LPE_WDOG q) Fld.LPE_WDOG_dumping = true → s.dumpBase = 0 →
    Gives (exec (.hangDumpDone q) s) fun t =>
      t.on (Reg.LPE_WDOG q) Fld.LPE_WDOG_dumping = false ∧ t.fld Reg.LPE_DUMP_CTL Fld.LPE_DUMP_CTL_result = 1 ∧ (EventRoom s → Tells s t 0x0E01 15 0) ∧
      RegsBut s t [Reg.LPE_WDOG q, Reg.LPE_DUMP_CTL, Reg.EVT_PENDING, Reg.EVT_CNT] ∧
      t = { s with regs := t.regs, events := t.events, loupe := { s.loupe with hung := s.loupe.hung.filter (· != q.val) } }) ∧
  (∀ (path : Path) (q : Quad) (value : Word) (w s : State), w = s.writeFields path (Reg.LPE_WDOG q) (setF value Fld.LPE_WDOG_rearm 1) →
    exec (.watchdogRearm path q value) s = .next { w.setFld (Reg.LPE_WDOG q) Fld.LPE_WDOG_expired 0 with loupe := { w.loupe with wdogArmed := w.loupe.wdogArmed.set q true, wdog := w.loupe.wdog.set q 0 } })

/-- TAP_RESET selects IDCODE; IDCODE shifts out the part's 32 bits and BYPASS one 0; SAMPLE_PRELOAD and EXTEST shift out the levels of the pins and take the value shifted in. JTAG_REG shifts out what the access before has left; it makes its access, and is busy before start-up step 2. JTAG_STOP stops with cause 4; JTAG_RESUME asks for a resume and shifts out its result; DUMP_READ shifts out zeros unless stopped, and the image of a global dump while stopped. SMB_WRITE writes with the right byte count and check code and does nothing else; SMB_ADDR keeps the offset for its host; SMB_READ answers count, status, value and check code; SMB_ALERT_RESPONSE answers with the address while ALERT_N is low. -/
def Obligations.BoardPortsWork : Prop :=
  (∀ (value : Nat) (s : State),
    exec .tapReset s = .next { s with ports := { s.ports with instr := 1 } } ∧
    exec .idcode s = .next { s with ports := { s.ports with instr := 1 }, out := s.out ++ [.jtag 32 0x10032547] } ∧
    exec .bypass s = .next { s with ports := { s.ports with instr := 0xFF }, out := s.out ++ [.jtag 1 0] } ∧
    exec (.samplePreload value) s = .next { s with ports := { s.ports with instr := 2, boundary := value % 65536 }, fresh := s.fresh + 1, out := s.out ++ [.jtag 16 (s.pinLevels (Config.free s.fresh))] } ∧
    exec (.extest value) s = .next { s with ports := { s.ports with instr := 3, boundary := value % 65536 }, fresh := s.fresh + 1, out := s.out ++ [.jtag 16 (s.pinLevels (Config.free s.fresh))] }) ∧
  (∀ (write : Bool) (offset : BitVec 26) (value : Word) (env : Env) (s : State), s.boot.smbus = false →
    exec (.jtagReg write offset value env) s = .next { s with
      ports := { s.ports with instr := 0x10, regData := 0, regOffset := offset.toNat, regStatus := 1 }, out := s.out ++ [.jtag 96 s.regCapture] }) ∧
  (∀ (offset : BitVec 26) (value : Word) (env : Env) (w : State) (v : Word) (refused : Bool) (s : State), s.boot.smbus = true →
    ((s.loadTap 0x10).emit (.jtag 96 s.regCapture)).accessRead .jtag offset.toNat 8 = (w, v, refused) →
    exec (.jtagReg false offset value env) s = .next { w with ports := { w.ports with regData := v, regOffset := offset.toNat, regStatus := if refused then 2 else 0 } }) ∧
  (∀ (offset : BitVec 26) (value : Word) (env : Env) (w : State) (refused : Bool) (s : State), s.boot.smbus = true →
    ((s.loadTap 0x10).emit (.jtag 96 s.regCapture)).accessWrite .jtag offset.toNat 8 value env = (w, refused) →
    exec (.jtagReg true offset value env) s = .next { w with
      fresh := w.fresh + 1
      ports := { w.ports with regData := BitVec.ofNat 64 (Config.free w.fresh), regOffset := offset.toNat, regStatus := if refused then 2 else 0 } }) ∧
  (∀ (s : State), exec .jtagStop s = .next (State.requestStop { s with ports := { s.ports with instr := 0x11 } } 4) ∧
    (s.stopped = false → exec .jtagResume s = .next (State.emit (State.setFld { s with ports := { s.ports with instr := 0x12 } } Reg.LPE_STOP Fld.LPE_STOP_result 1)
      (.jtag 8 ((State.setFld { s with ports := { s.ports with instr := 0x12 } } Reg.LPE_STOP Fld.LPE_STOP_result 1).fld Reg.LPE_STOP Fld.LPE_STOP_result)))) ∧
    (s.stopped = false → exec .dumpRead s = .next { s with ports := { s.ports with instr := 0x13 }, out := s.out ++ [.jtag 1 0] })) ∧
  (∀ (w s : State), s.stopped = true → w = { s with ports := { s.ports with instr := 0x13 } } →
    exec .dumpRead s = .next { w with fresh := w.fresh + 1, out := w.out ++ [.jtag (8 * (w.dumpImage 0 0 w.nt w.globalSections).length) (ofLE (w.dumpImage 0 0 w.nt w.globalSections))] }) ∧
  (∀ (host count offset : Nat) (value : Word) (pecOk : Bool) (env : Env) (s : State),
    exec (.smbWrite host count offset value pecOk env) s = .next (if s.boot.smbus = true ∧ count = 12 ∧ pecOk = true then (s.accessWrite .smbus (offset % 2 ^ 32) 8 value env).1 else s)) ∧
  (∀ (host count offset : Nat) (pecOk : Bool) (s : State), s.boot.smbus = true → count = 4 → pecOk = true →
    exec (.smbAddr host count offset pecOk) s = .next { s with ports := { s.ports with smbAddr := mset (fun _ => 0) s.ports.smbAddr host (offset % 2 ^ 32) } }) ∧
  (∀ (host : Nat) (w : State) (v : Word) (refused : Bool) (s : State), s.boot.smbus = true → s.accessRead .smbus (mget (fun _ => 0) s.ports.smbAddr host) 8 = (w, v, refused) →
    exec (.smbRead host) s = .next { w with out := w.out ++ [.smbus (smbAnswer refused v ++ [pec ([BitVec.ofNat 8 (2 * w.smbAddress), 0x12, BitVec.ofNat 8 (2 * w.smbAddress + 1)] ++ smbAnswer refused v)])] }) ∧
  (∀ (s : State), s.boot.smbus = true →
    exec .smbAlertResponse s = .next (if s.alertLow then { s with out := s.out ++ [.smbus [BitVec.ofNat 8 (2 * s.smbAddress)]] } else s))

/-- EVENT_RECORD_WRITE writes the oldest record into its slot of the ring with its phase, moves the tail past it and makes a notify due; while the ring is full, disabled or Ilcen is not ACTIVE it waits. EVT_HEAD_WRITE moves the head up to the tail; any other value is ignored and logged. EVENT_NOTIFY writes the tail to the target once a record has become visible, and not before the holdoff has passed. NODE_FATAL_ERROR stops the heartbeats and the node's service, fences it, and notes the cause, quadrant and NT; the first cause is kept. -/
def Obligations.EventsReachTheDriver : Prop :=
  (∀ (e : EventRec) (rest : List EventRec) (s : State), RegsKept s → s.events.queue = e :: rest → s.on Reg.EVT_CTL Fld.EVT_CTL_enable = true → s.ilcActive = true → s.unconsumed + 1 < 2 ^ s.evtLog →
    Gives (exec .eventRecordWrite s) fun t =>
      Sends s t (.ilcenWrite (s.evtBase + e.seq % 2 ^ s.evtLog * 32) (eventBytes s.evtLog e)) ∧ t.evtTail = (e.seq + 1) % 2 ^ 32 ∧
      t.events = { s.events with queue := rest, notifyDue := true } ∧ RegsBut s t [Reg.EVT_RING_PTR] ∧ t = { s with regs := t.regs, events := t.events, out := t.out, ilc := t.ilc }) ∧
  (∀ (e : EventRec) (rest : List EventRec) (s : State), s.events.queue = e :: rest → (s.on Reg.EVT_CTL Fld.EVT_CTL_enable = false ∨ s.ilcActive = false ∨ 2 ^ s.evtLog ≤ s.unconsumed + 1) →
    exec .eventRecordWrite s = .next s) ∧
  (∀ (path : Path) (value : Word) (s : State),
    exec (.evtHeadWrite path value) s = .next (if (getF value Fld.EVT_RING_PTR_head + 2 ^ 32 - s.fld Reg.EVT_RING_PTR Fld.EVT_RING_PTR_head) % 2 ^ 32 ≤ s.unconsumed
      then s.setFld Reg.EVT_RING_PTR Fld.EVT_RING_PTR_head (getF value Fld.EVT_RING_PTR_head) else s.logViol path 4 Reg.EVT_RING_PTR)) ∧
  (∀ (s : State), s.on Reg.EVT_NOTIFY Fld.EVT_NOTIFY_enable = true → s.events.notifyDue = true → s.events.notifyNt = none → s.ilcActive = true →
    exec .eventNotify s = .next { s.emit (.ilcenWrite (s.fld Reg.EVT_NOTIFY Fld.EVT_NOTIFY_target % 2 ^ 48) (leBytes 8 s.evtTail)) with
      events := { s.events with notifyNt := some s.nt, notifyDue := false } }) ∧
  (∀ (s : State), s.events.notifyNt = some 0 → s.nt < s.fld Reg.EVT_NOTIFY Fld.EVT_NOTIFY_holdoff_us * 1000 → exec .eventNotify s = .next s) ∧
  (∀ (cause : Fin 16) (quadrant : Option Quad) (s : State), RegsKept s → Unwatched s → 2 ≤ cause.val → cause.val ≤ 5 → s.events.fatal = false → s.pairing = false → s.pair.log = [] → s.router.tags = [] →
    s.pair.answers = [] → s.pair.doorbells = [] → s.coh.heldGrants = [] → s.coh.txns = [] → s.ilcActive = false →
    Gives (exec (.nodeFatalError cause quadrant) s) fun t =>
      t.fld Reg.EVT_FATAL Fld.EVT_FATAL_cause = cause ∧ t.fld Reg.EVT_FATAL Fld.EVT_FATAL_quadrant = (match quadrant with | some q => q.val | none => 0xFF) % 2 ^ Fld.EVT_FATAL_quadrant.width ∧
      t.reg Reg.EVT_FATAL_NT = BitVec.ofNat 64 s.nt ∧ t.mgmt.stopped = true ∧ t.events.fatal = true ∧ t.role = 6 ∧ t.workStopped = true ∧ t.beating = false ∧ t.pool = s.pool ∧ t.banks = s.banks ∧ t.que = s.que) ∧
  (∀ (cause : Fin 16) (quadrant : Option Quad) (s : State), s.events.fatal = true → exec (.nodeFatalError cause quadrant) s = .next s)

/-- The packet whose fields fit Table RT-1, reserved bits included, is the one that its bytes on the wire spell; and the region record whose fields fit Table SH-1 is the one that its 32 bytes spell. -/
def Obligations.WireFormatsRoundTrip : Prop :=
  (∀ (p : Packet), packetOk p = true → p.rsv < 2 ^ 19 → packetOf (packetBytes p) = p) ∧
  (∀ (r : Region), r.id < 2 ^ 64 → r.version < 2 ^ 32 → r.publisher < 2 ^ 16 → r.extent < 2 ^ 44 → r.len < 2 ^ 64 → regionOf (regionBytes r) = r)

/-- In spare mode row r holds parity at position r mod 8, its spare slot at (r + 1) mod 8, and data at the other six. Data granule d of position j lies in row (d div 6) × 8 + k′ with the k′ of R134, a row in which position j holds data; two granules of a position lie in different rows; and every row in which position j holds data is the row of a granule. -/
def Obligations.SpareRowsHoldEachGranule : Prop :=
  (∀ (r : Nat) (s : State), s.spareMode = true →
    parityPos r = r % 8 ∧ sparePos r = (r + 1) % 8 ∧ s.dataPositions r = (List.range 8).filter fun j => j != r % 8 && j != (r + 1) % 8) ∧
  (∀ (j d : Nat), j < 8 →
    rowOf true j d = d / 6 * 8 + ((List.range 8).filter fun k => k != j && k != (j + 7) % 8).getD (d % 6) 0 ∧
    rowOf true j d % 8 ≠ j ∧ (rowOf true j d + 1) % 8 ≠ j) ∧
  (∀ (j d d' : Nat), j < 8 → rowOf true j d = rowOf true j d' → d = d') ∧
  (∀ (j r : Nat), j < 8 → r % 8 ≠ j → (r + 1) % 8 ≠ j →
    rowOf true j (r / 8 * 6 + ((List.range (r % 8)).filter fun k => k != j && k != (j + 7) % 8).length) = r)

/-- At a link whose gates are on, the time left of an open class is the least k such that the class is closed k ns on, across entries and across the end of the cycle; a class that is open throughout the cycle, and only such a class, has no window end. -/
def Obligations.WindowsEndWhereClosed : Prop :=
  (∀ (n : LinkId) (t k : Nat) (s : State), s.on (Reg.TSC_CTL n) Fld.TSC_CTL_enable = true → s.gatePos n < cycleOf s n → s.gateOpen n t = true → s.windowLeft n t = some k →
    0 < k ∧ (maskAt (s.gateList n) ((s.gatePos n + k) % cycleOf s n)).testBit t = false ∧
    (∀ y, y < k → (maskAt (s.gateList n) ((s.gatePos n + y) % cycleOf s n)).testBit t = true)) ∧
  (∀ (n : LinkId) (t : Nat) (s : State), s.on (Reg.TSC_CTL n) Fld.TSC_CTL_enable = true → s.gatePos n < cycleOf s n → s.gateOpen n t = true →
    (s.windowLeft n t = none ↔ ∀ y, y < cycleOf s n → (maskAt (s.gateList n) y).testBit t = true))
end

