-- ==== Sys2Proof/Laws/Bits.lean ====
section
/-! SUPPORT. Laws of register fields: what a field reads after it, or another field of the word, has been set. -/

namespace Sys2Proof.Machine

open Sys2Proof

/-- Two fields of a register word that share no bit. -/
def Field.apart (f g : Field) : Bool := decide (f.lo + f.width ≤ g.lo) || decide (g.lo + g.width ≤ f.lo)

/-- A field that lies within 64 bits. -/
def Field.fits (f : Field) : Bool := decide (f.lo + f.width ≤ 64)

theorem testBit_bitsAt (n lo width i : Nat) : (bitsAt n lo width).testBit i = (decide (i < width) && n.testBit (lo + i)) := by
  simp [bitsAt, Nat.testBit_mod_two_pow, Nat.testBit_shiftRight]

theorem bitsAt_lt (n lo width : Nat) : bitsAt n lo width < 2 ^ width := Nat.mod_lt _ (Nat.two_pow_pos _)

/-- A number is its high part, a field and its low part. -/
theorem split_at (n lo width : Nat) :
    n = (n / 2 ^ (lo + width)) * 2 ^ (lo + width) + bitsAt n lo width * 2 ^ lo + n % 2 ^ lo := by
  have h1 := Nat.div_add_mod n (2 ^ lo)
  have h2 := Nat.div_add_mod (n / 2 ^ lo) (2 ^ width)
  have h3 : n / 2 ^ lo / 2 ^ width = n / 2 ^ (lo + width) := by rw [Nat.div_div_eq_div_mul, ← Nat.pow_add]
  have h4 : bitsAt n lo width = n / 2 ^ lo % 2 ^ width := by simp [bitsAt, Nat.shiftRight_eq_div_pow]
  rw [h3] at h2
  rw [h4]
  have : 2 ^ lo * (n / 2 ^ lo) = n / 2 ^ (lo + width) * 2 ^ (lo + width) + n / 2 ^ lo % 2 ^ width * 2 ^ lo := by
    rw [← h2, Nat.pow_add]
    have e : (2 ^ width * (n / (2 ^ lo * 2 ^ width)) + n / 2 ^ lo % 2 ^ width) % 2 ^ width = n / 2 ^ lo % 2 ^ width := by
      rw [Nat.mul_add_mod, Nat.mod_mod]
    rw [e]
    ring
  omega

theorem withBits_eq (n lo width v : Nat) :
    withBits n lo width v = (n / 2 ^ (lo + width)) * 2 ^ (lo + width) + (v % 2 ^ width) * 2 ^ lo + n % 2 ^ lo := by
  have h := split_at n lo width
  unfold withBits
  omega

/-- The bits of a number with one field replaced. -/
theorem testBit_withBits (n lo width v i : Nat) :
    (withBits n lo width v).testBit i =
      if lo ≤ i ∧ i < lo + width then v.testBit (i - lo) else n.testBit i := by
  have hlow : n % 2 ^ lo < 2 ^ lo := Nat.mod_lt _ (Nat.two_pow_pos _)
  have hmid : (v % 2 ^ width) * 2 ^ lo + n % 2 ^ lo < 2 ^ (lo + width) := by
    have : v % 2 ^ width < 2 ^ width := Nat.mod_lt _ (Nat.two_pow_pos _)
    have h2 : (v % 2 ^ width + 1) * 2 ^ lo ≤ 2 ^ width * 2 ^ lo := Nat.mul_le_mul_right _ this
    rw [Nat.pow_add, Nat.mul_comm (2 ^ lo)]
    have : (v % 2 ^ width + 1) * 2 ^ lo = (v % 2 ^ width) * 2 ^ lo + 2 ^ lo := by ring
    omega
  rw [withBits_eq, Nat.add_assoc, Nat.mul_comm, Nat.testBit_two_pow_mul_add _ hmid,
    Nat.mul_comm (v % 2 ^ width), Nat.testBit_two_pow_mul_add _ hlow]
  by_cases h1 : i < lo + width
  · simp only [h1, if_true, and_true]
    by_cases h2 : i < lo
    · have : ¬ lo ≤ i := by omega
      simp [h2, this, Nat.testBit_mod_two_pow]
    · have h3 : lo ≤ i := by omega
      have : i - lo < width := by omega
      simp [h2, h3, Nat.testBit_mod_two_pow, this]
  · have h2 : ¬ i < lo + width := h1
    simp only [h2, if_false, and_false]
    rw [Nat.testBit_div_two_pow]
    congr 1
    omega

theorem toNat_setF (w : Word) (f : Field) (v : Nat) : (setF w f v).toNat = withBits w.toNat f.lo f.width v % 2 ^ 64 := by
  simp [setF]

/-- A field that has been set reads the low bits of the value. -/
theorem getF_setF_same (w : Word) (f : Field) (v : Nat) (h : f.fits = true) : getF (setF w f v) f = v % 2 ^ f.width := by
  have hf : f.lo + f.width ≤ 64 := by simpa [Field.fits] using h
  apply Nat.eq_of_testBit_eq
  intro i
  rw [getF, testBit_bitsAt, toNat_setF, Nat.testBit_mod_two_pow, testBit_withBits, Nat.testBit_mod_two_pow]
  by_cases hi : i < f.width
  · have h1 : f.lo + i < 64 := by omega
    have h2 : f.lo ≤ f.lo + i ∧ f.lo + i < f.lo + f.width := by omega
    simp [hi, h1]
  · simp [hi]

/-- A field keeps its value when a field apart from it is set. -/
theorem getF_setF_apart (w : Word) (f g : Field) (v : Nat) (h : f.apart g = true) : getF (setF w f v) g = getF w g := by
  have hf : f.lo + f.width ≤ g.lo ∨ g.lo + g.width ≤ f.lo := by simpa [Field.apart] using h
  apply Nat.eq_of_testBit_eq
  intro i
  rw [getF, getF, testBit_bitsAt, testBit_bitsAt, toNat_setF, Nat.testBit_mod_two_pow, testBit_withBits]
  by_cases hi : i < g.width
  · have h2 : ¬ (f.lo ≤ g.lo + i ∧ g.lo + i < f.lo + f.width) := by omega
    by_cases h1 : g.lo + i < 64
    · simp [hi, h1, h2]
    · have : w.toNat.testBit (g.lo + i) = false := by
        apply Nat.testBit_lt_two_pow
        exact Nat.lt_of_lt_of_le w.isLt (Nat.pow_le_pow_right (by decide) (by omega))
      simp [h1, this]
  · simp [hi]

/-- A field reads less than its width allows. -/
theorem getF_lt (w : Word) (f : Field) : getF w f < 2 ^ f.width := bitsAt_lt _ _ _

theorem setF_getF_word (w : Word) (f : Field) : getF w f ≤ w.toNat := by
  unfold getF bitsAt
  exact le_trans (Nat.mod_le _ _) (by rw [Nat.shiftRight_eq_div_pow]; exact Nat.div_le_self _ _)

end Sys2Proof.Machine
end

