-- ==== Sys2Proof/Laws/Maps.lean ====
section
/-! SUPPORT. Laws of sparse maps: a read after a write, and that every operation keeps the canonical form. -/

namespace Sys2Proof.Machine

open Sys2Proof

variable {α : Type} [DecidableEq α] {d : Nat → α}

theorem mwfFrom_mono {lo lo' : Nat} {m : SMap α} (h : lo' ≤ lo) (hm : mwfFrom d lo m = true) : mwfFrom d lo' m = true := by
  cases m with
  | nil => rfl
  | cons e t =>
    obtain ⟨k, v⟩ := e
    simp only [mwfFrom, Bool.and_eq_true, decide_eq_true_eq] at hm ⊢
    exact ⟨⟨by omega, hm.1.2⟩, hm.2⟩

/-- An unlisted key below the lower bound reads its default. -/
theorem mget_below {lo k : Nat} {m : SMap α} (hm : mwfFrom d lo m = true) (h : k < lo) : mget d m k = d k := by
  induction m generalizing lo with
  | nil => rfl
  | cons e t ih =>
    obtain ⟨k', v⟩ := e
    simp only [mwfFrom, Bool.and_eq_true, decide_eq_true_eq] at hm
    have : k ≠ k' := by omega
    simp only [mget, this, if_false]
    exact ih hm.2 (by omega)

/-- A key reads what was written to it. -/
theorem mget_mset_same_from {lo : Nat} {m : SMap α} (k : Nat) (v : α) (hm : mwfFrom d lo m = true) : mget d (mset d m k v) k = v := by
  induction m generalizing lo with
  | nil => by_cases h : v = d k <;> simp [mset, mget, h]
  | cons e t ih =>
    obtain ⟨k', v'⟩ := e
    have hm' := hm
    simp only [mwfFrom, Bool.and_eq_true, decide_eq_true_eq] at hm
    simp only [mset]
    by_cases h1 : k < k'
    · simp only [h1, if_true]
      by_cases h : v = d k
      · simp only [h, if_true]
        have hk : k ≠ k' := by omega
        simp only [mget, hk, if_false]
        exact mget_below hm.2 (by omega)
      · simp [h, mget]
    · by_cases h2 : k = k'
      · subst h2
        simp only [Nat.lt_irrefl, if_false, if_true]
        by_cases h : v = d k
        · simp only [h, if_true]
          exact mget_below hm.2 (by omega)
        · simp [h, mget]
      · simp only [h1, h2, if_false, mget]
        exact ih hm.2

theorem mget_mset_same {m : SMap α} (k : Nat) (v : α) (hm : mwf d m = true) : mget d (mset d m k v) k = v :=
  mget_mset_same_from k v hm

/-- A write leaves every other key alone. -/
theorem mget_mset_other {m : SMap α} {k k' : Nat} (v : α) (h : k' ≠ k) : mget d (mset d m k v) k' = mget d m k' := by
  induction m with
  | nil => by_cases hv : v = d k <;> simp [mset, mget, hv, h]
  | cons e t ih =>
    obtain ⟨j, w⟩ := e
    simp only [mset]
    by_cases h1 : k < j
    · simp only [h1, if_true]
      by_cases hv : v = d k <;> simp [hv, mget, h]
    · by_cases h2 : k = j
      · subst h2
        simp only [Nat.lt_irrefl, if_false, if_true]
        by_cases hv : v = d k <;> simp [hv, mget, h]
      · simp only [h1, h2, if_false, mget, ih]

theorem mwfFrom_mset {lo : Nat} {m : SMap α} {k : Nat} (v : α) (hk : lo ≤ k) (hm : mwfFrom d lo m = true) :
    mwfFrom d lo (mset d m k v) = true := by
  induction m generalizing lo with
  | nil => by_cases h : v = d k <;> simp [mset, mwfFrom, h, hk]
  | cons e t ih =>
    obtain ⟨j, w⟩ := e
    have hm' := hm
    simp only [mwfFrom, Bool.and_eq_true, decide_eq_true_eq] at hm
    simp only [mset]
    by_cases h1 : k < j
    · simp only [h1, if_true]
      by_cases hv : v = d k
      · simpa [hv] using hm'
      · simp only [hv, if_false, mwfFrom, Bool.and_eq_true, decide_eq_true_eq]
        exact ⟨⟨hk, hv⟩, ⟨by omega, hm.1.2⟩, hm.2⟩
    · by_cases h2 : k = j
      · subst h2
        simp only [Nat.lt_irrefl, if_false, if_true]
        by_cases hv : v = d k
        · simp only [hv, if_true]
          exact mwfFrom_mono (by omega) hm.2
        · simp only [hv, if_false, mwfFrom, Bool.and_eq_true, decide_eq_true_eq]
          exact ⟨⟨hk, hv⟩, hm.2⟩
      · simp only [h1, h2, if_false, mwfFrom, Bool.and_eq_true, decide_eq_true_eq]
        exact ⟨hm.1, ih (by omega) hm.2⟩

/-- Setting a key keeps the canonical form. -/
theorem mwf_mset {m : SMap α} (k : Nat) (v : α) (hm : mwf d m = true) : mwf d (mset d m k v) = true :=
  mwfFrom_mset v (Nat.zero_le _) hm

theorem mwfFrom_filter {lo : Nat} {m : SMap α} (p : Nat × α → Bool) (hm : mwfFrom d lo m = true) : mwfFrom d lo (m.filter p) = true := by
  induction m generalizing lo with
  | nil => rfl
  | cons e t ih =>
    obtain ⟨k, v⟩ := e
    simp only [mwfFrom, Bool.and_eq_true, decide_eq_true_eq] at hm
    simp only [List.filter]
    split
    · simp only [mwfFrom, Bool.and_eq_true, decide_eq_true_eq]
      exact ⟨hm.1, ih hm.2⟩
    · exact mwfFrom_mono (by omega) (ih hm.2)

/-- Leaving out entries keeps the canonical form. -/
theorem mwf_filter {m : SMap α} (p : Nat × α → Bool) (hm : mwf d m = true) : mwf d (m.filter p) = true := mwfFrom_filter p hm

theorem mwf_mclear {m : SMap α} (lo hi : Nat) (hm : mwf d m = true) : mwf d (mclear m lo hi) = true := mwf_filter _ hm

/-- Two canonical stretches, the first below the second, make one. -/
theorem mwfFrom_append {lo mid : Nat} {a b : SMap α} (ha : mwfFrom d lo a = true) (hl : lo ≤ mid) (hlt : ∀ e ∈ a, e.1 < mid) (hb : mwfFrom d mid b = true) :
    mwfFrom d lo (a ++ b) = true := by
  induction a generalizing lo with
  | nil => exact mwfFrom_mono hl hb
  | cons e t ih =>
    obtain ⟨k, v⟩ := e
    simp only [mwfFrom, Bool.and_eq_true, decide_eq_true_eq, List.cons_append] at ha ⊢
    have hk : k < mid := hlt (k, v) (by simp)
    exact ⟨ha.1, ih ha.2 (by omega) fun e he => hlt e (by simp [he])⟩

theorem mlisted_from (k : Nat) (vs : List α) : mwfFrom d k (mlisted d k vs) = true := by
  induction vs generalizing k with
  | nil => rfl
  | cons v vs ih =>
    simp only [mlisted]
    split
    · exact mwfFrom_mono (by omega) (ih (k + 1))
    · next h =>
      simp only [mwfFrom, Bool.and_eq_true, decide_eq_true_eq]
      exact ⟨⟨Nat.le_refl k, h⟩, ih (k + 1)⟩

theorem mlisted_lt (k : Nat) (vs : List α) : ∀ e ∈ mlisted d k vs, e.1 < k + vs.length := by
  induction vs generalizing k with
  | nil => simp [mlisted]
  | cons v vs ih =>
    intro e he
    simp only [mlisted] at he
    simp only [List.length_cons]
    split at he
    · have := ih (k + 1) e he
      omega
    · rcases List.mem_cons.mp he with rfl | he
      · simp
      · have := ih (k + 1) e he
        omega

theorem mwfFrom_raise {lo mid : Nat} {m : SMap α} (hm : mwfFrom d lo m = true) (h : ∀ e ∈ m, mid ≤ e.1) : mwfFrom d mid m = true := by
  cases m with
  | nil => rfl
  | cons e t =>
    obtain ⟨k, v⟩ := e
    simp only [mwfFrom, Bool.and_eq_true, decide_eq_true_eq] at hm ⊢
    exact ⟨⟨h (k, v) (by simp), hm.1.2⟩, hm.2⟩

/-- Setting a run of keys keeps the canonical form. -/
theorem mwf_msetList {m : SMap α} (k : Nat) (vs : List α) (hm : mwf d m = true) : mwf d (msetList d m k vs) = true := by
  unfold msetList mwf
  rw [List.append_assoc]
  refine mwfFrom_append (mwfFrom_filter _ hm) (Nat.zero_le k) (by simp) ?_
  refine mwfFrom_append (mlisted_from k vs) (Nat.le_add_right k vs.length) (mlisted_lt k vs) ?_
  exact mwfFrom_raise (mwfFrom_filter _ hm) (by simp)

end Sys2Proof.Machine
end

