-- ==== Sys2Proof/Laws/Memory.lean ====
section
/-! SUPPORT. What the operations on memory can do: each keeps the canonical form of the stacks' cells, of the bank words and of their written lines, and a row transaction changes only the granules of its row. -/

namespace Sys2Proof.Machine

open Sys2Proof

/-- The sparse maps of memory are in their canonical form: keys strictly rising, and nothing listed that an unlisted key reads as. -/
abbrev State.MemoryOk (s : State) : Prop :=
  mwf cellDefault s.pool.cells = true ∧ mwf cellDefault s.banks.cells = true ∧ mwf writtenDefault s.banks.written = true

theorem reset_memory : State.reset.MemoryOk := ⟨rfl, rfl, rfl⟩

theorem xorGranule_keeps {s : State} (h : s.MemoryOk) (q r j start : Nat) (delta : List Byte) : (s.xorGranule q r j start delta).MemoryOk :=
  ⟨mwf_msetList _ _ h.1, h.2⟩

/-- The memory of a state stands as another's does. -/
theorem memory_same {s t : State} (h : s.MemoryOk) (hp : t.pool.cells = s.pool.cells) (hb : t.banks = s.banks) : t.MemoryOk := by
  unfold State.MemoryOk
  rw [hp, hb]
  exact h

theorem setLost_cells (s : State) (q r m : Nat) : (s.setLost q r m).pool.cells = s.pool.cells ∧ (s.setLost q r m).banks = s.banks := by
  unfold State.setLost
  split <;> exact ⟨rfl, rfl⟩

theorem memory_ite {s t : State} (c : Prop) [Decidable c] (hs : s.MemoryOk) (ht : t.MemoryOk) : (if c then s else t).MemoryOk := by
  split
  · exact hs
  · exact ht

theorem storeRaw_keeps {s : State} (h : s.MemoryOk) (ecc : List (Nat × Nat × EccResult)) (q r j start : Nat) (old new : List Byte) :
    (s.storeRaw ecc q r j start old new).1.MemoryOk := by
  unfold State.storeRaw
  split
  · split
    · exact memory_same (xorGranule_keeps h ..) (setLost_cells ..).1 (setLost_cells ..).2
    · exact h
  · exact memory_ite _ (xorGranule_keeps (memory_ite _ (xorGranule_keeps h ..) h) ..) (memory_ite _ (xorGranule_keeps h ..) h)

theorem writePiece_keeps {s : State} (h : s.MemoryOk) (ecc : List (Nat × Nat × EccResult)) (pa : Nat) (data : List Byte) :
    (s.writePiece ecc pa data).1.MemoryOk := by
  unfold State.writePiece
  split
  · exact h
  · exact storeRaw_keeps h ..

theorem pokePool_keeps {s : State} (h : s.MemoryOk) (pa : Nat) (data : List Byte) : (s.pokePool pa data).MemoryOk := by
  unfold State.pokePool
  generalize granulePieces pa data.length = l
  induction l generalizing s with
  | nil => exact h
  | cons p t ih => exact ih (writePiece_keeps h ..)

theorem store_keeps {m : Words} (h : mwf cellDefault m.1 = true ∧ mwf writtenDefault m.2 = true) (bi k start : Nat) (data : List Byte) :
    mwf cellDefault (m.store bi k start data).1 = true ∧ mwf writtenDefault (m.store bi k start data).2 = true := by
  refine ⟨?_, mwf_mset _ _ h.2⟩
  unfold Words.store
  dsimp only
  split
  · exact mwf_msetList _ _ h.1
  · exact mwf_msetList _ _ (mwf_mclear _ _ h.1)

theorem setBankWord_keeps {s : State} (h : s.MemoryOk) (bi k start : Nat) (data : List Byte) : (s.setBankWord bi k start data).MemoryOk :=
  ⟨h.1, store_keeps (m := (s.banks.cells, s.banks.written)) h.2 ..⟩

theorem writeWindow_keeps {s : State} (h : s.MemoryOk) (st tag oa : Nat) (data : List Byte) : (s.writeWindow st tag oa data).MemoryOk := by
  have fold : ∀ (l : List (Nat × Nat × Nat)) (m : Words), (mwf cellDefault m.1 = true ∧ mwf writtenDefault m.2 = true) →
      (mwf cellDefault (l.foldl (fun (m : Words) p =>
        match windowWord (s.ownedBanks st tag) p.1 with
        | none => m
        | some (bi, k) => m.store bi k p.2.1 (slice data (32 * p.1 + p.2.1 - oa) p.2.2)) m).1 = true ∧
      mwf writtenDefault (l.foldl (fun (m : Words) p =>
        match windowWord (s.ownedBanks st tag) p.1 with
        | none => m
        | some (bi, k) => m.store bi k p.2.1 (slice data (32 * p.1 + p.2.1 - oa) p.2.2)) m).2 = true) := by
    intro l
    induction l with
    | nil => exact fun m hm => hm
    | cons p t ih =>
      intro m hm
      simp only [List.foldl_cons]
      apply ih
      split
      · exact hm
      · exact store_keeps hm ..
  exact ⟨h.1, fold (windowPieces oa data.length) (s.banks.cells, s.banks.written) h.2⟩

theorem clearBank_keeps {s : State} (h : s.MemoryOk) (bi : Nat) : (s.clearBank bi).MemoryOk :=
  ⟨h.1, mwf_mclear _ _ h.2.1, mwf_mclear _ _ h.2.2⟩

theorem clearBitmaps_keeps {s : State} (h : s.MemoryOk) : s.clearBitmaps.MemoryOk := ⟨h.1, h.2.1, rfl⟩

/-- The step that empties the cells of working stacks. -/
theorem emptied_keeps {s : State} (h : s.MemoryOk) (p : Nat × Byte → Bool) :
    ({ s with pool := { s.pool with cells := s.pool.cells.filter p } } : State).MemoryOk := ⟨mwf_filter _ h.1, h.2⟩

end Sys2Proof.Machine
end

