-- ==== Sys2Proof/Laws/State.lean ====
section
/-! SUPPORT. Laws of State: what each update of a register, of the shadow copy or of the output leaves alone, one lemma a field, and what registers and fields read after it. -/

namespace Sys2Proof.Machine

open Sys2Proof

section

variable (s : State) (off : Nat) (w : Word)

@[simp] theorem State.setReg_pending : (s.setReg off w).pending = s.pending := rfl
@[simp] theorem State.setReg_shadow : (s.setReg off w).shadow = s.shadow := rfl
@[simp] theorem State.setReg_pins : (s.setReg off w).pins = s.pins := rfl
@[simp] theorem State.setReg_time : (s.setReg off w).time = s.time := rfl
@[simp] theorem State.setReg_clocks : (s.setReg off w).clocks = s.clocks := rfl
@[simp] theorem State.setReg_stackTherm : (s.setReg off w).stackTherm = s.stackTherm := rfl
@[simp] theorem State.setReg_boot : (s.setReg off w).boot = s.boot := rfl
@[simp] theorem State.setReg_commit : (s.setReg off w).commit = s.commit := rfl
@[simp] theorem State.setReg_events : (s.setReg off w).events = s.events := rfl
@[simp] theorem State.setReg_mgmt : (s.setReg off w).mgmt = s.mgmt := rfl
@[simp] theorem State.setReg_loupe : (s.setReg off w).loupe = s.loupe := rfl
@[simp] theorem State.setReg_pool : (s.setReg off w).pool = s.pool := rfl
@[simp] theorem State.setReg_banks : (s.setReg off w).banks = s.banks := rfl
@[simp] theorem State.setReg_sec : (s.setReg off w).sec = s.sec := rfl
@[simp] theorem State.setReg_ports : (s.setReg off w).ports = s.ports := rfl
@[simp] theorem State.setReg_pair : (s.setReg off w).pair = s.pair := rfl
@[simp] theorem State.setReg_router : (s.setReg off w).router = s.router := rfl
@[simp] theorem State.setReg_traffic : (s.setReg off w).traffic = s.traffic := rfl
@[simp] theorem State.setReg_links : (s.setReg off w).links = s.links := rfl
@[simp] theorem State.setReg_session : (s.setReg off w).session = s.session := rfl
@[simp] theorem State.setReg_coh : (s.setReg off w).coh = s.coh := rfl
@[simp] theorem State.setReg_ilc : (s.setReg off w).ilc = s.ilc := rfl
@[simp] theorem State.setReg_que : (s.setReg off w).que = s.que := rfl
@[simp] theorem State.setReg_leaseFills : (s.setReg off w).leaseFills = s.leaseFills := rfl
@[simp] theorem State.setReg_rcp : (s.setReg off w).rcp = s.rcp := rfl
@[simp] theorem State.setReg_exd : (s.setReg off w).exd = s.exd := rfl
@[simp] theorem State.setReg_attn : (s.setReg off w).attn = s.attn := rfl
@[simp] theorem State.setReg_fresh : (s.setReg off w).fresh = s.fresh := rfl
@[simp] theorem State.setReg_out : (s.setReg off w).out = s.out := rfl

end

section

variable (s : State) (off : Nat) (f : Field) (v : Nat)

@[simp] theorem State.setFld_pending : (s.setFld off f v).pending = s.pending := rfl
@[simp] theorem State.setFld_shadow : (s.setFld off f v).shadow = s.shadow := rfl
@[simp] theorem State.setFld_pins : (s.setFld off f v).pins = s.pins := rfl
@[simp] theorem State.setFld_time : (s.setFld off f v).time = s.time := rfl
@[simp] theorem State.setFld_clocks : (s.setFld off f v).clocks = s.clocks := rfl
@[simp] theorem State.setFld_stackTherm : (s.setFld off f v).stackTherm = s.stackTherm := rfl
@[simp] theorem State.setFld_boot : (s.setFld off f v).boot = s.boot := rfl
@[simp] theorem State.setFld_commit : (s.setFld off f v).commit = s.commit := rfl
@[simp] theorem State.setFld_events : (s.setFld off f v).events = s.events := rfl
@[simp] theorem State.setFld_mgmt : (s.setFld off f v).mgmt = s.mgmt := rfl
@[simp] theorem State.setFld_loupe : (s.setFld off f v).loupe = s.loupe := rfl
@[simp] theorem State.setFld_pool : (s.setFld off f v).pool = s.pool := rfl
@[simp] theorem State.setFld_banks : (s.setFld off f v).banks = s.banks := rfl
@[simp] theorem State.setFld_sec : (s.setFld off f v).sec = s.sec := rfl
@[simp] theorem State.setFld_ports : (s.setFld off f v).ports = s.ports := rfl
@[simp] theorem State.setFld_pair : (s.setFld off f v).pair = s.pair := rfl
@[simp] theorem State.setFld_router : (s.setFld off f v).router = s.router := rfl
@[simp] theorem State.setFld_traffic : (s.setFld off f v).traffic = s.traffic := rfl
@[simp] theorem State.setFld_links : (s.setFld off f v).links = s.links := rfl
@[simp] theorem State.setFld_session : (s.setFld off f v).session = s.session := rfl
@[simp] theorem State.setFld_coh : (s.setFld off f v).coh = s.coh := rfl
@[simp] theorem State.setFld_ilc : (s.setFld off f v).ilc = s.ilc := rfl
@[simp] theorem State.setFld_que : (s.setFld off f v).que = s.que := rfl
@[simp] theorem State.setFld_leaseFills : (s.setFld off f v).leaseFills = s.leaseFills := rfl
@[simp] theorem State.setFld_rcp : (s.setFld off f v).rcp = s.rcp := rfl
@[simp] theorem State.setFld_exd : (s.setFld off f v).exd = s.exd := rfl
@[simp] theorem State.setFld_attn : (s.setFld off f v).attn = s.attn := rfl
@[simp] theorem State.setFld_fresh : (s.setFld off f v).fresh = s.fresh := rfl
@[simp] theorem State.setFld_out : (s.setFld off f v).out = s.out := rfl

end

section

variable (s : State) (off : Nat) (f : Field) (n : Nat)

@[simp] theorem State.countSat_pending : (s.countSat off f n).pending = s.pending := rfl
@[simp] theorem State.countSat_shadow : (s.countSat off f n).shadow = s.shadow := rfl
@[simp] theorem State.countSat_pins : (s.countSat off f n).pins = s.pins := rfl
@[simp] theorem State.countSat_time : (s.countSat off f n).time = s.time := rfl
@[simp] theorem State.countSat_clocks : (s.countSat off f n).clocks = s.clocks := rfl
@[simp] theorem State.countSat_stackTherm : (s.countSat off f n).stackTherm = s.stackTherm := rfl
@[simp] theorem State.countSat_boot : (s.countSat off f n).boot = s.boot := rfl
@[simp] theorem State.countSat_commit : (s.countSat off f n).commit = s.commit := rfl
@[simp] theorem State.countSat_events : (s.countSat off f n).events = s.events := rfl
@[simp] theorem State.countSat_mgmt : (s.countSat off f n).mgmt = s.mgmt := rfl
@[simp] theorem State.countSat_loupe : (s.countSat off f n).loupe = s.loupe := rfl
@[simp] theorem State.countSat_pool : (s.countSat off f n).pool = s.pool := rfl
@[simp] theorem State.countSat_banks : (s.countSat off f n).banks = s.banks := rfl
@[simp] theorem State.countSat_sec : (s.countSat off f n).sec = s.sec := rfl
@[simp] theorem State.countSat_ports : (s.countSat off f n).ports = s.ports := rfl
@[simp] theorem State.countSat_pair : (s.countSat off f n).pair = s.pair := rfl
@[simp] theorem State.countSat_router : (s.countSat off f n).router = s.router := rfl
@[simp] theorem State.countSat_traffic : (s.countSat off f n).traffic = s.traffic := rfl
@[simp] theorem State.countSat_links : (s.countSat off f n).links = s.links := rfl
@[simp] theorem State.countSat_session : (s.countSat off f n).session = s.session := rfl
@[simp] theorem State.countSat_coh : (s.countSat off f n).coh = s.coh := rfl
@[simp] theorem State.countSat_ilc : (s.countSat off f n).ilc = s.ilc := rfl
@[simp] theorem State.countSat_que : (s.countSat off f n).que = s.que := rfl
@[simp] theorem State.countSat_leaseFills : (s.countSat off f n).leaseFills = s.leaseFills := rfl
@[simp] theorem State.countSat_rcp : (s.countSat off f n).rcp = s.rcp := rfl
@[simp] theorem State.countSat_exd : (s.countSat off f n).exd = s.exd := rfl
@[simp] theorem State.countSat_attn : (s.countSat off f n).attn = s.attn := rfl
@[simp] theorem State.countSat_fresh : (s.countSat off f n).fresh = s.fresh := rfl
@[simp] theorem State.countSat_out : (s.countSat off f n).out = s.out := rfl

end

section

variable (s : State) (off : Nat) (f : Field) (n : Nat)

@[simp] theorem State.countWrap_pending : (s.countWrap off f n).pending = s.pending := rfl
@[simp] theorem State.countWrap_shadow : (s.countWrap off f n).shadow = s.shadow := rfl
@[simp] theorem State.countWrap_pins : (s.countWrap off f n).pins = s.pins := rfl
@[simp] theorem State.countWrap_time : (s.countWrap off f n).time = s.time := rfl
@[simp] theorem State.countWrap_clocks : (s.countWrap off f n).clocks = s.clocks := rfl
@[simp] theorem State.countWrap_stackTherm : (s.countWrap off f n).stackTherm = s.stackTherm := rfl
@[simp] theorem State.countWrap_boot : (s.countWrap off f n).boot = s.boot := rfl
@[simp] theorem State.countWrap_commit : (s.countWrap off f n).commit = s.commit := rfl
@[simp] theorem State.countWrap_events : (s.countWrap off f n).events = s.events := rfl
@[simp] theorem State.countWrap_mgmt : (s.countWrap off f n).mgmt = s.mgmt := rfl
@[simp] theorem State.countWrap_loupe : (s.countWrap off f n).loupe = s.loupe := rfl
@[simp] theorem State.countWrap_pool : (s.countWrap off f n).pool = s.pool := rfl
@[simp] theorem State.countWrap_banks : (s.countWrap off f n).banks = s.banks := rfl
@[simp] theorem State.countWrap_sec : (s.countWrap off f n).sec = s.sec := rfl
@[simp] theorem State.countWrap_ports : (s.countWrap off f n).ports = s.ports := rfl
@[simp] theorem State.countWrap_pair : (s.countWrap off f n).pair = s.pair := rfl
@[simp] theorem State.countWrap_router : (s.countWrap off f n).router = s.router := rfl
@[simp] theorem State.countWrap_traffic : (s.countWrap off f n).traffic = s.traffic := rfl
@[simp] theorem State.countWrap_links : (s.countWrap off f n).links = s.links := rfl
@[simp] theorem State.countWrap_session : (s.countWrap off f n).session = s.session := rfl
@[simp] theorem State.countWrap_coh : (s.countWrap off f n).coh = s.coh := rfl
@[simp] theorem State.countWrap_ilc : (s.countWrap off f n).ilc = s.ilc := rfl
@[simp] theorem State.countWrap_que : (s.countWrap off f n).que = s.que := rfl
@[simp] theorem State.countWrap_leaseFills : (s.countWrap off f n).leaseFills = s.leaseFills := rfl
@[simp] theorem State.countWrap_rcp : (s.countWrap off f n).rcp = s.rcp := rfl
@[simp] theorem State.countWrap_exd : (s.countWrap off f n).exd = s.exd := rfl
@[simp] theorem State.countWrap_attn : (s.countWrap off f n).attn = s.attn := rfl
@[simp] theorem State.countWrap_fresh : (s.countWrap off f n).fresh = s.fresh := rfl
@[simp] theorem State.countWrap_out : (s.countWrap off f n).out = s.out := rfl

end

section

variable (s : State) (off : Nat) (w : Word)

@[simp] theorem State.setShadow_pending : (s.setShadow off w).pending = s.pending := rfl
@[simp] theorem State.setShadow_regs : (s.setShadow off w).regs = s.regs := rfl
@[simp] theorem State.setShadow_pins : (s.setShadow off w).pins = s.pins := rfl
@[simp] theorem State.setShadow_time : (s.setShadow off w).time = s.time := rfl
@[simp] theorem State.setShadow_clocks : (s.setShadow off w).clocks = s.clocks := rfl
@[simp] theorem State.setShadow_stackTherm : (s.setShadow off w).stackTherm = s.stackTherm := rfl
@[simp] theorem State.setShadow_boot : (s.setShadow off w).boot = s.boot := rfl
@[simp] theorem State.setShadow_commit : (s.setShadow off w).commit = s.commit := rfl
@[simp] theorem State.setShadow_events : (s.setShadow off w).events = s.events := rfl
@[simp] theorem State.setShadow_mgmt : (s.setShadow off w).mgmt = s.mgmt := rfl
@[simp] theorem State.setShadow_loupe : (s.setShadow off w).loupe = s.loupe := rfl
@[simp] theorem State.setShadow_pool : (s.setShadow off w).pool = s.pool := rfl
@[simp] theorem State.setShadow_banks : (s.setShadow off w).banks = s.banks := rfl
@[simp] theorem State.setShadow_sec : (s.setShadow off w).sec = s.sec := rfl
@[simp] theorem State.setShadow_ports : (s.setShadow off w).ports = s.ports := rfl
@[simp] theorem State.setShadow_pair : (s.setShadow off w).pair = s.pair := rfl
@[simp] theorem State.setShadow_router : (s.setShadow off w).router = s.router := rfl
@[simp] theorem State.setShadow_traffic : (s.setShadow off w).traffic = s.traffic := rfl
@[simp] theorem State.setShadow_links : (s.setShadow off w).links = s.links := rfl
@[simp] theorem State.setShadow_session : (s.setShadow off w).session = s.session := rfl
@[simp] theorem State.setShadow_coh : (s.setShadow off w).coh = s.coh := rfl
@[simp] theorem State.setShadow_ilc : (s.setShadow off w).ilc = s.ilc := rfl
@[simp] theorem State.setShadow_que : (s.setShadow off w).que = s.que := rfl
@[simp] theorem State.setShadow_leaseFills : (s.setShadow off w).leaseFills = s.leaseFills := rfl
@[simp] theorem State.setShadow_rcp : (s.setShadow off w).rcp = s.rcp := rfl
@[simp] theorem State.setShadow_exd : (s.setShadow off w).exd = s.exd := rfl
@[simp] theorem State.setShadow_attn : (s.setShadow off w).attn = s.attn := rfl
@[simp] theorem State.setShadow_fresh : (s.setShadow off w).fresh = s.fresh := rfl
@[simp] theorem State.setShadow_out : (s.setShadow off w).out = s.out := rfl

end

section

variable (s : State) (off : Nat) (f : Field) (v : Nat)

@[simp] theorem State.setBoth_pending : (s.setBoth off f v).pending = s.pending := rfl
@[simp] theorem State.setBoth_pins : (s.setBoth off f v).pins = s.pins := rfl
@[simp] theorem State.setBoth_time : (s.setBoth off f v).time = s.time := rfl
@[simp] theorem State.setBoth_clocks : (s.setBoth off f v).clocks = s.clocks := rfl
@[simp] theorem State.setBoth_stackTherm : (s.setBoth off f v).stackTherm = s.stackTherm := rfl
@[simp] theorem State.setBoth_boot : (s.setBoth off f v).boot = s.boot := rfl
@[simp] theorem State.setBoth_commit : (s.setBoth off f v).commit = s.commit := rfl
@[simp] theorem State.setBoth_events : (s.setBoth off f v).events = s.events := rfl
@[simp] theorem State.setBoth_mgmt : (s.setBoth off f v).mgmt = s.mgmt := rfl
@[simp] theorem State.setBoth_loupe : (s.setBoth off f v).loupe = s.loupe := rfl
@[simp] theorem State.setBoth_pool : (s.setBoth off f v).pool = s.pool := rfl
@[simp] theorem State.setBoth_banks : (s.setBoth off f v).banks = s.banks := rfl
@[simp] theorem State.setBoth_sec : (s.setBoth off f v).sec = s.sec := rfl
@[simp] theorem State.setBoth_ports : (s.setBoth off f v).ports = s.ports := rfl
@[simp] theorem State.setBoth_pair : (s.setBoth off f v).pair = s.pair := rfl
@[simp] theorem State.setBoth_router : (s.setBoth off f v).router = s.router := rfl
@[simp] theorem State.setBoth_traffic : (s.setBoth off f v).traffic = s.traffic := rfl
@[simp] theorem State.setBoth_links : (s.setBoth off f v).links = s.links := rfl
@[simp] theorem State.setBoth_session : (s.setBoth off f v).session = s.session := rfl
@[simp] theorem State.setBoth_coh : (s.setBoth off f v).coh = s.coh := rfl
@[simp] theorem State.setBoth_ilc : (s.setBoth off f v).ilc = s.ilc := rfl
@[simp] theorem State.setBoth_que : (s.setBoth off f v).que = s.que := rfl
@[simp] theorem State.setBoth_leaseFills : (s.setBoth off f v).leaseFills = s.leaseFills := rfl
@[simp] theorem State.setBoth_rcp : (s.setBoth off f v).rcp = s.rcp := rfl
@[simp] theorem State.setBoth_exd : (s.setBoth off f v).exd = s.exd := rfl
@[simp] theorem State.setBoth_attn : (s.setBoth off f v).attn = s.attn := rfl
@[simp] theorem State.setBoth_fresh : (s.setBoth off f v).fresh = s.fresh := rfl
@[simp] theorem State.setBoth_out : (s.setBoth off f v).out = s.out := rfl

end

section

variable (s : State) (path : Path) (kind off : Nat)

@[simp] theorem State.logViol_pending : (s.logViol path kind off).pending = s.pending := rfl
@[simp] theorem State.logViol_shadow : (s.logViol path kind off).shadow = s.shadow := rfl
@[simp] theorem State.logViol_pins : (s.logViol path kind off).pins = s.pins := rfl
@[simp] theorem State.logViol_time : (s.logViol path kind off).time = s.time := rfl
@[simp] theorem State.logViol_clocks : (s.logViol path kind off).clocks = s.clocks := rfl
@[simp] theorem State.logViol_stackTherm : (s.logViol path kind off).stackTherm = s.stackTherm := rfl
@[simp] theorem State.logViol_boot : (s.logViol path kind off).boot = s.boot := rfl
@[simp] theorem State.logViol_commit : (s.logViol path kind off).commit = s.commit := rfl
@[simp] theorem State.logViol_events : (s.logViol path kind off).events = s.events := rfl
@[simp] theorem State.logViol_mgmt : (s.logViol path kind off).mgmt = s.mgmt := rfl
@[simp] theorem State.logViol_loupe : (s.logViol path kind off).loupe = s.loupe := rfl
@[simp] theorem State.logViol_pool : (s.logViol path kind off).pool = s.pool := rfl
@[simp] theorem State.logViol_banks : (s.logViol path kind off).banks = s.banks := rfl
@[simp] theorem State.logViol_sec : (s.logViol path kind off).sec = s.sec := rfl
@[simp] theorem State.logViol_ports : (s.logViol path kind off).ports = s.ports := rfl
@[simp] theorem State.logViol_pair : (s.logViol path kind off).pair = s.pair := rfl
@[simp] theorem State.logViol_router : (s.logViol path kind off).router = s.router := rfl
@[simp] theorem State.logViol_traffic : (s.logViol path kind off).traffic = s.traffic := rfl
@[simp] theorem State.logViol_links : (s.logViol path kind off).links = s.links := rfl
@[simp] theorem State.logViol_session : (s.logViol path kind off).session = s.session := rfl
@[simp] theorem State.logViol_coh : (s.logViol path kind off).coh = s.coh := rfl
@[simp] theorem State.logViol_ilc : (s.logViol path kind off).ilc = s.ilc := rfl
@[simp] theorem State.logViol_que : (s.logViol path kind off).que = s.que := rfl
@[simp] theorem State.logViol_leaseFills : (s.logViol path kind off).leaseFills = s.leaseFills := rfl
@[simp] theorem State.logViol_rcp : (s.logViol path kind off).rcp = s.rcp := rfl
@[simp] theorem State.logViol_exd : (s.logViol path kind off).exd = s.exd := rfl
@[simp] theorem State.logViol_attn : (s.logViol path kind off).attn = s.attn := rfl
@[simp] theorem State.logViol_fresh : (s.logViol path kind off).fresh = s.fresh := rfl
@[simp] theorem State.logViol_out : (s.logViol path kind off).out = s.out := rfl

end

section

variable (s : State) (m : OutMsg)

/-- A message sent changes the output and what Ilcen holds, and nothing else. -/
theorem State.emit_eq : ∃ o i, s.emit m = { s with out := o, ilc := i } := by
  unfold State.emit State.sendFlit
  split
  · split
    · exact ⟨_, _, rfl⟩
    · exact ⟨_, _, rfl⟩
  · exact ⟨_, _, rfl⟩

/-- A message that does not travel over Ilcen joins the output. -/
theorem State.emit_direct (h : overIlcen m = false) : s.emit m = { s with out := s.out ++ [m] } := by
  simp [State.emit, h]

@[simp] theorem State.emit_pending : (s.emit m).pending = s.pending := by obtain ⟨o, i, h⟩ := s.emit_eq m; rw [h]
@[simp] theorem State.emit_regs : (s.emit m).regs = s.regs := by obtain ⟨o, i, h⟩ := s.emit_eq m; rw [h]
@[simp] theorem State.emit_shadow : (s.emit m).shadow = s.shadow := by obtain ⟨o, i, h⟩ := s.emit_eq m; rw [h]
@[simp] theorem State.emit_pins : (s.emit m).pins = s.pins := by obtain ⟨o, i, h⟩ := s.emit_eq m; rw [h]
@[simp] theorem State.emit_time : (s.emit m).time = s.time := by obtain ⟨o, i, h⟩ := s.emit_eq m; rw [h]
@[simp] theorem State.emit_clocks : (s.emit m).clocks = s.clocks := by obtain ⟨o, i, h⟩ := s.emit_eq m; rw [h]
@[simp] theorem State.emit_stackTherm : (s.emit m).stackTherm = s.stackTherm := by obtain ⟨o, i, h⟩ := s.emit_eq m; rw [h]
@[simp] theorem State.emit_boot : (s.emit m).boot = s.boot := by obtain ⟨o, i, h⟩ := s.emit_eq m; rw [h]
@[simp] theorem State.emit_commit : (s.emit m).commit = s.commit := by obtain ⟨o, i, h⟩ := s.emit_eq m; rw [h]
@[simp] theorem State.emit_events : (s.emit m).events = s.events := by obtain ⟨o, i, h⟩ := s.emit_eq m; rw [h]
@[simp] theorem State.emit_mgmt : (s.emit m).mgmt = s.mgmt := by obtain ⟨o, i, h⟩ := s.emit_eq m; rw [h]
@[simp] theorem State.emit_loupe : (s.emit m).loupe = s.loupe := by obtain ⟨o, i, h⟩ := s.emit_eq m; rw [h]
@[simp] theorem State.emit_pool : (s.emit m).pool = s.pool := by obtain ⟨o, i, h⟩ := s.emit_eq m; rw [h]
@[simp] theorem State.emit_banks : (s.emit m).banks = s.banks := by obtain ⟨o, i, h⟩ := s.emit_eq m; rw [h]
@[simp] theorem State.emit_sec : (s.emit m).sec = s.sec := by obtain ⟨o, i, h⟩ := s.emit_eq m; rw [h]
@[simp] theorem State.emit_ports : (s.emit m).ports = s.ports := by obtain ⟨o, i, h⟩ := s.emit_eq m; rw [h]
@[simp] theorem State.emit_pair : (s.emit m).pair = s.pair := by obtain ⟨o, i, h⟩ := s.emit_eq m; rw [h]
@[simp] theorem State.emit_router : (s.emit m).router = s.router := by obtain ⟨o, i, h⟩ := s.emit_eq m; rw [h]
@[simp] theorem State.emit_traffic : (s.emit m).traffic = s.traffic := by obtain ⟨o, i, h⟩ := s.emit_eq m; rw [h]
@[simp] theorem State.emit_links : (s.emit m).links = s.links := by obtain ⟨o, i, h⟩ := s.emit_eq m; rw [h]
@[simp] theorem State.emit_session : (s.emit m).session = s.session := by obtain ⟨o, i, h⟩ := s.emit_eq m; rw [h]
@[simp] theorem State.emit_coh : (s.emit m).coh = s.coh := by obtain ⟨o, i, h⟩ := s.emit_eq m; rw [h]
@[simp] theorem State.emit_que : (s.emit m).que = s.que := by obtain ⟨o, i, h⟩ := s.emit_eq m; rw [h]
@[simp] theorem State.emit_leaseFills : (s.emit m).leaseFills = s.leaseFills := by obtain ⟨o, i, h⟩ := s.emit_eq m; rw [h]
@[simp] theorem State.emit_rcp : (s.emit m).rcp = s.rcp := by obtain ⟨o, i, h⟩ := s.emit_eq m; rw [h]
@[simp] theorem State.emit_exd : (s.emit m).exd = s.exd := by obtain ⟨o, i, h⟩ := s.emit_eq m; rw [h]
@[simp] theorem State.emit_attn : (s.emit m).attn = s.attn := by obtain ⟨o, i, h⟩ := s.emit_eq m; rw [h]
@[simp] theorem State.emit_fresh : (s.emit m).fresh = s.fresh := by obtain ⟨o, i, h⟩ := s.emit_eq m; rw [h]

end

/-- The registers of a state are in canonical form. -/
def State.RegsOk (s : State) : Prop := mwf resetWord s.regs = true

/-- The shadow copy of a state is in canonical form. -/
def State.ShadowOk (s : State) : Prop := mwf shadowReset s.shadow = true

theorem State.setReg_ok {s : State} (h : s.RegsOk) (off : Nat) (w : Word) : (s.setReg off w).RegsOk := mwf_mset _ _ h

theorem State.setFld_ok {s : State} (h : s.RegsOk) (off : Nat) (f : Field) (v : Nat) : (s.setFld off f v).RegsOk := State.setReg_ok h _ _

theorem State.countSat_ok {s : State} (h : s.RegsOk) (off : Nat) (f : Field) (n : Nat) : (s.countSat off f n).RegsOk := State.setFld_ok h _ _ _

theorem State.countWrap_ok {s : State} (h : s.RegsOk) (off : Nat) (f : Field) (n : Nat) : (s.countWrap off f n).RegsOk := State.setFld_ok h _ _ _

theorem State.setBoth_ok {s : State} (h : s.RegsOk) (off : Nat) (f : Field) (v : Nat) : (s.setBoth off f v).RegsOk := State.setFld_ok h _ _ _

theorem State.logViol_ok {s : State} (h : s.RegsOk) (p : Path) (k off : Nat) : (s.logViol p k off).RegsOk :=
  State.countSat_ok (State.setFld_ok (State.setFld_ok (State.setFld_ok h _ _ _) _ _ _) _ _ _) _ _ _

/-- A register reads what was written to it. -/
theorem State.reg_setReg_same {s : State} (h : s.RegsOk) (off : Nat) (w : Word) : (s.setReg off w).reg off = w := mget_mset_same _ _ h

/-- A register write leaves every other register alone. -/
theorem State.reg_setReg_other (s : State) {off off' : Nat} (w : Word) (h : off' ≠ off) : (s.setReg off w).reg off' = s.reg off' :=
  mget_mset_other _ h

theorem State.reg_setFld_same {s : State} (h : s.RegsOk) (off : Nat) (f : Field) (v : Nat) : (s.setFld off f v).reg off = setF (s.reg off) f v :=
  State.reg_setReg_same h _ _

theorem State.reg_setFld_other (s : State) {off off' : Nat} (f : Field) (v : Nat) (h : off' ≠ off) : (s.setFld off f v).reg off' = s.reg off' :=
  State.reg_setReg_other s _ h

/-- A field reads the low bits of what was written to it. -/
theorem State.fld_setFld_same {s : State} (h : s.RegsOk) (off : Nat) {f : Field} (v : Nat) (hf : f.fits = true) :
    (s.setFld off f v).fld off f = v % 2 ^ f.width := by
  simp only [State.fld, State.reg_setFld_same h, getF_setF_same _ _ _ hf]

/-- A field write leaves the fields apart from it alone, in whatever register they stand. -/
theorem State.fld_setFld_apart {s : State} (h : s.RegsOk) (off off' : Nat) {f g : Field} (v : Nat) (hf : f.apart g = true) :
    (s.setFld off f v).fld off' g = s.fld off' g := by
  by_cases e : off' = off
  · subst e
    simp only [State.fld, State.reg_setFld_same h, getF_setF_apart _ _ _ _ hf]
  · simp only [State.fld, State.reg_setFld_other s f v e]

/-- A field write leaves the fields of every other register alone. -/
theorem State.fld_setFld_other (s : State) {off off' : Nat} (f g : Field) (v : Nat) (h : off' ≠ off) :
    (s.setFld off f v).fld off' g = s.fld off' g := by
  simp only [State.fld, State.reg_setFld_other s f v h]

/-- A saturating count never goes down. -/
theorem satAdd_ge {w a b : Nat} (h : a < 2 ^ w) : a ≤ satAdd w a b := by
  unfold satAdd
  split <;> omega

theorem satAdd_lt (w a b : Nat) : satAdd w a b < 2 ^ w := by
  have : 0 < 2 ^ w := Nat.two_pow_pos w
  unfold satAdd
  split <;> omega

/-- What a counter reads after a count. -/
theorem State.fld_countSat_same {s : State} (h : s.RegsOk) (off : Nat) {f : Field} (n : Nat) (hf : f.fits = true) :
    (s.countSat off f n).fld off f = satAdd f.width (s.fld off f) n := by
  rw [State.countSat, State.fld_setFld_same h _ _ hf, Nat.mod_eq_of_lt (satAdd_lt _ _ _)]

theorem State.reg_countSat_other (s : State) {off off' : Nat} (f : Field) (n : Nat) (h : off' ≠ off) :
    (s.countSat off f n).reg off' = s.reg off' := State.reg_setFld_other s f _ h

/-- A violation is logged in GLB_CFG_VIOL and nowhere else. -/
theorem State.reg_logViol_other (s : State) (p : Path) (k off : Nat) {off' : Nat} (h : off' ≠ Reg.GLB_CFG_VIOL) :
    (s.logViol p k off).reg off' = s.reg off' := by
  simp only [State.logViol, State.countSat, State.reg_setFld_other _ _ _ h]

@[simp] theorem State.reg_emit (s : State) (m : OutMsg) (off : Nat) : (s.emit m).reg off = s.reg off := by simp [State.reg]

@[simp] theorem State.fld_emit (s : State) (m : OutMsg) (off : Nat) (f : Field) : (s.emit m).fld off f = s.fld off f := by simp [State.fld]

@[simp] theorem State.reg_setShadow (s : State) (off : Nat) (w : Word) (o : Nat) : (s.setShadow off w).reg o = s.reg o := rfl

@[simp] theorem State.shadowReg_setReg (s : State) (off : Nat) (w : Word) (o : Nat) : (s.setReg off w).shadowReg o = s.shadowReg o := rfl

end Sys2Proof.Machine
end

