-- ==== Sys2Proof/Laws/Windows.lean ====
section
/-! SUPPORT. What work in a bank window can do: writes into a window change bank words and nothing else, and a window whose banks all serve answers every range within it. -/

namespace Sys2Proof.Machine

open Sys2Proof

/-- A state that differs from another only in what bank words and vector registers hold, and in the free values drawn. -/
def WordsOnly (s t : State) : Prop :=
  ∃ c w f v, t = { s with banks := { s.banks with cells := c, written := w }, fresh := f, rcp := { s.rcp with vector := v } }

theorem wordsOnly_refl (s : State) : WordsOnly s s := ⟨s.banks.cells, s.banks.written, s.fresh, s.rcp.vector, rfl⟩

theorem wordsOnly_trans {s t u : State} (h : WordsOnly s t) (h' : WordsOnly t u) : WordsOnly s u := by
  obtain ⟨c, w, f, v, rfl⟩ := h
  obtain ⟨c', w', f', v', rfl⟩ := h'
  exact ⟨c', w', f', v', rfl⟩

theorem setBankWord_words (s : State) (bi k start : Nat) (data : List Byte) : WordsOnly s (s.setBankWord bi k start data) :=
  ⟨_, _, s.fresh, s.rcp.vector, rfl⟩

theorem useVector_words (s : State) (g : Nat) : WordsOnly s (s.useVector g) := ⟨s.banks.cells, s.banks.written, _, _, rfl⟩

theorem drawRow_words (s : State) (n : Nat) : WordsOnly s (s.drawRow n).2 := ⟨s.banks.cells, s.banks.written, _, s.rcp.vector, rfl⟩

theorem writeWindow_words (s : State) (st tag oa : Nat) (data : List Byte) : WordsOnly s (s.writeWindow st tag oa data) :=
  ⟨_, _, s.fresh, s.rcp.vector, rfl⟩

/-- An owner whose banks in a Setting all serve, with none on its way to it. -/
abbrev Serves (s : State) (st tag : Nat) : Prop :=
  s.awaitsBank st tag = false ∧ ∀ bi ∈ s.ownedBanks st tag, s.bankVerdict bi tag = .ok

theorem serves_words {s t : State} {st tag : Nat} (h : WordsOnly s t) (hs : Serves s st tag) : Serves t st tag := by
  obtain ⟨c, w, f, v, rfl⟩ := h
  exact hs

theorem ownedBanks_words {s t : State} (h : WordsOnly s t) (st tag : Nat) : t.ownedBanks st tag = s.ownedBanks st tag := by
  obtain ⟨c, w, f, v, rfl⟩ := h
  rfl

/-- A range within the window of an owner whose banks serve is answered. -/
theorem windowVerdict_ok {s : State} {st tag : Nat} (h : Serves s st tag) {oa n : Nat} (hn : oa + n ≤ (s.ownedBanks st tag).length * 262144) :
    (s.windowVerdict st tag oa n).1 = .ok := by
  have step : ∀ (l : List (Nat × Nat × Nat)) (v : BankVerdict × Nat), v.1 = .ok → (∀ p ∈ l, p.1 < (s.ownedBanks st tag).length * 8192) →
      (l.foldl (s.verdictOn (s.ownedBanks st tag) tag) v).1 = .ok := by
    intro l
    induction l with
    | nil => intro v hv _; exact hv
    | cons p t ih =>
      intro v hv hp
      have hlt := hp p (by simp)
      have hpos : 0 < (s.ownedBanks st tag).length := by omega
      refine ih _ ?_ fun q hq => hp q (by simp [hq])
      have hm : (s.ownedBanks st tag).getD (p.1 % (s.ownedBanks st tag).length) 0 ∈ s.ownedBanks st tag := by
        rw [List.getD_eq_getElem _ _ (Nat.mod_lt _ hpos)]
        exact List.getElem_mem _
      simp only [State.verdictOn, hv, windowWord, if_neg (Nat.not_le.mpr hlt)]
      exact h.2 _ hm
  have hv := step ((windowPieces oa n).take (s.ownedBanks st tag).length) (.ok, 0) rfl (by
    intro p hp
    have hp := List.mem_of_mem_take hp
    simp only [windowPieces, List.mem_map, List.mem_range] at hp
    obtain ⟨i, hi, rfl⟩ := hp
    dsimp only
    omega)
  have hw : ¬ (s.ownedBanks st tag).length * 8192 < (oa + n + 31) / 32 := by omega
  simp only [State.windowVerdict, h.1, hw, decide_false, Bool.and_false, Bool.false_eq_true, if_false, hv]

/-- Work that goes on after a range it may use is looked at, in the same state. -/
theorem look_ok {d : Doing} {st tag oa n : Nat} (hs : Serves d.s st tag) (hn : oa + n ≤ (d.s.ownedBanks st tag).length * 262144) :
    d.look st tag oa n = d := by
  have h := windowVerdict_ok hs hn
  unfold Doing.look
  split
  · rfl
  · split <;> simp_all

/-- Work is as far as it was, and its state differs only in words. -/
def GoesOn (d e : Doing) : Prop := e = { d with s := e.s } ∧ WordsOnly d.s e.s

theorem goesOn_trans {d e f : Doing} (h : GoesOn d e) (h' : GoesOn e f) : GoesOn d f := by
  refine ⟨?_, wordsOnly_trans h.2 h'.2⟩
  have h1 := h.1
  have h2 := h'.1
  rw [h1] at h2
  exact h2

theorem put_goes (d : Doing) (st tag oa : Nat) (data : List Byte) : GoesOn d (d.put st tag oa data) := by
  unfold Doing.put Doing.next
  split
  · exact ⟨rfl, writeWindow_words ..⟩
  · exact ⟨rfl, wordsOnly_refl _⟩

theorem wordsOut_goes {d : Doing} {place : Nat × Nat × Nat} {col : Nat} {ws : List Nat} (hs : Serves d.s place.1 place.2.1)
    (hn : place.2.2 + 4 * col + 4 * ws.length ≤ (d.s.ownedBanks place.1 place.2.1).length * 262144) : GoesOn d (d.wordsOut place col ws) := by
  show GoesOn d ((d.look place.1 place.2.1 (place.2.2 + 4 * col) (4 * ws.length)).put place.1 place.2.1 (place.2.2 + 4 * col) (ws.flatMap (leBytes 4)))
  rw [look_ok hs hn]
  exact put_goes ..

theorem scribble_goes {d : Doing} {st f word n : Nat} (hs : Serves d.s st f) (hn : 32 * word + n ≤ (d.s.ownedBanks st f).length * 262144) :
    GoesOn d (d.scribble st f word n) := by
  unfold Doing.scribble
  rw [look_ok hs hn]
  simp only [Doing.next]
  split
  · exact ⟨rfl, wordsOnly_trans (drawRow_words d.s n) (writeWindow_words ..)⟩
  · exact ⟨rfl, wordsOnly_refl _⟩

theorem windowEcc_none {d : Doing} (h : d.bank = []) (st tag oa n : Nat) : d.windowEcc st tag oa n = [] := by
  unfold Doing.windowEcc
  simp only [h, List.filter_nil, List.map_nil, List.flatMap_eq_nil_iff]
  intro p _
  split <;> rfl

/-- A range read where ECC finds nothing leaves the work as it was. -/
theorem readWin_goes {d : Doing} {st tag oa n : Nat} (hb : d.bank = []) (hs : Serves d.s st tag) (hn : oa + n ≤ (d.s.ownedBanks st tag).length * 262144) :
    (d.readWin st tag oa n).1 = d := by
  unfold Doing.readWin
  simp only [look_ok hs hn, windowEcc_none hb]
  split <;> rfl

theorem lanesIn_goes {d : Doing} {place : Nat × Nat × Nat} {width : Nat} (hb : d.bank = []) (hs : Serves d.s place.1 place.2.1)
    (hn : place.2.2 + 4 * width ≤ (d.s.ownedBanks place.1 place.2.1).length * 262144) : GoesOn d (d.lanesIn place width).1 := by
  have h := readWin_goes hb hs hn
  unfold Doing.lanesIn
  simp only [h]
  split
  · exact ⟨rfl, useVector_words ..⟩
  · exact ⟨rfl, wordsOnly_refl _⟩

/-- The gate of a token whose dst and router rows lie in windows that serve goes on. -/
theorem gate_goes {d : Doing} {e : List Byte} {p : ExpPlan} {a : List (List (Option (Nat × Nat)))} {b : Nat} {dst router : Nat × Nat × Nat} (hb : d.bank = [])
    (hd : p.dst.getD b (0, 0, 0) = dst) (hr : p.router.getD b (0, 0, 0) = router) (hp : p.acc = false) (hs : Serves d.s dst.1 dst.2.1) (hs' : Serves d.s router.1 router.2.1)
    (hn : dst.2.2 + 4 * p.dstWidth ≤ (d.s.ownedBanks dst.1 dst.2.1).length * 262144)
    (hn' : router.2.2 + 4 * (if p.choices then 2 * p.k else exN e) ≤ (d.s.ownedBanks router.1 router.2.1).length * 262144) :
    GoesOn d (d.gate e p a b).1 := by
  have g1 : GoesOn d (d.wordsOut dst 0 (List.replicate p.dstWidth 0)) := wordsOut_goes hs (by simpa using hn)
  generalize hd1 : d.wordsOut dst 0 (List.replicate p.dstWidth 0) = d1 at g1
  have b1 : d1.bank = [] := by rw [g1.1]; exact hb
  have g2 : GoesOn d1 (d1.lanesIn router (if p.choices then 2 * p.k else exN e)).1 :=
    lanesIn_goes b1 (serves_words g1.2 hs') (by rw [ownedBanks_words g1.2]; exact hn')
  generalize hd2 : d1.lanesIn router (if p.choices then 2 * p.k else exN e) = d2 at g2
  have g := goesOn_trans g1 g2
  have nan : ∀ c : Bool, GoesOn d (if c = true then d2.1.wordsOut dst 0 (List.replicate p.dstWidth 0x7FC00000) else d2.1) := by
    intro c
    split
    · exact goesOn_trans g (wordsOut_goes (serves_words g.2 hs) (by rw [ownedBanks_words g.2]; simpa using hn))
    · exact g
  unfold Doing.gate
  simp only [hd, hr, hp, hd1, hd2, Bool.false_eq_true, if_false]
  exact nan _

/-- The gate phase of one token whose gate goes on. -/
theorem gatePhase_goes {d : Doing} {key : DescKey} {inst : Option Nat} {first index : Nat} {work : Work} {p : ExpPlan} {e : List Byte} (ht : p.tokens = 1)
    (hg : GoesOn d (d.gate e p [] 0).1) (hh : d.halt = .go) : (d.gatePhase key inst first index work p e).halt = .go := by
  have hw : (d.gate e p [] 0).1.halt = .go := by rw [hg.1]; exact hh
  unfold Doing.gatePhase
  rw [ht]
  simp only [List.range_one, List.foldl_cons, List.foldl_nil, Doing.next]
  by_cases ho : (d.gate e p [] 0).1.on = true
  · simp only [ho, if_true]
    exact hw
  · simp only [ho]
    exact hw

end Sys2Proof.Machine
end

