-- ==== Sys2Proof/Tests/Slice0.lean ====
section
/-! SUPPORT. Tests: small states, the worked examples of the spec, an ill-formed command for each check of WellFormed, and for each statement with hypotheses the states and operands that meet them, clause by clause. -/

namespace Sys2Proof.Tests

open Sys2Proof Sys2Proof.Machine

set_option linter.unusedVariables false
set_option maxRecDepth 1000000
set_option Elab.async false

/-! Small states. -/

theorem eta2 {α β : Type} (x : α × β) : x = (x.1, x.2) := rfl
theorem some_getD {α : Type} {o : Option α} (d : α) (h : o.isSome = true) : o = some (o.getD d) := by cases o <;> simp_all
theorem eta3 {α β γ : Type} (x : α × β × γ) : x = (x.1, x.2.1, x.2.2) := rfl

/-- The reset state, its session number fixed, with some register fields set. -/
def st (l : List (Nat × Field × Nat)) : State := l.foldl (fun s x => s.setFld x.1 x.2.1 x.2.2) { State.reset with session := 7 }

/-- The reset state with Loupe disabled and some register fields set. -/
def quiet (l : List (Nat × Field × Nat)) : State := st ((Reg.LPE_CTL, Fld.LPE_CTL_enable, 0) :: l)

/-- A configuration image of one END record: version 7. -/
def endImage : List Byte :=
  let b : List Byte := leBytes 4 0x4746434E ++ leBytes 2 1 ++ leBytes 2 0 ++ leBytes 4 7 ++ leBytes 4 16 ++ List.replicate 16 0 ++ [15] ++ List.replicate 15 0
  b ++ leBytes 4 (crc32c b)

/-- A packet from node 9 to node 0. -/
def pk (opcode mclass addr aux : Nat) (payload : List Byte) : Packet :=
  sealPacket { dst := 0, src := 9, tc := 0, mclass := mclass, epoch := 0, dl := 0, opcode := opcode, length := 0, tag := 3, gen := 1, client := 5, inc := 0
               hops := 0, status := 0, rsv := 0, addr := addr, aux := aux, pcrc := 0, payload := payload }


/-- A descriptor of queue pair 9 of quadrant 1 with seq 5, of an opcode, with operand bytes from byte 8 on, in a phase. -/
def job (op : Nat) (operands : List Byte) (phase : Phase) : Desc :=
  { newDesc ⟨1, 9, 5⟩ (padTo 64 (BitVec.ofNat 8 op :: List.replicate 7 0 ++ operands)) with phase := phase, order := 1 }

/-- A state whose queue engine 1 is on and holds one descriptor. -/
def withJob (l : List (Nat × Field × Nat)) (d : Desc) : State :=
  { quiet ((Reg.QUE_CTL 1, Fld.QUE_CTL_enable, 1) :: l) with que := { Que.reset with descs := [d], order := 1 } }

/-- The line cache of a Setting of quadrant 0 given away, so that its reads do not allocate: where a line stands in it is a free value. -/
def noCache (n : Nat) : List (Nat × Field × Nat) := (List.range 16).map fun b => (Reg.BNK_BANK 0 n b, Fld.BNK_BANK_owner, 0)

/-- The fields that make slab 0 serve through the home agents, with Loupe still. -/
def servingFields : List (Nat × Field × Nat) :=
  [(Reg.LPE_CTL, Fld.LPE_CTL_enable, 0), (Reg.STK_SLAB 0 0, Fld.STK_SLAB_enable, 1), (Reg.STK_SLAB 0 0, Fld.STK_SLAB_state, 2)] ++
  noCache 0 ++ (List.range 4).flatMap fun q => [(Reg.STK_CTL q, Fld.STK_CTL_enable, 1), (Reg.COH_CTL q, Fld.COH_CTL_enable, 1), (Reg.QUE_CTL q, Fld.QUE_CTL_enable, 1), (Reg.SHR_CTL q, Fld.SHR_CTL_enable, 1)]

/-- A writable segment 2 of generation 4: the first 2 MiB of slab 0, its bitmap behind. -/
def seg2 : SegEnt := ⟨2, 0, 2 ^ 21, 0, 2 ^ 22, 0, 3, 4⟩

/-- The register map that these fields leave, written out; and the state of that map. -/
def poolRegs : SMap Word :=
  [(327680, 0), (16777216, 1), (17039360, 1597185), (17072128, 8388609), (17371136, 0), (17371144, 0),
   (17371152, 0), (17371160, 0), (17371168, 0), (17371176, 0), (17371184, 0), (17371192, 0),
   (17371200, 0), (17371208, 0), (17371216, 0), (17371224, 0), (17371232, 0), (17371240, 0),
   (17371248, 0), (17371256, 0), (17694720, 131072003), (17760256, 1), (25165824, 1), (25427968, 1597185),
   (26083328, 131072003), (26148864, 1), (33554432, 1), (33816576, 1597185), (34471936, 131072003), (34537472, 1),
   (41943040, 1), (42205184, 1597185), (42860544, 131072003), (42926080, 1)]
theorem poolRegs_are_the_fields : (st servingFields).regs = poolRegs := by decide +kernel
def poolSt : State := { State.reset with session := 7, regs := poolRegs }

/-- A state whose slab 0 serves, with one descriptor, and the bitmap line of seg2 for client 5 cached. -/
def poolJob (l : List (Nat × Field × Nat)) (d : Desc) : State :=
  let s : State := l.foldl (fun s x => s.setFld x.1 x.2.1 x.2.2) poolSt
  { s with que := { Que.reset with descs := [d], order := 1, bmc := [[], [⟨5, 2, 4, 0, 1 :: List.replicate 63 0, []⟩], [], []] } }

/-- Bytes of one granule of slab 0 put into the cells of a state, behind those it has. -/
def place (pa : Nat) (bs : List Byte) (s : State) : State :=
  match poolSt.rowAt pa with
  | none => s
  | some (q, r, j) =>
    let k := cellKey (8 * q + j) r (pa % 256)
    { s with pool := { s.pool with cells := s.pool.cells ++ ((List.range bs.length).map fun i => (k + i, bs.getD i 0)).filter fun c => c.2 != 0 } }

/-- A bucket whose first record is given. -/
def bucketOf (first : List Byte) : RegionBucket := ⟨padTo 128 first, false⟩

/-- A serving state whose region 5 has version 7. -/
def withRegion (l : List (Nat × Field × Nat)) (d : Desc) : State :=
  place ((poolJob [] d).recordAt 5 0) (regionBytes ⟨5, 7, true, 0xFFFF, 0, 0⟩) (poolJob ((Reg.SHR_RGN_ID 1, ⟨0, 64⟩, 5) :: l) d)

/-- A PUBLISH of region 5 that expects a version. -/
def pubJob (v : Nat) : Desc :=
  { job 7 (leBytes 8 5 ++ leBytes 4 v ++ leBytes 4 0 ++ leBytes 8 64 ++ leBytes 8 100) .started with snap := [seg2] }

/-- A FLUSH of line 1. -/
def flushJob : Desc := { job 5 (leBytes 8 64 ++ leBytes 8 64) .started with snap := [seg2] }

/-- A serving state whose Setting 2 holds line 1 as its owner. -/
def flushSt : State :=
  let s : State := poolJob [] flushJob
  { s with coh := { Coh.reset with dir := Coh.reset.dir.set ((s.homeOf 1).getD 0) [⟨1, 3, [some 2, none, none, none], false, false, none, 0⟩]
                                   caches := Coh.reset.caches.set 2 [⟨1, .m, List.replicate 64 7, 128, 0, 0⟩] } }

/-- A bank access of 32 bytes written. -/
def wr (tag : Fin 16) (oa : Nat) (x : Byte) : BankReq := ⟨tag, oa, false, .write (List.replicate 32 x), []⟩

/-- Bank 1 of Setting 3 given to an owner. -/
def bankSt (owner : Nat) (l : List (Nat × Field × Nat)) : State := quiet ((bankReg 193, Fld.BNK_BANK_owner, owner) :: l)

/-- A recipe image of some slots and one or more operations. -/
def imageOf (slots ops : List (List Byte)) : List Byte :=
  padTo 64 ([0x52, 0x45, 0x43, 0x50, 1, 0, BitVec.ofNat 8 slots.length, 0] ++ leBytes 2 ops.length ++ leBytes 2 4096 ++ [1, 2, 2, 0] ++ leBytes 2 0 ++ leBytes 2 576) ++
  slots.flatMap (padTo 32) ++ ops.flatMap (padTo 16)

/-- A home slot of 32 columns of FP32 at a window word; and a TENSOR slot of one row of 32 columns under binding 0. -/
def homeSlot (word : Nat) : List Byte := [2, 0, 0, 1] ++ leBytes 4 4 ++ leBytes 4 32 ++ List.replicate 12 0 ++ leBytes 2 word
def tensorSlot : List Byte := [3, 0, 0, 1] ++ leBytes 4 4 ++ leBytes 4 32 ++ leBytes 4 128

/-- An operation: code, destination, sources and parameters. -/
def opOf (code dst s0 s1 : Byte) (params : List Byte) : List Byte := [code, 0, 0, 0, dst, s0, s1, 0] ++ params

/-- The instance in flight, and the run of a recipe with home slots 0 to 2 and TENSOR slot 3, its binding 0 in space 1. -/
def inst0 : Inst := { n := 0, op := 0, outer := 0, inner := 0, layer := 0, begun := false, row := 0, done := false, waits := [], nt := 0, status := 0 }
def runOf (ops : List (List Byte)) (insts : List Inst) : Run :=
  { key := ⟨1, 9, 5⟩, image := imageOf [homeSlot 0, homeSlot 16, homeSlot 32, tensorSlot] ops, block := padTo 544 (leBytes 8 (2 ^ 48 + 4096))
    pc := 0, loops := [], next := 1, insts := insts, failed := false, status := 0, detail := 0, bytes := 0, tokens := 0, aborted := [] }

/-- The descriptor of the run, with a batch of one. -/
def runJob : Desc := job 16 (leBytes 2 0 ++ leBytes 2 1) .started

/-- A state with the run in progress, and the link to the companion ACTIVE. -/
def runSt (ops : List (List Byte)) : State :=
  let s : State := withJob [(Reg.ILC_STATUS 0, Fld.ILC_STATUS_state, 3)] runJob
  { s with rcp := { s.rcp with run := some (runOf ops [inst0]) } }

/-- The first 128 lines of the pool, all zero, in the line cache of Setting 0. -/
def zeroLines (s : State) : State :=
  { s with coh := { s.coh with caches := s.coh.caches.set 0 ((List.range 128).map fun i => ⟨i, .s, List.replicate 64 0, 0, i, 0⟩) } }

/-- A RECIPE_RUN of slot 0 with its binding block in companion memory, its image among those lines; its states before, and its reads of the image. -/
def runIssued : Desc := job 16 (leBytes 2 0 ++ leBytes 2 0 ++ leBytes 4 0 ++ leBytes 8 (2 ^ 48 + 4096)) .issued
def runWait : State := zeroLines (poolJob [(Reg.ILC_STATUS 0, Fld.ILC_STATUS_state, 3), (Reg.RCP_VALID 0 0, ⟨0, 64⟩, 1)] runIssued)
def runRead : State × Got := (blockAsked runWait ⟨1, 9, 5⟩ runIssued).poolRead noEnv .lineCache [1, 9, 5, 9] 0 8192
def runWait2 : State := zeroLines (poolJob [(Reg.RCP_CTL 1, Fld.RCP_CTL_enable, 1)] { runIssued with phase := .started })
def runRead2 : State × Got := runWait2.poolRead noEnv .lineCache [1, 9, 5, 9] 0 8192
def gotData : Got → List Byte
  | .ok d _ _ => d
  | _ => []
def gotRest : Got → Option (Bool × List Nat)
  | .ok _ b ids => some (b, ids)
  | _ => none
theorem got_ok {s : State} {g : Got} {b : Bool} {ids : List Nat} {x : State × Got} (h : x = (s, g)) (h2 : gotRest g = some (b, ids)) :
    x = (s, .ok (gotData g) b ids) := by
  subst h
  cases g <;> simp_all [gotRest, gotData]

/-- That image, whose recipe asks for no bank, refuses no run. -/
theorem runRead_runs : (runRead.1.noteRead ⟨1, 9, 5⟩ false).runRefused runIssued (recipeOf (gotData runRead.2)) (blockOf runIssued noEnv) = false := by
  have h : (recipeOf (gotData runRead.2)).minM = 0 := by decide +kernel
  unfold State.runRefused
  simp only [h, Nat.not_lt_zero, decide_false]
  decide +kernel

/-- A MATMUL of BF16: one weight row of 16 columns in each Setting, and one token. -/
def matRun : Run :=
  { runOf [] [inst0] with
    image := imageOf [[1, 1, 0, 1] ++ leBytes 4 32 ++ leBytes 4 16 ++ leBytes 4 32, homeSlot 1200, [2, 1, 1, 1] ++ leBytes 4 4 ++ leBytes 4 16 ++ List.replicate 12 0 ++ leBytes 2 1300] [opOf 1 1 0 2 []]
    block := padTo 544 [] }
def matDesc : Desc := { runJob with snap := [seg2] }
def facetJob : FacetJob :=
  { inst := 0, st := 0, f := 0, fill := false, blocks := [0], rb := 0, sweep := 0, tile := 0, tok := 0, loaded := 0, slots := [], acc := [0], full := false }
def matSt (jobs : List FacetJob) : State :=
  let s : State := poolJob [] matDesc
  { s with rcp := { s.rcp with run := some matRun, jobs := jobs } }

/-- A sum of one Setting's partial, of instance 0. -/
def sum0 : Sum :=
  { inst := 0, id := 0, dest := 0, moving := [(9, [0x3F800000])], expect := [0, 1, 0, 0], stage := [none, none, none, none], joined := [], total := none
    fin := .elems 0 0 false [] }

/-- An expert-table entry of 2 experts, H = I = 512, FP8 activations and FP4 weights, with its placement table at 4096. -/
def expEntry : List Byte :=
  leBytes 2 2 ++ [0, 0] ++ leBytes 2 0 ++ [1, 1] ++ leBytes 2 512 ++ leBytes 2 512 ++ [4, 4, 8, 0, 0, 1] ++ leBytes 2 0 ++ leBytes 4 0 ++ leBytes 8 4096 ++ List.replicate 32 0
/-- A run whose operation is an EXPERT of one choice over home rows, with its entry at the start of slab 0. -/
def expRun : Run :=
  { runOf [] [inst0] with
    image := imageOf [[2, 1, 0, 1] ++ leBytes 4 4 ++ leBytes 4 512, [2, 0, 0, 1] ++ leBytes 4 4 ++ leBytes 4 512, [2, 0, 0, 1] ++ leBytes 4 4 ++ leBytes 4 32, [4, 0, 0, 1] ++ leBytes 4 4 ++ leBytes 4 8192] [opOf 13 1 0 2 [1, 3, 0, 0, 1, 1]]
    block := padTo 544 [] }
def expSt : State :=
  let s : State := place 0 expEntry (poolJob [] matDesc)
  { s with rcp := { s.rcp with run := some expRun } }

/-- An expert instance of an entry in a phase, of instance 0 or of a sub-batch. -/
def expOf (inst : Option Nat) (entry : List Byte) (phase : Nat) : Expert :=
  { key := ⟨1, 9, 5⟩, inst := inst, first := 0, work := noWork, phase := phase, index := 0, entry := entry
    plan := { tokens := 0, src := [], dst := [], router := [], srcFmt := 1, srcWidth := 512, dstWidth := 512, routerWidth := 32, k := 1, choices := true
              acc := false, scratch := 0, scratchBytes := 0, primRing := 0, primSlots := 0, fillRing := 0, fillSlots := 0 }
    cands := [], placement := [], failed := [], pairs := [], groups := [], spills := [], askedNt := 0, sharedA := false, closed := false }
def expIn (x : Expert) (s : State) : State := { s with exd := { s.exd with work := some x } }

/-- A state whose dispatch unit has an admitted instance; and one of a batch of experts of no rows. -/
def expAdmit : Expert := { expOf (some 0) expEntry 1 with cands := [[some (1, 0x3F800000)]] }
def expAdmitSt : State := expIn expAdmit (place 4096 (List.replicate 32 0 ++ leBytes 8 (2 ^ 63)) (poolJob [] matDesc))
def batchJob (first : Nat) : Desc := { job 17 (leBytes 2 0 ++ leBytes 2 512 ++ [0, 1, 1, 0]) .started with progress := first, snap := [seg2] }
def batchSt : State := place 0 expEntry (poolJob [(Reg.EXD_CTL 1, Fld.EXD_CTL_enable, 1)] (batchJob 0))

/-- An ATOMIC that swaps 77 into line 1 of slab 0, and the states of its check, its recall, its read and its write. -/
def atJob : Desc := { job 3 (leBytes 8 64 ++ [3] ++ List.replicate 7 0 ++ leBytes 8 77) .started with snap := [seg2] }
def atChecked : State := ((poolJob [] atJob).checkTile ⟨1, 9, 5⟩ 257 ⟨64, 8, 1, 0, true⟩).1
def atServed : State × Granted := (atChecked.serve noEnv ⟨.agent 15, 0, .recall, 1, 0, []⟩).getD (st [], ⟨.i, none, 0, false, []⟩)
def atRead : State × List Byte × PoolSeen := atServed.1.readPool [] 64 8
def atWritten : State × PoolSeen × List Nat := atRead.1.writePool [] 64 (leBytes 8 77) true

/-- The record of region 5 with version 7; a serving state without it, or with it and a PUBLISH of a version; its bucket read, and a record written. -/
def rg7 : List Byte := regionBytes ⟨5, 7, true, 0xFFFF, 0, 0⟩
def rgSt : Option Nat → State
  | none => poolJob [(Reg.SHR_RGN_ID 1, ⟨0, 64⟩, 5)] (job 0 [] .started)
  | some v => withRegion [] (if v = 0 then job 0 [] .started else pubJob v)
def rgRead (v : Option Nat) : State := ((rgSt v).bucket noEnv 5).1
def rgPut (v : Option Nat) (r : Region) (both : Bool) : State × PoolSeen × List Nat :=
  ((rgRead v).writeRegion noEnv ((rgSt v).recordAt 5 0 / 64) ((bucketOf (if v.isNone then [] else rg7)).lineWith 0 r) both).getD (st [], ⟨false, false⟩, [])

/-- The Facets of every quadrant enabled. -/
def facOn (s : State) : State := (List.range 4).foldl (fun s q => s.setFld (Reg.FAC_CTL q) Fld.FAC_CTL_enable 1) s

/-- The first tile of that MATMUL read by the decoder of Setting 0. -/
def matTile : Doing × List Byte := tileFetch (matSt [facetJob]) noEnv 0 matRun inst0 matDesc (matShape matRun.recipe (matRun.opOf inst0) 1) 0 0

/-- The fill contexts of every quadrant free to run. -/
def fillOn : List (Nat × Field × Nat) := (List.range 4).map fun q => (Reg.FAC_CTL q, Fld.FAC_CTL_fill, 1)

/-- The entry that this EXPERT reads, and the placement table of that admission. -/
def expEntered : Doing × List Byte := (Doing.start expSt noEnv).entryOf noEnv ⟨1, 9, 5⟩ (expertIndex expRun inst0)
def expPlaced : Doing × List Byte := (Doing.start expAdmitSt noEnv).paRead noEnv ⟨1, 9, 5⟩ .lineCache (exPlacement expEntry) (32 * exN expEntry) 1

/-- The batch of experts as it issues, with its entry read, where Facet 7 of Setting 1 has two banks and no Facet less; and a batch of one row in companion memory begun. -/
def narrow : List (Nat × Field × Nat) := (List.range 4).map fun i => (Reg.BNK_BANK 0 1 (60 + i), Fld.BNK_BANK_owner, 0)
theorem two_banks {s : State} {st f : Nat} (hf : f < 8) (h0 : s.bankHolder (st * 64 + (16 + 6 * f)) = f) (h1 : s.bankHolder (st * 64 + (17 + 6 * f)) = f) :
    2 ≤ (s.ownedBanks st f).length := by
  have hs : [16 + 6 * f, 17 + 6 * f].Sublist (List.range 64) := by interval_cases f <;> decide
  have h := (hs.filterMap fun b => if s.bankHolder (st * 64 + b) == f then some (st * 64 + b) else none).length_le
  simpa [State.ownedBanks, h0, h1] using h
theorem min_is {l : List Nat} {f : Nat → Nat} {m x : Nat} (a : Nat) (h : ∀ g ∈ l, m ≤ f g) (hx : x ∈ l) (hm : f x = m) (ha : m ≤ a) :
    l.foldl (fun a g => min a (f g)) a = m := by
  induction l generalizing a with
  | nil => cases hx
  | cons g t ih =>
    have low : ∀ (t : List Nat) (b : Nat), b = m → (∀ g ∈ t, m ≤ f g) → t.foldl (fun a g => min a (f g)) b = m := by
      intro t
      induction t with
      | nil => intro b hb _; simpa using hb
      | cons y u ihu =>
        intro b hb hu
        have := hu y (by simp)
        exact ihu _ (by show min b (f y) = m; omega) fun z hz => hu z (by simp [hz])
    have hg := h g (by simp)
    rcases List.mem_cons.mp hx with rfl | hx
    · exact low t _ (by show min a (f x) = m; omega) fun z hz => h z (by simp [hz])
    · exact ih _ (fun z hz => h z (by simp [hz])) hx (by show m ≤ min a (f g); omega)
theorem narrow_shape {s : State} {d : Desc} {e : List Byte}
    (h : ∀ g : Fin 256, s.bankHolder (g / 8 * 64 + (16 + 6 * (g % 8))) = g.val % 8 ∧ s.bankHolder (g / 8 * 64 + (17 + 6 * (g % 8))) = g.val % 8)
    (h1 : (s.ownedBanks 1 7).length = 2) :
    s.batchShape d e =
      ⟨if d.u 12 1 = 0 then 2 * d.u 10 2 else rowBytes .e4m3s (d.u 10 2), if d.u 13 1 = 0 then roundUp 32 (4 * exN e) else 64,
        92160 / ((if d.u 12 1 = 0 then 2 * d.u 10 2 else rowBytes .e4m3s (d.u 10 2)) + 4 * d.u 10 2 + if d.u 13 1 = 0 then roundUp 32 (4 * exN e) else 64)⟩ := by
  have hm := min_is (l := List.range 256) (f := fun g => (s.ownedBanks (g / 8) (g % 8)).length) (m := 2) (x := 15) 64
    (fun g hg => two_banks (Nat.mod_lt _ (by omega)) (h ⟨g, List.mem_range.mp hg⟩).1 (h ⟨g, List.mem_range.mp hg⟩).2) (by decide) h1 (by omega)
  simp only [State.batchShape, hm]

def batchIssuing : Desc := { batchJob 0 with phase := .issued }
def batchIssueSt : State :=
  let s : State := place 0 expEntry (poolJob ((Reg.EXD_CTL 1, Fld.EXD_CTL_enable, 1) :: narrow) (batchJob 0))
  { s with que := { s.que with descs := [batchIssuing] } }
def batchEntered : Doing × List Byte := (Doing.start batchIssueSt noEnv).entryOf noEnv ⟨1, 9, 5⟩ 0
theorem batchEntered_holds : (batchEntered.1.s.batchShape batchIssuing batchEntered.2).perFacet ≠ 0 := by
  rw [narrow_shape (by decide +kernel) (by decide +kernel)]
  decide +kernel
def batchOne : Desc :=
  { job 17 (leBytes 2 1 ++ leBytes 2 512 ++ [0, 1, 1, 0] ++ leBytes 8 (2 ^ 48) ++ leBytes 8 (2 ^ 48 + 4096) ++ leBytes 8 (2 ^ 48 + 8192)) .started with snap := [seg2] }
def batchOneSt : State := place 0 expEntry (poolJob ([(Reg.EXD_CTL 1, Fld.EXD_CTL_enable, 1), (Reg.ILC_STATUS 0, Fld.ILC_STATUS_state, 3)] ++ narrow) batchOne)
def batchFirst : Doing := Doing.start { batchOneSt with exd := { batchOneSt.exd with batchPairs := 0, batchBytes := 0 } } noEnv
def batchBegun : Doing := batchFirst.subBatch noEnv batchOne 0
def batchPlan : ExpPlan := exBatchPlan batchOne ⟨1024, 64, 29⟩ 1
def batchRowsIn : Doing := (batchFirst.entryOf noEnv batchOne.key (batchOne.u 4 2)).1.batchRows noEnv batchOne ⟨1024, 64, 29⟩ 0 1
theorem batchBegun_goes : batchBegun.halt = .go := by
  have hs : (batchFirst.entryOf noEnv batchOne.key (batchOne.u 4 2)).1.s.batchShape batchOne (batchFirst.entryOf noEnv batchOne.key (batchOne.u 4 2)).2 = ⟨1024, 64, 29⟩ := by
    rw [narrow_shape (by decide +kernel) (by decide +kernel)]
    decide +kernel
  have ho : (batchFirst.entryOf noEnv batchOne.key (batchOne.u 4 2)).1.on = true := by decide +kernel
  have hr : batchRowsIn.on = true ∧ batchRowsIn.halt = .go ∧ batchRowsIn.bank = [] ∧ Serves batchRowsIn.s 0 0 ∧ 435200 + 1024 ≤ (batchRowsIn.s.ownedBanks 0 0).length * 262144 := by decide +kernel
  have hp : batchPlan.tokens = 1 ∧ batchPlan.acc = false ∧ batchPlan.dst.getD 0 (0, 0, 0) = (0, 0, 433152) ∧ batchPlan.router.getD 0 (0, 0, 0) = (0, 0, 435200) ∧
      batchPlan.dstWidth = 512 ∧ batchPlan.choices = true ∧ batchPlan.k = 1 := by decide +kernel
  have hg := gate_goes (d := batchRowsIn) (e := (batchFirst.entryOf noEnv batchOne.key (batchOne.u 4 2)).2) (p := batchPlan) (a := []) (b := 0) hr.2.2.1 hp.2.2.1 hp.2.2.2.1 hp.2.1
    hr.2.2.2.1 hr.2.2.2.1 (by rw [hp.2.2.2.2.1]; have := hr.2.2.2.2; simp only; omega) (by rw [hp.2.2.2.2.2.1, hp.2.2.2.2.2.2]; have := hr.2.2.2.2; simp only [if_true]; omega)
  have hn : min (256 * 29) (batchOne.u 8 2 - 0) = 1 := by decide +kernel
  have hb : (batchFirst.entryOf noEnv batchOne.key (batchOne.u 4 2)).1.s.expertBad (batchOne.u 4 2) (batchFirst.entryOf noEnv batchOne.key (batchOne.u 4 2)).2 batchPlan = false := by
    decide +kernel
  have e1 : exBatchPlan batchOne ⟨1024, 64, 29⟩ 1 = batchPlan := rfl
  have e2 : (batchFirst.entryOf noEnv batchOne.key (batchOne.u 4 2)).1.batchRows noEnv batchOne ⟨1024, 64, 29⟩ 0 1 = batchRowsIn := rfl
  unfold batchBegun Doing.subBatch
  simp only [Doing.next, ho, hs, if_true, hn, e1, e2, hb, hr.1, Nat.one_ne_zero, decide_false, Bool.or_self, Bool.false_eq_true, if_false]
  exact gatePhase_goes hp.1 hg hr.2.1

/-- A page table of one layer, one KV head of 32 elements in E4M3 and one page, at address 0 with its entry behind it. -/
def kvTable : PageTable := ⟨1, 1, 32, .e4m3s, 0, 0, 1⟩
def kvHead (entry : Nat) : List Byte := padTo 64 ([1, 0, 1, 1, 4, 0, 0, 0, 0, 0, 0, 0, 1]) ++ leBytes 8 entry

/-- A KV_APPEND of no position under it; its states before, and after its page table is read. -/
def kvJob (ph : Phase) : Desc := { job 19 (leBytes 8 0 ++ leBytes 8 (2 ^ 48)) ph with snap := [seg2] }
def kvSt : State := place 0 (kvHead 256) (poolJob [] (kvJob .started))
def kvPlanned : Doing × Option (PageTable × List Nat) := (Doing.start kvSt noEnv).appendPlan noEnv (kvJob .started)
def descIn (s : State) : Desc := (s.desc ⟨1, 9, 5⟩).getD (newDesc ⟨1, 9, 5⟩ [])

/-- An ATTN_STEP of n sequences of one query head each, its list, and its states before and after sequence 0. -/
def stepJob (n : Nat) (ph : Phase) : Desc :=
  { job 18 (leBytes 8 (2 ^ 48) ++ leBytes 8 (2 ^ 48 + 8192) ++ leBytes 8 n ++ leBytes 8 1 ++ leBytes 8 (2 ^ 48 + 4096)) ph with snap := [seg2] }
def seqWork (n : Nat) : AttnWork := ⟨⟨1, 9, 5⟩, (List.range n).flatMap (fun _ => List.replicate 14 0 ++ leBytes 18 1), [], 0, 0⟩
def seqSt (n : Nat) : State :=
  { place 0 (kvHead 0) (poolJob [(Reg.ILC_STATUS 0, Fld.ILC_STATUS_state, 3)] (stepJob n .started)) with attn := some (seqWork n) }
def seqDone (n : Nat) : Doing × Nat × Nat := (Doing.start (seqSt n) noEnv).sequence noEnv (stepJob n .started) (seqWork n).list 0

/-- A run whose operation is an ATTN of one query head under that page table. -/
def attnRun : Run :=
  { runOf [] [inst0] with
    image := imageOf [homeSlot 0, [2, 0, 0, 1] ++ leBytes 4 4 ++ leBytes 4 64 ++ List.replicate 12 0 ++ leBytes 2 16, homeSlot 32] [opOf 12 2 0 1 [0, 0, 0, 0, 1, 4]]
    block := padTo 544 [] }
def attnSt : State := { place 0 (kvHead 0) (poolJob [] matDesc) with rcp := { State.reset.rcp with run := some attnRun } }
def attnWorked : Doing := (Doing.start attnSt noEnv).attnRow noEnv attnRun inst0 matDesc 0

/-- A spill packet from node 9 of a kind and class, group 0, for entry 0, expert 0, with one pair or row 0. -/
def spillPkt (kind : Byte) (mclass : Nat) (rowLen : Nat) (data : List Byte) : Packet :=
  pk opSpill mclass 0 0 ([0, 0, kind, 0] ++ leBytes 4 0 ++ leBytes 2 (if kind = 0 then 1 else 0) ++ leBytes 2 0 ++ leBytes 4 rowLen ++ List.replicate 16 0 ++ data)
/-- A spilled group of one pair in a state, and an instance that has spilled it, in a phase. -/
def spillG (state : Nat) : SpillOut := ⟨0, 0, [(0, 0x3F800000)], state, 0, []⟩
def spillX (phase state : Nat) : Expert :=
  { expOf (some 0) expEntry phase with
    spills := [spillG state]
    plan := { (expOf none [] 0).plan with tokens := 1, src := [(0, 0, 0)], dst := [(0, 1, 0)] } }
def spillSt (x : Expert) : State := expIn x (poolJob [(Reg.EXD_CTL 0, Fld.EXD_CTL_spill_serve, 1), (Reg.EXD_SPILL_CFG 0, Fld.EXD_SPILL_CFG_max_pairs, 64)] matDesc)
/-- An arrival that answers a state has taken it. -/
theorem spillIn_some {s : State} {port : Nat} {p : Packet} {kind : Nat} (h : (s.spillIn port p kind).1.isSome = true) :
    s.spillIn port p kind = (some (s.spillIn port p kind).2, (s.spillIn port p kind).2) := by
  unfold State.spillIn at h ⊢
  split <;> simp_all
  split <;> simp_all

/-- Such an instance with a second group that is unanswered. -/
def spillTwo : Expert := { spillX 3 0 with spills := [spillG 0, { spillG 0 with id := 1 }] }
/-- What an arrival leaves of a state; the server with its entry at 0; and a group it has accepted. -/
def spillIn (x : Expert) (p : Packet) (kind : Nat) : State := ((spillSt x).spillIn 0 p kind).2
def spillAsk : Packet := spillPkt 0 2 1024 []
def spillServer : State := place 4096 (leBytes 8 (2 ^ 63)) (place 0 (expEntry.take 17 ++ [1] ++ expEntry.drop 18) (spillSt (expOf none [] 6)))
def spillAsked : State := (spillServer.spillIn 0 spillAsk 0).2
def spillEntry : Doing × List Byte := (Doing.start spillAsked noEnv).paRead noEnv ⟨0, 0, 0⟩ .lineCache 0 64 9
def spillPlaced : Doing × List Byte := spillEntry.1.paRead noEnv ⟨0, 0, 0⟩ .lineCache 4096 64 9
def spillV : SpillServe := ⟨spillAsk, 0, expEntry, 0, 0, []⟩
def spillServing (v : SpillServe) : State := { spillSt { expOf none [] 6 with closed := true } with exd := { State.reset.exd with serves := [v] } }
def spillNone : SpillServe := { spillV with req := pk opSpill 2 0 0 (List.replicate 32 0) }

/-- A state with the part of group 2 given; one that rebuilds position 3 at row 0, its read, and one at the last row, where position 3 is the spare's. -/
def withGroup (l : List (Nat × Field × Nat)) (g : ClaspGroup) : State := (st l).setGroup 2 g
def rebuilding : List (Nat × Field × Nat) :=
  [(Reg.LPE_CTL, Fld.LPE_CTL_enable, 0), (Reg.STK_CTL 0, Fld.STK_CTL_pool_mode, 1), (Reg.CFG_BOOT_STATUS, Fld.CFG_BOOT_STATUS_done_step, 13),
   (Reg.CLS_STATUS 2, Fld.CLS_STATUS_state, 2), (Reg.CLS_STATUS 2, Fld.CLS_STATUS_failed, 8)]
def rebuildSt : State := withGroup rebuilding { ClaspGroup.reset with task := .rebuild, spareOf := some 3 }
def rebuilt : State × List Byte × ReadVia := rebuildSt.readRow [] 2 0 3 allUnits
def lastRowSt : State := (withGroup rebuilding { ClaspGroup.reset with task := .rebuild, spareOf := some (sparePos (rowCount - 1)) }).setWatermark 2 (rowCount - 1)

/-- A state whose slab 0 serves, with some messages on the mesh; line 1 in the cache of Setting 2; requests of Setting 2 for it. -/
def cohSt (msgs : List MeshMsg) : State :=
  let s : State := poolJob (noCache 2) (job 0 [] .started)
  { s with coh := { Coh.reset with msgs := msgs } }
def lc2 (state : LineState) : LcLine := ⟨1, state, List.replicate 64 7, 128, 0, 0⟩
def cohReq (op : HomeOp) : CohReq := ⟨.setting 2, 0, op, 1, 0, []⟩
def cohWr : CohReq := ⟨.setting 2, 0, .wrInv, 1, 2 ^ 64 - 1, List.replicate 64 7⟩
def cohRead : State × List Byte × PoolSeen := (atHome (cohSt [.req (cohReq .rdShared)]) (cohReq .rdShared) 0).stackLine [] 1
def cohOwn : State × List Byte × PoolSeen :=
  (ownedBy (atHome (cohSt [.req (cohReq .rdOwn)]) (cohReq .rdOwn) 0) 0 1 Coh.reset.born (.setting 2)).stackLine [] 1
def cohCur : State × List Byte × PoolSeen := (atHome (cohSt [.req (cohReq .rdCur)]) (cohReq .rdCur) 0).stackLine [] 1
def cohWrote : State × PoolSeen × List Nat := (atHome (cohSt [.req cohWr]) cohWr 0).writePool [] 64 (List.replicate 64 7) false
def cohHeld : State :=
  let s : State := cohSt []
  { s with coh := { s.coh with msgs := [.req (cohReq .upgrade)], dir := Coh.reset.dir.set 0 [⟨1, 1, [some 2, none, none, none], false, false, none, 0⟩] } }
def cohEvict (d : Option (List Byte)) : State :=
  let s : State := cohSt []
  { s with coh := { s.coh with msgs := [.evict 2 1 d], dir := Coh.reset.dir.set 0 [⟨1, 3, [some 2, none, none, none], false, false, none, 0⟩] } }
def cohEvicted : State × PoolSeen × List Nat :=
  ((offMesh (cohEvict (some (List.replicate 64 7))) (.evict 2 1 (some (List.replicate 64 7)))).countLookup 0).writePool [] 64 (List.replicate 64 7) false

/-- Such a state with the link ACTIVE and agent 3 active. -/
def ilcSt : State := poolJob [(Reg.ILC_STATUS 0, Fld.ILC_STATUS_state, 3), (Reg.ILC_AGENT 0 3, Fld.ILC_AGENT_state, 1)] (job 0 [] .started)

/-- Setting 2 holds line 1 in M, with a snoop of it on the mesh; a transaction that waits for Setting 2, and the answer on the mesh. -/
def snoopSt (kind : SnoopKind) : State :=
  let s : State := cohSt [.snoop 2 1 kind]
  { s with coh := { s.coh with caches := Coh.reset.caches.set 2 [lc2 .m] } }
def snoopTxn : Txn :=
  { req := cohReq .rdShared, kind := .shr, waiting := [(2, 0)], heldBack := [], got := none, forwarded := false, wbWait := [], evicted := [], dropped := false }
def answerSt (a : Answer) : State :=
  let s : State := cohSt [.answer 2 1 a]
  { s with coh := { s.coh with txns := [snoopTxn] } }

/-- An Ilcen link in a state; and a loss event of one line. -/
def linkSt (state : Nat) : State := quiet [(Reg.ILC_STATUS 0, Fld.ILC_STATUS_state, state)]
def lossOf (walked : Bool) (event : Nat) : Loss := ⟨[3], event, 9, [77], [3], walked, 0, 0⟩

/-- Link 3 in a state with some register fields set and its buffers given; with its spare lane 2 beside lanes 0 and 1; frames, prongs and a HELLO for it. -/
def lnkSt (state : Nat) (l : List (Nat × Field × Nat)) (k : Link) : State :=
  let s : State := quiet ((Reg.LNK_STATUS 3, Fld.LNK_STATUS_state, state) :: l)
  { s with links := s.links.set 3 k, boot := { s.boot with idle := false } }
def spareSt (state : Nat) (k : Link) : State :=
  lnkSt state [(Reg.LNK_LANE 3 0, Fld.LNK_LANE_role, 1), (Reg.LNK_LANE 3 1, Fld.LNK_LANE_role, 1), (Reg.LNK_LANE 3 2, Fld.LNK_LANE_role, 2),
               (Reg.LNK_STATUS 3, Fld.LNK_STATUS_slot1, 1), (Reg.LNK_STATUS 3, Fld.LNK_STATUS_spare, 2), (Reg.LNK_CTL 3, Fld.LNK_CTL_spare_en, 1),
               (Reg.LNK_CNT3 3, Fld.LNK_CNT3_window, 2000)] k
def frame0 : Frame := sealFrame { ctrlFrame 0 [] with ctrl := false }
def prong0 (cmd : ProngCmd) (lane : Nat) : Prong := ⟨cmd, lane, 0, 9, 0, true⟩
def helloFrame : Frame := sealFrame (ctrlFrame 1 [1])
def sendSt : State :=
  let s : State := lnkSt 6 [(Reg.LNK_VC 3 0, Fld.LNK_VC_credits, 40)] { Link.reset with tx := some 24 }
  s.setInq 24 [{ hdr := pk 1 0 0 0 [], got := headerBytes (pk 1 0 0 0 []), out := some 3, dl := 0, sent := 0, started := true, deferred := false, closeNt := none, fills := [32], taken := 0, port := 32 }]
def readySt : State :=
  let s : State := lnkSt 6 [(Reg.LNK_VC 3 0, Fld.LNK_VC_credits, 40)] { Link.reset with peerBuf := List.replicate 8 200 }
  s.setInq 24 [{ hdr := pk 1 0 0 0 [], got := headerBytes (pk 1 0 0 0 []), out := some 3, dl := 0, sent := 0, started := false, deferred := false, closeNt := none, fills := [32], taken := 0, port := 32 }]
def lastExchange : State := lnkSt 5 [] { Link.reset with asked := some (15, 5), exchanges := List.replicate 15 (0, 1, 2, 3) }

/-- Router states: a packet at the head of an input channel of link 4, one for another node with some hops, a router that is on with version 0. -/
def inPk (payload : List Byte) : InPkt :=
  { hdr := pk 1 0 0 0 payload, got := packetBytes (pk 1 0 0 0 payload), out := none, dl := 0, sent := 0, started := false, deferred := false, closeNt := none, fills := [32], taken := 0, port := 4 }
def inFar (hops : Nat) : InPkt := { inPk [] with hdr := { (inPk []).hdr with dst := 6, hops := hops } }
def routeSt (l : List (Nat × Field × Nat)) (x : InPkt) : State :=
  let s : State := quiet ([(Reg.RTE_CTL, Fld.RTE_CTL_enable, 1), (Reg.RTE_VER, Fld.RTE_VER_valid0, 1)] ++ l)
  { s with boot := { s.boot with routerOn := true }, router := { s.router with inputs := [(inKey 4 0, [x])] } }

/-- A tag in use for a purpose, of a READ of 64 bytes of node 9. -/
def tagOf (why : Purpose) : Tag := ⟨3, 1, why, { pk opRead 0 0 64 [] with dst := 9 }, 0, 0, State.reset.reg Reg.RTE_TIMING⟩

/-- Endpoint states: client 5 with its segment, line 1 read and written; an open channel; fetches, operands, acknowledgements and sends that wait. -/
def fabSt : State :=
  poolJob ([(0, 0), (1, 2 ^ 21), (2, 0), (3, 2 ^ 22), (4, 0), (5, 3), (6, 4)].map fun x => (Reg.SEG_ENTRY 1 1 2 x.1, ⟨0, 64⟩, x.2)) runIssued
def pagesRead : State × PageCheck := (fabSt.takeEjected 4 (pk opRead 0 64 64 [])).packetPages noEnv (pk opRead 0 64 64 []) seg2 ⟨64, 64, 1, 0, false⟩
def dataRead : State × Got := pagesRead.1.poolRead noEnv .lineCache [9, 3, 1, 8] 64 64
def pagesWrote : State × PageCheck :=
  (fabSt.takeEjected 4 (pk opWrite 2 64 0 (List.replicate 64 7))).packetPages noEnv (pk opWrite 2 64 0 (List.replicate 64 7)) seg2 ⟨64, 64, 1, 0, true⟩
def dataWrote : State × Got := pagesWrote.1.poolWrite noEnv .lineCache 64 (List.replicate 64 7)
def actPk : Packet := pk opActivation 2 0 0 (leBytes 2 7 ++ leBytes 2 0 ++ leBytes 4 0 ++ [1, 0, 0, 0] ++ leBytes 4 32 ++ List.replicate 32 5)
def actSt : State := { fabSt with rcp := { fabSt.rcp with channels := [⟨7, ⟨1, 9, 5⟩, 0, 1, 32, [(0, 0, 0)], []⟩] } }
def actWrote : Doing := (Doing.look ⟨actSt.takeEjected 4 actPk, [], .go, [], []⟩ 0 0 0 32).put 0 0 0 (List.replicate 32 5)
def fetchSt : State := { fabSt with router := { fabSt.router with tags := [tagOf (.fetch 1 9 5 1)] }, que := { fabSt.que with fetches := [⟨1, 9, 5, 1, none⟩] } }
def operandSt : State := { fabSt with router := { fabSt.router with tags := [tagOf (.operand 1 9 5 2)] } }
def ackSt (why : Purpose) (op : Nat) : State :=
  { fabSt with router := { fabSt.router with tags := [{ tagOf why with pkt := { pk op 2 0 0 [1] with dst := 9 } }] } }
def sendingSt : State :=
  let s : State := ackSt (.send 1 0 0) opActivation
  { s with rcp := { s.rcp with run := some (runOf [] [inst0]), sends := [⟨0, 0, pk opActivation 2 0 0 [], some 0, 0, false⟩] } }

/-- A paired node in a role, its partner node 9; messages of the partner; a handover at its end; a range of the mirror with link 23 ACTIVE. -/
def pairSt (role : Nat) (l : List (Nat × Field × Nat)) : State :=
  let s : State := quiet ([(Reg.PAI_CTL, Fld.PAI_CTL_enable, 1), (Reg.PAI_CTL, Fld.PAI_CTL_partner, 9), (Reg.PAI_STATUS, Fld.PAI_STATUS_role, role), (Reg.CFG_BOOT_STATUS, Fld.CFG_BOOT_STATUS_done_step, 13)] ++ l)
  { s with pins := { s.pins with pwrok := true, perstN := true } }
/-- A paired node without a queue pair whose journal a takeover would walk. -/
def lonely : State := { pairSt 5 [] with pair := { (pairSt 5 []).pair with takeover := some 0 } }
theorem noJournals : (lonely.pairedQps.flatMap fun k => (lonely.journalFrom k.1 k.2).map fun x => (k, x)) = [] := by
  have h : ∀ w : Fin 64, lonely.reg (Reg.PAI_CLIENT w.val) = 0 := by decide +kernel
  have hc : ∀ (q : Quad) (j : Fin 1024), clientOf q.val j.val / 64 < 64 := by intro q j; simp [clientOf]; omega
  have hp : ∀ (q : Quad) (j : Fin 1024), lonely.paired (clientOf q.val j.val) = false := by
    intro q j
    simp [State.paired, h ⟨_, hc q j⟩]
  simp [State.pairedQps, hp]
def beatMsg (kind term : Nat) : List Byte :=
  let b : List Byte := [0x48, 0x42] ++ leBytes 1 kind ++ [4] ++ leBytes 2 9 ++ leBytes 2 0 ++ leBytes 4 term ++ List.replicate 16 0
  b ++ leBytes 4 (crc32c b)
def beatPk : Packet := pk opHeartbeat 3 0 0 (beatMsg 0 5)
def leavingSt : State := { pairSt 4 [] with pair := { (pairSt 4 []).pair with leaving := true } }
def mirrorSt (r : MirrorRange) : State :=
  let s : State := pairSt 4 [(Reg.LNK_STATUS 23, Fld.LNK_STATUS_state, 6)]
  { s with pair := { s.pair with log := [r] } }

/-- Hallmark ready; a write of one of its actions; a BOUND Bezel. -/
def secSt : State := quiet [(Reg.SEC_CTL, Fld.SEC_CTL_enable, 1), (Reg.CFG_BOOT_STATUS, Fld.CFG_BOOT_STATUS_done_step, 13)]
def secAsked (s : State) (f : Field) : State := s.writeFields .firmware Reg.SEC_CTL (setF 0 f 1)
def boundSt : State := quiet [(Reg.SEC_STATUS, Fld.SEC_STATUS_state, 1), (Reg.SEC_TENANT 3, ⟨0, 64⟩, 32768), (Reg.SEC_KEY_ID, ⟨0, 64⟩, 9)]

/-- Loupe states: a record of link 3 that waits at its source; a package that is stopped. -/
def rec0 : TraceRec := (st []).record 8 3 0x201 noWork []
def recSt : State := { st [] with loupe := { State.reset.loupe with sources := [rec0] } }
def stopSt (l : List (Nat × Field × Nat)) : State :=
  let s : State := quiet ([(Reg.LPE_STOP, Fld.LPE_STOP_stopped, 1), (Reg.LPE_STOP, Fld.LPE_STOP_resumable, 1)] ++ l)
  { s with pins := { s.pins with thermN := true } }

/-- Port states: start-up past step 2, ALERT_N low; the event ring with a tail and queued records. -/
def portSt : State := { quiet [(Reg.EVT_PENDING, ⟨0, 1⟩, 1), (Reg.EVT_MASK, ⟨0, 1⟩, 0)] with boot := { State.reset.boot with smbus := true } }
def ringSt (tail : Nat) (l : List EventRec) : State :=
  let s : State := quiet [(Reg.EVT_CTL, Fld.EVT_CTL_enable, 1), (Reg.EVT_CTL, Fld.EVT_CTL_ring_log2, 8), (Reg.EVT_RING_PTR, Fld.EVT_RING_PTR_tail, tail),
    (Reg.EVT_RING_PTR, Fld.EVT_RING_PTR_head, 3), (Reg.EVT_NOTIFY, Fld.EVT_NOTIFY_enable, 1), (Reg.ILC_STATUS 0, Fld.ILC_STATUS_state, 3)]
  { s with events := { s.events with queue := l } }

/-- Link 3 with a cycle of 20 ns, class 1 closed in its second of two entries, at an NT. -/
def gateSt (nt : Nat) : State :=
  let s : State := st [(Reg.TSC_CTL 3, Fld.TSC_CTL_enable, 1), (Reg.TSC_CTL 3, Fld.TSC_CTL_n_entries, 2), (Reg.TSC_CTL 3, Fld.TSC_CTL_rest_mask, 255), (Reg.TSC_CYCLE 3, Fld.TSC_CYCLE_cycle_ns, 20),
    (Reg.TSC_GATE 3 0, Fld.TSC_GATE_duration_ns, 5), (Reg.TSC_GATE 3 0, Fld.TSC_GATE_mask, 255), (Reg.TSC_GATE 3 1, Fld.TSC_GATE_duration_ns, 2), (Reg.TSC_GATE 3 1, Fld.TSC_GATE_mask, 253)]
  { s with time := ⟨nt, nt, 0, 0⟩ }

/-! Tests of single definitions: the expected values are the worked examples of the chapters and the check value of R54. -/

/-- The check value of CRC-32C (R54). -/
theorem test_crc32c : crc32c ([0x31, 0x32, 0x33, 0x34, 0x35, 0x36, 0x37, 0x38, 0x39] : List Byte) = 0xE3069283 := by decide +kernel

/-- The worked example of 06_pool_memory.md: slab 9, wide, frame 192. -/
theorem test_slab_place : placeOf 2 0 192 0x123450 = (20, 0x180009150) ∧ rowOf false 4 (0x180009150 / 256) = 0x1B6DC13 ∧ parityPos 0x1B6DC13 = 3 := by
  decide +kernel

/-- The worked examples of 07_setting_banks.md: a word of F3's window with six banks and with five, and the address of BNK_BANK of bank 39 of ST05. -/
theorem test_bank_window : windowWord [34, 35, 36, 37, 38, 39] (0x13468 / 32) = some (35, 411) ∧ windowWord [34, 35, 36, 37, 38] (0x10108 / 32) = some (35, 411) ∧
    bankReg (5 * 64 + 39) = 0x01091B38 ∧ ((List.range 6).map fun i => bankOwnerReset (34 + i)) = [3, 3, 3, 3, 3, 3] := by
  decide +kernel

/-- The worked example of 08_number_formats_and_beads.md: Bead 5 of a group of Bead-16 FP4 values; the weight at position 21 is 4, its mask has 16 bits, and its group 544 bytes. -/
theorem test_bead :
    let group : List Byte := List.replicate 40 0 ++ [0x00, 0xB7, 0xD4, 0x62, 0x39, 0x1E, 0x2C, 0xC6] ++ List.replicate 248 0 ++ leBytes 8 0x420841024224148B ++
      List.replicate 213 0 ++ [0x79] ++ List.replicate 26 0
    group.length = groupBytes 1 .e2m1s ∧ (beadOf 1 .e2m1s group 5).good = true ∧ (beadOf 1 .e2m1s group 5).scale = 0x79 ∧
    ((beadOf 1 .e2m1s group 5).elems.getD 21 none).map to32 = some 0x40800000 ∧ (beadOf 1 .e2m1s group 5).elems.getD 22 none = none := by
  decide +kernel

/-- The worked example of 13_shared_regions_and_leases.md: where a region has its record, and when a lease of 2 s taken at 100,000,400 ns ends. -/
theorem test_region_and_lease : regionFold 0xA53C1F2207 = 0x1EBD ∧ regionHome 0xA53C1F2207 = 1 ∧ (poolSt.recordAt 0xA53C1F2207 0) = 0x3D780 ∧
    renewTo 100000400 2000 * 1000000 = 2101000000 := by
  decide +kernel

/-- The worked example of 15_quagen_links.md, in units of 2^-16 ns rounded to the nearest: the delay of the exchange in ps. -/
theorem test_time_exchange :
    (delayAndOffset (1000000 * 65536, 7250431000 * 65536 + 26214, 7250431200 * 65536 + 26214, 1000400 * 65536 + 52429) 0) = (100400, 7249430900) := by
  decide +kernel

/-- A write of four bytes to a register is refused, and logged as kind 1 (R3). -/
theorem test_narrow_write :
    (registerWriteEff .firmware Reg.SEC_CFG 4 7 noEnv (st [])).fld Reg.GLB_CFG_VIOL Fld.GLB_CFG_VIOL_kind = 1 ∧
    (registerWriteEff .firmware Reg.SEC_CFG 4 7 noEnv (st [])).reg Reg.SEC_CFG = 100 := by
  decide +kernel

/-- The machine after reset has done step 1, and its reset cause is power-on (R42, R46). -/
theorem test_reset : State.reset.doneStep = 1 ∧ State.reset.fld Reg.CFG_BOOT_STATUS Fld.CFG_BOOT_STATUS_reset_cause = 0 := by decide +kernel

/-! One ill-formed command for each check of WellFormed, which that check refuses. -/

theorem smoke_env : wellFormed (.fill ⟨1, 9, 5⟩ { noEnv with recalls := [(0, [])] }) = false := by decide
theorem smoke_env_banks : wellFormed (.fill ⟨1, 9, 5⟩ { noEnv with banks := [(2048, 0, .clean)] }) = false := by decide
theorem smoke_ecc : wellFormed (.patrolScrubRow 0 [(32, 0, .clean)]) = false := by decide
theorem smoke_key : wellFormed (.nop ⟨1, 9, 2 ^ 32⟩) = false := by decide
theorem smoke_offset : wellFormed (.registerWrite .firmware (2 ^ 32) 8 0 noEnv) = false := by decide
theorem smoke_packet : wellFormed (.doorbell 0 { pk 1 0 0 0 [] with tag := 4096 }) = false := by decide +kernel
theorem smoke_frame : wellFormed (.dataFrame 0 { frame0 with payload := [] }) = false := by decide +kernel
theorem smoke_prong : wellFormed (.train 0 0 { prong0 .train 0 with next := 4096 }) = false := by decide
theorem smoke_heartbeat : wellFormed (.beat (.pins [])) = false := by decide
theorem smoke_flit : wellFormed (.ilcenFlit ⟨4096, 0, false, 0, 0, 0, false⟩) = false := by decide
theorem smoke_hello : wellFormed (.ilcenHello ⟨1, false, []⟩) = false := by decide
theorem smoke_line : wellFormed (.snpCur 0 (2 ^ 38)) = false := by decide
theorem smoke_line_op : wellFormed (.lineCacheAccess 0 0 (.write 63 [1, 2])) = false := by decide
theorem smoke_row : wellFormed (.granuleRead 0 (2 ^ 31) .clean) = false := by decide
theorem smoke_bank : wellFormed (.bankAccess 0 (some ⟨0, 31, false, .read 2, []⟩) none []) = false := by decide
theorem smoke_bank_plain : wellFormed (.bankAccess 0 (some ⟨0, 0, false, .atomic .add32 0 (List.replicate 32 0) true, []⟩) none []) = false := by decide
theorem smoke_pins : wellFormed (.extest (2 ^ 16)) = false := by decide
theorem smoke_droop : wellFormed (.droopTrip 0 4096) = false := by decide

/-! For each statement of Obligations.lean that has hypotheses: states and operands that meet them, one for each of its clauses. -/

theorem wit_EmptyQueueLetsTimePass :
    (∃ (s : State),
      (s.pending = []) ∧ (s.on Reg.CLK_STATUS Fld.CLK_STATUS_time_lock = false)) ∧
    (∃ (s : State),
      (s.pending = []) ∧ (s.on Reg.CLK_STATUS Fld.CLK_STATUS_time_lock = true)) :=
  ⟨⟨st [], by decide +kernel⟩,
   ⟨quiet [(Reg.CLK_STATUS, Fld.CLK_STATUS_time_lock, 1)], by decide +kernel⟩⟩

theorem wit_CanonicalIsKept : ∃ (s : State) (t : State),
    (Canonical s) ∧ (step s = .next t) :=
  ⟨{ st [] with pending := [.perstNAssert] }, perstNAssertEff (st []), by decide +kernel, rfl⟩

theorem wit_CommandsLeaveTheQueue : ∃ (c : Instr) (s : State) (t : State),
    (exec c s = .next t) :=
  ⟨.perstNAssert, st [], perstNAssertEff (st []), rfl⟩

theorem wit_WellFormedCommandsStepOn :
    (∃ (c : Instr) (s : State),
      (wellFormed c = true)) ∧
    (∃ (n : Setting) (row : Nat) (ecc : EccResult) (s : State),
      (2 ^ 31 ≤ row)) ∧
    (∃ (n : Setting) (row : Nat) (start : Fin 256) (data : List Byte) (s : State),
      (2 ^ 31 ≤ row)) :=
  ⟨⟨.powerOn, st [], by decide +kernel⟩,
   ⟨0, 2 ^ 31, .clean, st [], by decide +kernel⟩,
   ⟨0, 2 ^ 31, 0, [], st [], by decide +kernel⟩⟩

theorem wit_ColdResets : ∃ (s : State),
    (s.pins.perstN = true) :=
  ⟨st [], by decide +kernel⟩

theorem wit_ResetsCancelCommits :
    (∃ (path : Path) (value : Word) (s : State),
      (getF value Fld.CFG_RESET_cold = 1)) ∧
    (∃ (s : State),
      (s.pins.perstN = true)) :=
  ⟨⟨.firmware, 3, st [], by decide +kernel⟩,
   ⟨st [], by decide +kernel⟩⟩

theorem wit_WarmReset :
    (∃ (path : Path) (value : Word) (s : State),
      (RegsKept s) ∧ (getF value Fld.CFG_RESET_cold = 0)) ∧
    (∃ (a : Bool) (b : Bool) (s : State),
      (s.pins.perstN = false)) ∧
    (∃ (a : Bool) (b : Bool) (s : State),
      (s.pins.perstN = true)) :=
  ⟨⟨.firmware, 5, st [(Reg.CLK_STATUS, Fld.CLK_STATUS_ref_lost, 1)], by decide +kernel⟩,
   ⟨true, false, { st [] with pins := { Pins.reset with perstN := false } }, by decide +kernel⟩,
   ⟨true, true, st [], by decide +kernel⟩⟩

theorem wit_TemperatureLevels :
    (∃ (q : Quad) (temp : BitVec 12) (s : State),
      (RegsKept s) ∧ (s.clocks.length = 4)) ∧
    (∃ (n : Setting) (temp : BitVec 12) (s : State),
      (RegsKept s) ∧ (s.stackTherm.length = 32)) :=
  ⟨⟨2, 0x2A0#12, st [], by decide +kernel⟩,
   ⟨9, 0x2A8#12, st [], by decide +kernel⟩⟩

theorem wit_RailsAndStretches :
    (∃ (rail : Fin 8) (s : State),
      (RegsKept s) ∧ (s.pins.pwrok = true) ∧ (EventRoom s)) ∧
    (∃ (rail : Fin 8) (s : State),
      (s.pins.pwrok = false)) ∧
    (∃ (s : State),
      (RegsKept s) ∧ (EventRoom s)) ∧
    (∃ (s : State),
      (RegsKept s) ∧ (EventRoom s) ∧ (s.on Reg.CLK_STATUS Fld.CLK_STATUS_holdover = true)) ∧
    (∃ (s : State),
      (s.on Reg.CLK_STATUS Fld.CLK_STATUS_holdover = false)) ∧
    (∃ (q : Quad) (mv : Nat) (s : State),
      (RegsKept s) ∧ (Unwatched s) ∧ (s.clocks.length = 4) ∧ ((s.clock q).stretching = false) ∧ (s.fld (Reg.PWR_DROOP_CFG q) Fld.PWR_DROOP_CFG_enable = 1) ∧ (mv + s.fld (Reg.PWR_DROOP_CFG q) Fld.PWR_DROOP_CFG_threshold_mv < 750)) ∧
    (∃ (q : Quad) (s : State),
      (s.clocks.length = 4) ∧ ((s.clock q).stretching = true)) ∧
    (∃ (q : Quad) (sag : Bool) (s : State),
      (sag = true ∨ (s.clock q).stretching = false)) :=
  ⟨⟨3, st [], by decide +kernel⟩,
   ⟨3, { st [] with pins := { Pins.reset with pwrok := false } }, by decide +kernel⟩,
   ⟨st [], by decide +kernel⟩,
   ⟨st [(Reg.CLK_STATUS, Fld.CLK_STATUS_holdover, 1), (Reg.CLK_STATUS, Fld.CLK_STATUS_ref_lost, 1)], by decide +kernel⟩,
   ⟨st [], by decide +kernel⟩,
   ⟨1, 600, quiet [(Reg.PWR_DROOP_CFG 1, Fld.PWR_DROOP_CFG_enable, 1), (Reg.PWR_DROOP_CFG 1, Fld.PWR_DROOP_CFG_threshold_mv, 100)], by decide +kernel⟩,
   ⟨1, { st [] with clocks := List.replicate 4 ⟨true, false, false, false, 0, 1⟩ }, by decide +kernel⟩,
   ⟨1, true, { st [] with clocks := List.replicate 4 ⟨true, false, false, false, 0, 1⟩ }, by decide +kernel⟩⟩

theorem wit_SensorsAndManagement :
    (∃ (atLimit : Bool) (s : State),
      (RegsKept s) ∧ (EventRoom s) ∧ (s.boot.recal = true)) ∧
    (∃ (atLimit : Bool) (s : State),
      (s.boot.recal = false)) ∧
    (∃ (path : Path) (q : Quad) (s : State),
      (RegsKept s)) ∧
    (∃ (path : Path) (size : Nat) (q : Quad) (s : State),
      (RegsKept s) ∧ (size ≠ 8)) ∧
    (∃ (path : Path) (value : Word) (s : State),
      (RegsKept s) ∧ (path ≠ .firmware)) ∧
    (∃ (s : State),
      (Silent s.nt s.mgmt.beat0) ∧ (Silent s.nt s.mgmt.beat1)) ∧
    (∃ (s : State),
      (¬ Silent s.nt s.mgmt.beat0 ∨ ¬ Silent s.nt s.mgmt.beat1)) :=
  ⟨⟨true, { st [] with boot := { Boot.reset with recal := true, recalNext := 16505 } }, by decide +kernel⟩,
   ⟨true, st [], by decide +kernel⟩,
   ⟨.ilcen, 2, st [], by decide +kernel⟩,
   ⟨.ilcen, 4, 2, st [], by decide +kernel⟩,
   ⟨.smbus, 3, st [], by decide +kernel⟩,
   ⟨{ st [] with time := ⟨2000000, 2000000, 0, 0⟩, mgmt := ⟨some 3, none, false⟩ }, by decide +kernel⟩,
   ⟨{ st [] with time := ⟨2000000, 2000000, 0, 0⟩, mgmt := ⟨some 1000001, none, false⟩ }, by decide +kernel⟩⟩

theorem wit_StartupStepsComplete :
    (∃ (s : State),
      (RegsKept s) ∧ (s.atStep 2 = true)) ∧
    (∃ (a : List Byte) (b : List Byte) (s : State),
      (RegsKept s) ∧ (s.atStep 3 = true)) ∧
    (∃ (lanes : List (LinkId × Fin 3)) (s : State),
      (RegsKept s) ∧ (s.atStep 5 = true)) ∧
    (∃ (failed : BitVec 32) (s : State),
      (RegsKept s) ∧ (s.atStep 6 = true) ∧ (failed = 0) ∧ (((List.range 32).any s.stackFailed) = false)) ∧
    (∃ (s : State),
      (RegsKept s) ∧ (Unwatched s) ∧ (s.atStep 7 = true) ∧ (((List.range 32).any s.stackFailed) = false) ∧ (((List.range 4).any fun q => s.groupState q == 5) = false)) ∧
    (∃ (s : State),
      (RegsKept s) ∧ (s.atStep 8 = true) ∧ (((List.range 32).all fun n => !s.on (Reg.LNK_CTL n) Fld.LNK_CTL_enable || decide (lsActive ≤ s.linkState n)) = true)) ∧
    (∃ (s : State),
      (RegsKept s) ∧ (s.atStep 9 = true) ∧ (s.on (Reg.ILC_CTL 0) Fld.ILC_CTL_enable = false)) ∧
    (∃ (s : State),
      (RegsKept s) ∧ (s.atStep 10 = true)) ∧
    (∃ (s : State),
      (RegsKept s) ∧ (s.atStep 11 = true)) ∧
    (∃ (c : Instr) (s : State),
      (c ∈ [Instr.bootRom true true, .analogueCalibration [], .stackTraining 0, .claspCheck, .linkTrainingStep, .routeTableActivation, .ilcenBringup, .attestation true]) ∧ (s.on Reg.CFG_BOOT_STATUS Fld.CFG_BOOT_STATUS_failed = true ∨ s.doneStep = 0 ∨ 11 ≤ s.doneStep ∨ s.pins.pwrok = false ∨ s.pins.perstN = false)) :=
  ⟨⟨st [], by decide +kernel⟩,
   ⟨[1], [2], st [(Reg.CFG_BOOT_STATUS, Fld.CFG_BOOT_STATUS_done_step, 2)], by decide +kernel⟩,
   ⟨[(5, 2)], st [(Reg.CFG_BOOT_STATUS, Fld.CFG_BOOT_STATUS_done_step, 4)], by decide +kernel⟩,
   ⟨0, st [(Reg.CFG_BOOT_STATUS, Fld.CFG_BOOT_STATUS_done_step, 5)], by decide +kernel⟩,
   ⟨quiet [(Reg.CFG_BOOT_STATUS, Fld.CFG_BOOT_STATUS_done_step, 6), (Reg.LNK_CTL 3, Fld.LNK_CTL_enable, 1)], by decide +kernel⟩,
   ⟨st [(Reg.CFG_BOOT_STATUS, Fld.CFG_BOOT_STATUS_done_step, 7), (Reg.LNK_CTL 3, Fld.LNK_CTL_enable, 1), (Reg.LNK_STATUS 3, Fld.LNK_STATUS_state, 6)], by decide +kernel⟩,
   ⟨st [(Reg.CFG_BOOT_STATUS, Fld.CFG_BOOT_STATUS_done_step, 8)], by decide +kernel⟩,
   ⟨st [(Reg.CFG_BOOT_STATUS, Fld.CFG_BOOT_STATUS_done_step, 9)], by decide +kernel⟩,
   ⟨st [(Reg.CFG_BOOT_STATUS, Fld.CFG_BOOT_STATUS_done_step, 10)], by decide +kernel⟩,
   ⟨.bootRom true true, st [(Reg.CFG_BOOT_STATUS, Fld.CFG_BOOT_STATUS_failed, 1), (Reg.CFG_BOOT_STATUS, Fld.CFG_BOOT_STATUS_done_step, 1)], by decide +kernel⟩⟩

theorem wit_StartupStops :
    (∃ (fuse : Bool) (s : State),
      (RegsKept s) ∧ (s.atStep 2 = true) ∧ (LinksDown s)) ∧
    (∃ (s : State),
      (RegsKept s) ∧ (s.atStep 2 = true) ∧ (LinksDown s)) ∧
    (∃ (s : State),
      (RegsKept s) ∧ (s.atStep 11 = true) ∧ (LinksDown s)) ∧
    (∃ (q : Quad) (s : State),
      (RegsKept s) ∧ (s.atStep 7 = true) ∧ (LinksDown s) ∧ (2 ≤ s.failedIn q)) ∧
    (∃ (image : List Byte) (code : Nat) (index : Nat) (s : State),
      (Canonical s) ∧ (s.atStep 4 = true) ∧ (checkImage image = .error (code, index))) ∧
    (∃ (image : List Byte) (s : State),
      (Canonical s) ∧ (s.atStep 4 = true) ∧ (checkImage image = .ok []) ∧ (s.commit = none) ∧ (faultOffset (s.brokenRules s) = none)) :=
  ⟨⟨false, st [], by decide +kernel⟩,
   ⟨st [], by decide +kernel⟩,
   ⟨st [(Reg.CFG_BOOT_STATUS, Fld.CFG_BOOT_STATUS_done_step, 10)], by decide +kernel⟩,
   ⟨1, st [(Reg.CFG_BOOT_STATUS, Fld.CFG_BOOT_STATUS_done_step, 6), (Reg.CLS_STATUS 1, Fld.CLS_STATUS_failed, 3)], by decide +kernel⟩,
   ⟨[1, 2, 3], 1, 0xFFFF, st [(Reg.CFG_BOOT_STATUS, Fld.CFG_BOOT_STATUS_done_step, 3)], by decide +kernel⟩,
   ⟨endImage, st [(Reg.CFG_BOOT_STATUS, Fld.CFG_BOOT_STATUS_done_step, 3)], by decide +kernel⟩⟩

theorem wit_CommitRequests :
    (∃ (path : Path) (value : Word) (s : State),
      (RegsKept s) ∧ (s.commit = none) ∧ (4 ≤ s.doneStep) ∧ (s.stagedOffsets ≠ [])) ∧
    (∃ (path : Path) (value : Word) (s : State),
      (RegsKept s) ∧ (s.commit = none) ∧ (4 ≤ s.doneStep) ∧ (s.stagedOffsets ≠ []) ∧ (s.nt + 1000 + 2 * s.stagedOffsets.length + 1000 ≤ (s.reg Reg.CFG_COMMIT_AT).toNat) ∧ ((s.reg Reg.CFG_COMMIT_AT).toNat ≤ s.nt + 1000000000)) ∧
    (∃ (path : Path) (value : Word) (s : State),
      (RegsKept s) ∧ (s.commit = none) ∧ (4 ≤ s.doneStep) ∧ (s.stagedOffsets ≠ []) ∧ ((s.reg Reg.CFG_COMMIT_AT).toNat < s.nt + 1000 + 2 * s.stagedOffsets.length + 1000)) ∧
    (∃ (path : Path) (value : Word) (s : State),
      (RegsKept s) ∧ (s.commit = none) ∧ (4 ≤ s.doneStep) ∧ (s.stagedOffsets ≠ []) ∧ (s.nt + 1000 + 2 * s.stagedOffsets.length + 1000 ≤ (s.reg Reg.CFG_COMMIT_AT).toNat) ∧ (s.nt + 1000000000 < (s.reg Reg.CFG_COMMIT_AT).toNat)) ∧
    (∃ (path : Path) (value : Word) (s : State),
      (RegsKept s) ∧ (s.commit = none) ∧ (4 ≤ s.doneStep) ∧ (s.stagedOffsets = [])) ∧
    (∃ (path : Path) (value : Word) (s : State),
      (RegsKept s) ∧ (s.commit ≠ none)) ∧
    (∃ (path : Path) (value : Word) (s : State),
      (RegsKept s) ∧ (s.cancellable = true) ∧ (getF value Fld.CFG_COMMIT_CTL_discard = 0)) ∧
    (∃ (path : Path) (value : Word) (s : State),
      (Canonical s) ∧ (s.commit = none)) ∧
    (∃ (path : Path) (value : Word) (s : State),
      (RegsKept s) ∧ (s.commit ≠ none) ∧ (getF value Fld.CFG_COMMIT_CTL_cancel = 0)) :=
  ⟨⟨.firmware, 9, ({ st [(Reg.CFG_BOOT_STATUS, Fld.CFG_BOOT_STATUS_done_step, 4)] with commit := none } : State).setShadow (Reg.QUE_CTL 0) 1, by decide +kernel⟩,
   ⟨.firmware, 9, ((st [(Reg.CFG_BOOT_STATUS, Fld.CFG_BOOT_STATUS_done_step, 4), (Reg.CFG_COMMIT_AT, ⟨0, 64⟩, 2002)])).setShadow (Reg.QUE_CTL 0) 1, by decide +kernel⟩,
   ⟨.firmware, 9, ((st [(Reg.CFG_BOOT_STATUS, Fld.CFG_BOOT_STATUS_done_step, 4), (Reg.CFG_COMMIT_AT, ⟨0, 64⟩, 2001)])).setShadow (Reg.QUE_CTL 0) 1, by decide +kernel⟩,
   ⟨.firmware, 9, ((st [(Reg.CFG_BOOT_STATUS, Fld.CFG_BOOT_STATUS_done_step, 4), (Reg.CFG_COMMIT_AT, ⟨0, 64⟩, 1000000001)])).setShadow (Reg.QUE_CTL 0) 1, by decide +kernel⟩,
   ⟨.firmware, 9, st [(Reg.CFG_BOOT_STATUS, Fld.CFG_BOOT_STATUS_done_step, 4)], by decide +kernel⟩,
   ⟨.firmware, 9, { st [] with commit := some ⟨false, 0, 1, false, 0, false⟩ }, by decide +kernel⟩,
   ⟨.firmware, 1, { st [] with commit := some ⟨true, 0, 1, true, 10, false⟩ }, by decide +kernel⟩,
   ⟨.firmware, 2, (st []).setShadow (Reg.QUE_CTL 0) 1, by decide +kernel⟩,
   ⟨.firmware, 2, { st [] with commit := some ⟨true, 0, 1, true, 10, false⟩ }, by decide +kernel⟩⟩

theorem wit_CommitEnds :
    (∃ (c : Commit) (s : State),
      (s.commit = some c) ∧ (c.checked = false) ∧ (s.commitFault (decide (s.doneStep < 11)) = none)) ∧
    (∃ (c : Commit) (off : Nat) (s : State),
      (RegsKept s) ∧ (s.commit = some c) ∧ (c.checked = false) ∧ (s.commitFault (decide (s.doneStep < 11)) = some off)) ∧
    (∃ (c : Commit) (s : State),
      (RegsKept s) ∧ (s.commit = some c) ∧ (c.checked = true) ∧ (c.instant ≤ s.nt) ∧ (s.stopped = true)) ∧
    (∃ (c : Commit) (s : State),
      (Canonical s) ∧ (s.commit = some c) ∧ (c.checked = true) ∧ (c.instant ≤ s.nt) ∧ (s.stopped = false) ∧ (c.early = false) ∧ (11 ≤ s.doneStep) ∧ (s.stagedOffsets = [Reg.SHR_CTL 2])) ∧
    (∃ (c : Commit) (s : State),
      (s.commit = some c) ∧ (c.checked = false ∨ s.nt < c.instant)) ∧
    (∃ (a : Nat) (s : State),
      (s.boot.autoAt = some a) ∧ (a ≤ s.nt) ∧ (s.commit = none) ∧ (11 ≤ s.doneStep) ∧ ((s.stagedOffsets.filter s.stagedEnable) = [])) :=
  ⟨⟨⟨false, 0, 1, false, 0, false⟩, { st [(Reg.CFG_BOOT_STATUS, Fld.CFG_BOOT_STATUS_done_step, 11)] with commit := some ⟨false, 0, 1, false, 0, false⟩, time := ⟨1001, 1001, 0, 0⟩ }, by decide +kernel⟩,
   ⟨⟨false, 0, 1, false, 0, false⟩, Reg.QUE_CTL 0, ({ st [(Reg.CFG_BOOT_STATUS, Fld.CFG_BOOT_STATUS_done_step, 11)] with commit := some ⟨false, 0, 1, false, 0, false⟩ } : State).setShadow (Reg.QUE_CTL 0) 1, by decide +kernel⟩,
   ⟨⟨false, 0, 1, true, 1000, false⟩, { st [(Reg.LPE_STOP, Fld.LPE_STOP_stopped, 1)] with commit := some ⟨false, 0, 1, true, 1000, false⟩, time := ⟨1000, 1000, 0, 0⟩ }, by decide +kernel⟩,
   ⟨⟨false, 0, 1, true, 1000, false⟩, ({ st [(Reg.CFG_BOOT_STATUS, Fld.CFG_BOOT_STATUS_done_step, 11)] with commit := some ⟨false, 0, 1, true, 1000, false⟩, time := ⟨1000, 1000, 0, 0⟩ } : State).setShadow (Reg.SHR_CTL 2) 1, by decide +kernel⟩,
   ⟨⟨false, 0, 1, true, 1000, false⟩, { st [] with commit := some ⟨false, 0, 1, true, 1000, false⟩, time := ⟨999, 999, 0, 0⟩ }, by decide +kernel⟩,
   ⟨0, { st [(Reg.CFG_BOOT_STATUS, Fld.CFG_BOOT_STATUS_done_step, 11)] with boot := { Boot.reset with autoAt := some 0 } }, by decide +kernel⟩⟩

theorem wit_AccessesAreAligned :
    (∃ (path : Path) (off : Nat) (size : Nat) (value : Word) (env : Env) (s : State),
      (RegsKept s) ∧ (off < 2 ^ 26) ∧ (size ≠ 8 ∨ off % 8 ≠ 0)) ∧
    (∃ (path : Path) (off : Nat) (size : Nat) (s : State),
      (RegsKept s) ∧ (off < 2 ^ 26) ∧ (size ≠ 8 ∨ off % 8 ≠ 0)) :=
  ⟨⟨.firmware, 0x60020, 4, 7, noEnv, st [], by decide +kernel⟩,
   ⟨.jtag, 0x60021, 8, st [], by decide +kernel⟩⟩

theorem wit_RegisterAccess :
    (∃ (path : Path) (value : Word) (env : Env) (s : State),
      (RegsKept s) ∧ (s.shadowReg Reg.EVT_MASK = 0)) ∧
    (∃ (path : Path) (q : Quad) (value : Word) (env : Env) (s : State),
      (Canonical s) ∧ (s.commit = none) ∧ (11 ≤ s.doneStep)) ∧
    (∃ (path : Path) (value : Word) (env : Env) (s : State),
      (RegsKept s) ∧ (s.commit = none) ∧ (s.on Reg.PWR_SENSE_STATUS Fld.PWR_SENSE_STATUS_therm_locked = true) ∧ (getF value Fld.PWR_THERM_CFG_die_crit ≠ s.fld Reg.PWR_THERM_CFG Fld.PWR_THERM_CFG_die_crit)) ∧
    (∃ (path : Path) (value : Word) (env : Env) (s : State),
      (RegsKept s)) ∧
    (∃ (path : Path) (value : Word) (s : State),
      (RegsKept s)) ∧
    (∃ (port : Fin 36) (p : Packet) (s : State),
      (InputsKept s) ∧ (s.coreStopped = false) ∧ (p.opcode = opRegRead) ∧ ((s.arrives p).2 = true) ∧ (p.addr = Reg.EVT_MASK) ∧ (s.regAnswers < 16)) ∧
    (∃ (port : Fin 36) (p : Packet) (env : Env) (s : State),
      (RegsKept s) ∧ (InputsKept s) ∧ (s.coreStopped = false) ∧ (p.opcode = opRegWrite) ∧ ((s.arrives p).2 = true) ∧ (p.addr = Reg.EVT_MASK) ∧ (s.regAnswers < 16)) ∧
    (∃ (port : Fin 36) (p : Packet) (s : State),
      (s.coreStopped = false) ∧ (p.opcode = opRegResp) ∧ ((s.arrives p).2 = true)) :=
  ⟨⟨.firmware, 0xFF, noEnv, st [], by decide +kernel⟩,
   ⟨.firmware, 2, 1, noEnv, st [(Reg.CFG_BOOT_STATUS, Fld.CFG_BOOT_STATUS_done_step, 11)], by decide +kernel⟩,
   ⟨.firmware, 0x6E0000, noEnv, st [(Reg.PWR_SENSE_STATUS, Fld.PWR_SENSE_STATUS_therm_locked, 1), (Reg.PWR_THERM_CFG, Fld.PWR_THERM_CFG_die_crit, 100)], by decide +kernel⟩,
   ⟨.firmware, 6, noEnv, st [(Reg.EVT_PENDING, Fld.EVT_PENDING_pending, 7)], by decide +kernel⟩,
   ⟨.firmware, 0, st [(Reg.GLB_CFG_VIOL, Fld.GLB_CFG_VIOL_count, 7)], by decide +kernel⟩,
   ⟨4, pk opRegRead 3 Reg.EVT_MASK 0 [], st [(Reg.RTE_CTL, Fld.RTE_CTL_fm_any, 1)], by decide +kernel⟩,
   ⟨4, pk opRegWrite 3 Reg.EVT_MASK 0 (leBytes 8 6), noEnv, st [(Reg.RTE_CTL, Fld.RTE_CTL_fm_any, 1)], by decide +kernel⟩,
   ⟨4, pk opRegResp 3 0 0 (leBytes 8 6), st [], by decide +kernel⟩⟩

theorem wit_Doorbells :
    (∃ (c : Client) (off : Fin 4096) (data : List Byte) (p : Nat) (s : State),
      (RegsKept s) ∧ (s.ilcActive = true) ∧ (s.sealed = false) ∧ (doorbellAt off = some (p, true)) ∧ (data.length = 8) ∧ (s.paired c = false) ∧ (s.on (Reg.QUE_QP_CFG (c % 4) (c / 4 * 8 + p)) Fld.QUE_QP_CFG_enable = true) ∧ (s.on (Reg.QUE_QP_CTL (c % 4) (c / 4 * 8 + p)) Fld.QUE_QP_CTL_busy = false) ∧ (ofLE data < 2 ^ 32) ∧ (0 < diff32 (ofLE data) (s.ptr (c % 4) (c / 4 * 8 + p) true)) ∧ (diff32 (ofLE data) (s.ptr (c % 4) (c / 4 * 8 + p) true) < 2 ^ 31) ∧ (diff32 (ofLE data) (s.ptr (c % 4) (c / 4 * 8 + p) false) ≤ 2 ^ s.ringLog (c % 4) (c / 4 * 8 + p))) ∧
    (∃ (c : Client) (off : Fin 4096) (data : List Byte) (p : Nat) (s : State),
      (RegsKept s) ∧ (s.ilcActive = true) ∧ (s.sealed = false) ∧ (doorbellAt off = some (p, false)) ∧ (data.length = 8) ∧ (s.paired c = false) ∧ (s.on (Reg.QUE_QP_CFG (c % 4) (c / 4 * 8 + p)) Fld.QUE_QP_CFG_enable = true) ∧ (s.on (Reg.QUE_QP_CTL (c % 4) (c / 4 * 8 + p)) Fld.QUE_QP_CTL_busy = false) ∧ (ofLE data < 2 ^ 32) ∧ (0 < diff32 (ofLE data) (s.ptr (c % 4) (c / 4 * 8 + p) false)) ∧ (diff32 (ofLE data) (s.ptr (c % 4) (c / 4 * 8 + p) false) < 2 ^ 31) ∧ (diff32 (ofLE data) (s.ptr (c % 4) (c / 4 * 8 + p) false) ≤ diff32 (s.cqWritten (c % 4) (c / 4 * 8 + p)) (s.ptr (c % 4) (c / 4 * 8 + p) false))) ∧
    (∃ (c : Client) (off : Fin 4096) (data : List Byte) (s : State),
      (RegsKept s) ∧ (s.ilcActive = true) ∧ (doorbellAt off = none) ∧ (((List.range data.length).any fun i => doorbellByte (off + i)) = true)) ∧
    (∃ (c : Client) (off : Fin 4096) (data : List Byte) (p : Nat) (s : State),
      (RegsKept s) ∧ (s.ilcActive = true) ∧ (s.sealed = false) ∧ (doorbellAt off = some (p, true)) ∧ (data.length = 8) ∧ (s.paired c = false) ∧ (s.on (Reg.QUE_QP_CFG (c % 4) (c / 4 * 8 + p)) Fld.QUE_QP_CFG_enable = false)) ∧
    (∃ (c : Client) (off : Fin 4096) (data : List Byte) (p : Nat) (s : State),
      (RegsKept s) ∧ (EventRoom s) ∧ (s.ilcActive = true) ∧ (s.sealed = false) ∧ (doorbellAt off = some (p, true)) ∧ (data.length = 8) ∧ (s.paired c = false) ∧ (s.on (Reg.QUE_QP_CFG (c % 4) (c / 4 * 8 + p)) Fld.QUE_QP_CFG_enable = true) ∧ (s.on (Reg.QUE_QP_CTL (c % 4) (c / 4 * 8 + p)) Fld.QUE_QP_CTL_busy = false) ∧ (ofLE data < 2 ^ 32) ∧ (0 < diff32 (ofLE data) (s.ptr (c % 4) (c / 4 * 8 + p) true)) ∧ (diff32 (ofLE data) (s.ptr (c % 4) (c / 4 * 8 + p) true) < 2 ^ 31) ∧ (2 ^ s.ringLog (c % 4) (c / 4 * 8 + p) < diff32 (ofLE data) (s.ptr (c % 4) (c / 4 * 8 + p) false))) ∧
    (∃ (port : Fin 36) (p : Packet) (n : Nat) (s : State),
      (RegsKept s) ∧ (s.workStopped = false) ∧ (p.opcode = opDoorbell) ∧ ((s.arrives p).2 = true) ∧ (p.client < 512) ∧ (s.fld (Reg.QUE_POL_RATE (p.client % 4) (p.client / 4)) Fld.QUE_POL_RATE_rate_mbs = 0) ∧ (doorbellAt (leAt p.payload 0 2) = some (n, true)) ∧ (s.on (clientReg p.client) Fld.QUE_CLIENT_enable = true) ∧ (s.on (clientReg p.client) Fld.QUE_CLIENT_fabric_db = true) ∧ (s.fld (clientReg p.client) Fld.QUE_CLIENT_node = p.src) ∧ (s.paired p.client = false) ∧ (s.on (Reg.QUE_QP_CFG (p.client % 4) (p.client / 4 * 8 + n)) Fld.QUE_QP_CFG_enable = true) ∧ (s.on (Reg.QUE_QP_CTL (p.client % 4) (p.client / 4 * 8 + n)) Fld.QUE_QP_CTL_busy = false) ∧ (leAt p.payload 8 8 < 2 ^ 32) ∧ (0 < diff32 (leAt p.payload 8 8) (s.ptr (p.client % 4) (p.client / 4 * 8 + n) true)) ∧ (diff32 (leAt p.payload 8 8) (s.ptr (p.client % 4) (p.client / 4 * 8 + n) true) < 2 ^ 31) ∧ (diff32 (leAt p.payload 8 8) (s.ptr (p.client % 4) (p.client / 4 * 8 + n) false) ≤ 2 ^ s.ringLog (p.client % 4) (p.client / 4 * 8 + n))) :=
  ⟨⟨5, 8, leBytes 8 3, 1, st [(Reg.ILC_STATUS 0, Fld.ILC_STATUS_state, 3), (Reg.QUE_QP_CFG 1 9, Fld.QUE_QP_CFG_enable, 1), (Reg.QUE_QP_CFG 1 9, Fld.QUE_QP_CFG_ring_log2, 6)], by decide +kernel⟩,
   ⟨5, 0x108, leBytes 8 3, 1, { st [(Reg.ILC_STATUS 0, Fld.ILC_STATUS_state, 3), (Reg.QUE_QP_CFG 1 9, Fld.QUE_QP_CFG_enable, 1), (Reg.QUE_QP_CFG 1 9, Fld.QUE_QP_CFG_ring_log2, 6)] with que := { Que.reset with written := [(1033, 3)] } }, by decide +kernel⟩,
   ⟨5, 9, leBytes 8 3, st [(Reg.ILC_STATUS 0, Fld.ILC_STATUS_state, 3)], by decide +kernel⟩,
   ⟨5, 8, leBytes 8 3, 1, st [(Reg.ILC_STATUS 0, Fld.ILC_STATUS_state, 3), (Reg.QUE_DB_CNT 1, Fld.QUE_DB_CNT_stale, 7)], by decide +kernel⟩,
   ⟨5, 8, leBytes 8 100, 1, st [(Reg.ILC_STATUS 0, Fld.ILC_STATUS_state, 3), (Reg.QUE_QP_CFG 1 9, Fld.QUE_QP_CFG_enable, 1), (Reg.QUE_QP_CFG 1 9, Fld.QUE_QP_CFG_ring_log2, 6)], by decide +kernel⟩,
   ⟨4, pk opDoorbell 0 0 0 (leBytes 8 8 ++ leBytes 8 3), 1, st [(Reg.QUE_CLIENT 1 1, Fld.QUE_CLIENT_enable, 1), (Reg.QUE_CLIENT 1 1, Fld.QUE_CLIENT_fabric_db, 1), (Reg.QUE_CLIENT 1 1, Fld.QUE_CLIENT_node, 9), (Reg.QUE_QP_CFG 1 9, Fld.QUE_QP_CFG_enable, 1), (Reg.QUE_QP_CFG 1 9, Fld.QUE_QP_CFG_ring_log2, 6)], by decide +kernel⟩⟩

theorem wit_QueueFlow :
    (∃ (q : Quad) (j : Nat) (r : Round) (s : State),
      (s.engineUp q = true) ∧ (s.hung q = false) ∧ (s.quadInflight q < 4096) ∧ (s.nextTurn q = some (j, r)) ∧ (spaceOf (s.reg (Reg.QUE_QP_SQ_BASE q j)).toNat = 1)) ∧
    (∃ (q : Quad) (j : Fin 1024) (env : Env) (f : Fetch) (s : State),
      (RegsKept s) ∧ (s.engineUp q = true) ∧ (s.ilcActive = true) ∧ (env.extFail = false) ∧ ((s.que.fetches.find? fun f => f.q == q.val && f.j == j.val) = some f) ∧ (spaceOf (s.reg (Reg.QUE_QP_SQ_BASE q j)).toNat = 1)) ∧
    (∃ (q : Quad) (j : Fin 1024) (d : Desc) (s : State),
      (Unwatched s) ∧ (((s.qpDescs q j).find? fun d => d.phase == .fetched) = some d) ∧ (s.mayIssue d = true) ∧ (s.paired d.client = false) ∧ (s.bezel ≠ 2) ∧ (d.op = 0x00) ∧ (malformed d = 0) ∧ (d.journal ≠ 2)) ∧
    (∃ (q : Quad) (j : Fin 1024) (d : Desc) (s : State),
      (Unwatched s) ∧ (((s.qpDescs q j).find? fun d => d.phase == .fetched) = some d) ∧ (s.mayIssue d = true) ∧ (s.paired d.client = false) ∧ (s.bezel ≠ 2) ∧ (operandBytes d = none) ∧ (d.journal ≠ 2) ∧ (s.rcp.run = none)) ∧
    (∃ (k : DescKey) (d : Desc) (s : State),
      (s.desc k = some d) ∧ (s.mayStart d = true)) ∧
    (∃ (k : DescKey) (env : Env) (d : Desc) (s : State),
      (Unwatched s) ∧ (s.desc k = some d) ∧ (d.phase = .ended) ∧ (s.engineUp k.q = true) ∧ (13 ≤ s.doneStep) ∧ (s.mirrorOpen d.waits = false) ∧ (s.writesOpen k = false) ∧ (s.paired d.client = false) ∧ (s.ilcActive = true) ∧ (spaceOf ((s.reg (Reg.QUE_QP_CQ_BASE k.q k.j)).toNat + k.seq % 2 ^ s.ringLog k.q k.j * 32) = 1)) ∧
    (∃ (k : DescKey) (env : Env) (a : Announce) (s : State),
      ((s.que.announces.find? fun a => a.key == k) = some a) ∧ (s.engineUp k.q = true) ∧ (s.router.tags = []) ∧ (s.router.waiting = []) ∧ (s.ilcActive = true) ∧ (spaceOf (s.fld (Reg.QUE_QP_EV k.q k.j) Fld.QUE_QP_EV_target) = 1)) :=
  ⟨⟨1, 9, ⟨some 9, [(9, 1)]⟩, st [(Reg.QUE_CTL 1, Fld.QUE_CTL_enable, 1), (Reg.QUE_QP_CFG 1 9, Fld.QUE_QP_CFG_enable, 1), (Reg.QUE_QP_CFG 1 9, Fld.QUE_QP_CFG_ring_log2, 6), (Reg.QUE_QP_CFG 1 9, Fld.QUE_QP_CFG_weight, 4), (Reg.QUE_QP_SQ_PTR 1 9, Fld.QUE_QP_SQ_PTR_tail, 3), (Reg.QUE_QP_SQ_BASE 1 9, ⟨0, 64⟩, 2 ^ 48 + 4096)], by decide +kernel⟩,
   ⟨1, 9, { noEnv with ext := List.replicate 128 3 }, ⟨1, 9, 62, 2, none⟩, { st [(Reg.QUE_CTL 1, Fld.QUE_CTL_enable, 1), (Reg.ILC_STATUS 0, Fld.ILC_STATUS_state, 3), (Reg.QUE_QP_SQ_BASE 1 9, ⟨0, 64⟩, 2 ^ 48 + 4096)] with que := { Que.reset with fetches := [⟨1, 9, 62, 2, none⟩] } }, by decide +kernel⟩,
   ⟨1, 9, newDesc ⟨1, 9, 5⟩ (List.replicate 64 0), { quiet [(Reg.QUE_CTL 1, Fld.QUE_CTL_enable, 1), (Reg.QUE_QP_CFG 1 9, Fld.QUE_QP_CFG_max_inflight, 4)] with que := { Que.reset with descs := [newDesc ⟨1, 9, 5⟩ (List.replicate 64 0)] }, time := ⟨77, 77, 0, 0⟩ }, by decide +kernel⟩,
   ⟨1, 9, newDesc ⟨1, 9, 5⟩ (0x99 :: List.replicate 63 0), { quiet [(Reg.QUE_CTL 1, Fld.QUE_CTL_enable, 1), (Reg.QUE_QP_CFG 1 9, Fld.QUE_QP_CFG_max_inflight, 4)] with que := { Que.reset with descs := [newDesc ⟨1, 9, 5⟩ (0x99 :: List.replicate 63 0)] }, time := ⟨77, 77, 0, 0⟩ }, by decide +kernel⟩,
   ⟨⟨1, 9, 5⟩, job 0 [] .issued, withJob [] (job 0 [] .issued), by decide +kernel⟩,
   ⟨⟨1, 9, 5⟩, noEnv, { job 0 [] .ended with result := 8 }, withJob [(Reg.CFG_BOOT_STATUS, Fld.CFG_BOOT_STATUS_done_step, 13), (Reg.ILC_STATUS 0, Fld.ILC_STATUS_state, 3), (Reg.QUE_QP_CQ_BASE 1 9, ⟨0, 64⟩, 2 ^ 48 + 4096), (Reg.QUE_QP_EV 1 9, Fld.QUE_QP_EV_enable, 1)] { job 0 [] .ended with result := 8 }, by decide +kernel⟩,
   ⟨⟨1, 9, 5⟩, noEnv, ⟨⟨1, 9, 5⟩, 7, 0⟩, { st [(Reg.QUE_CTL 1, Fld.QUE_CTL_enable, 1), (Reg.ILC_STATUS 0, Fld.ILC_STATUS_state, 3), (Reg.QUE_QP_EV 1 9, Fld.QUE_QP_EV_target, 2 ^ 48 + 512)] with que := { Que.reset with announces := [⟨⟨1, 9, 5⟩, 7, 0⟩] } }, by decide +kernel⟩⟩

theorem wit_FencesAndSegSyncs :
    (∃ (k : DescKey) (d : Desc) (s : State),
      (s.jobOf k 0x00 = some d) ∧ (s.rcp.run = none)) ∧
    (∃ (k : DescKey) (d : Desc) (s : State),
      (s.jobOf k 0x04 = some d) ∧ ((s.que.fences.any fun f => f.key == d.key) = false)) ∧
    (∃ (k : DescKey) (d : Desc) (s : State),
      (s.jobOf k 0x04 = some d) ∧ (s.rcp.run = none) ∧ (d.progress = 1)) ∧
    (∃ (k : DescKey) (env : Env) (d : Desc) (s : State),
      (s.jobOf k 0x06 = some d) ∧ (d.u 9 1 = 0) ∧ (d.progress = 0) ∧ (s.ilcActive = true) ∧ (env.extFail = false) ∧ (s.loadStatus (d.u 10 2) (d.u 8 1) (padTo 64 env.ext) = 0)) ∧
    (∃ (k : DescKey) (d : Desc) (s : State),
      (s.jobOf k 0x06 = some d) ∧ (d.u 9 1 = 1) ∧ (d.progress = 0)) ∧
    (∃ (k : DescKey) (d : Desc) (y : SegSync) (s : State),
      (RegsKept s) ∧ (s.jobOf k 0x06 = some d) ∧ (s.syncOf k = some y) ∧ (y.gen = none) ∧ (s.earlierSync d = false) ∧ (y.client < 512) ∧ (y.seg < 8)) ∧
    (∃ (k : DescKey) (d : Desc) (y : SegSync) (g : Nat) (s : State),
      (s.jobOf k 0x06 = some d) ∧ (s.syncOf k = some y) ∧ (y.gen = some g) ∧ (s.rcp.run = none) ∧ ((∀ x ∈ s.que.descs, x.client = y.client → ∀ e ∈ x.snap, e.seg ≠ y.seg))) :=
  ⟨⟨⟨1, 9, 5⟩, job 0 [] .started, withJob [] (job 0 [] .started), by decide +kernel⟩,
   ⟨⟨1, 9, 5⟩, job 4 [] .started, withJob [] (job 4 [] .started), by decide +kernel⟩,
   ⟨⟨1, 9, 5⟩, { job 4 [] .started with progress := 1 }, withJob [] { job 4 [] .started with progress := 1 }, by decide +kernel⟩,
   ⟨⟨1, 9, 5⟩, noEnv, job 6 [2, 0, 6, 0, 0, 0, 0, 0, 0, 64] .started, withJob [(Reg.ILC_STATUS 0, Fld.ILC_STATUS_state, 3)] (job 6 [2, 0, 6, 0, 0, 0, 0, 0, 0, 64] .started), by decide +kernel⟩,
   ⟨⟨1, 9, 5⟩, job 6 [2, 1, 6] .started, withJob [] (job 6 [2, 1, 6] .started), by decide +kernel⟩,
   ⟨⟨1, 9, 5⟩, job 6 [2, 1, 6] .started, ⟨⟨1, 9, 5⟩, 1, 6, 2, List.replicate 8 7, none⟩, { withJob [] (job 6 [2, 1, 6] .started) with que := { Que.reset with descs := [job 6 [2, 1, 6] .started], syncs := [⟨⟨1, 9, 5⟩, 1, 6, 2, List.replicate 8 7, none⟩] } }, by decide +kernel⟩,
   ⟨⟨1, 9, 5⟩, job 6 [2, 1, 6] .started, ⟨⟨1, 9, 5⟩, 1, 6, 2, List.replicate 8 7, some 4⟩, 4, { withJob [] (job 6 [2, 1, 6] .started) with que := { Que.reset with descs := [job 6 [2, 1, 6] .started], syncs := [⟨⟨1, 9, 5⟩, 1, 6, 2, List.replicate 8 7, some 4⟩] } }, by decide +kernel⟩⟩

theorem wit_ResetAndRetire :
    (∃ (path : Path) (q : Quad) (j : Fin 1024) (value : Word) (s : State),
      (RegsKept s) ∧ (s.on (Reg.QUE_QP_CFG q j) Fld.QUE_QP_CFG_enable = true) ∧ (s.on (Reg.QUE_QP_CTL q j) Fld.QUE_QP_CTL_busy = false) ∧ ((∀ d ∈ s.qpDescs q j, d.phase ≠ .issued)) ∧ (s.que.tiles = [])) ∧
    (∃ (path : Path) (q : Quad) (j : Fin 1024) (value : Word) (s : State),
      (RegsKept s) ∧ (s.on (Reg.QUE_QP_CFG q j) Fld.QUE_QP_CFG_enable = false ∨ s.on (Reg.QUE_QP_CTL q j) Fld.QUE_QP_CTL_busy = true)) ∧
    (∃ (q : Quad) (j : Fin 1024) (env : Env) (s : State),
      (RegsKept s) ∧ (s.on (Reg.QUE_QP_CTL q j) Fld.QUE_QP_CTL_busy = true) ∧ (s.qpDescs q j = []) ∧ (s.cplOpen q j = false) ∧ (s.workStopped = false) ∧ (s.ilcActive = true) ∧ (spaceOf (s.reg (Reg.QUE_QP_CQ_BASE q j)).toNat = 1) ∧ (s.paired (clientOf q j) = false)) ∧
    (∃ (path : Path) (q : Quad) (value : Word) (s : State),
      (RegsKept s) ∧ (s.sealRefuses path (Reg.QUE_RETIRE q) (setF value Fld.QUE_RETIRE_go 1) = false) ∧ (s.on (Reg.QUE_RETIRE q) Fld.QUE_RETIRE_busy = false) ∧ (getF value Fld.QUE_RETIRE_client % 4 = q) ∧ (s.que.descs = []) ∧ (s.que.tiles = [])) ∧
    (∃ (q : Quad) (c : Client) (s : State),
      (RegsKept s) ∧ (s.on (Reg.QUE_RETIRE q) Fld.QUE_RETIRE_busy = true) ∧ (s.que.retiring = [(q.val, c.val)]) ∧ (c.val % 4 = q.val) ∧ (((qpsOf c).any fun j => s.on (Reg.QUE_QP_CTL q j) Fld.QUE_QP_CTL_busy) = false)) :=
  ⟨⟨.firmware, 1, 9, 0, { st [(Reg.QUE_QP_CFG 1 9, Fld.QUE_QP_CFG_enable, 1)] with que := { Que.reset with descs := [newDesc ⟨1, 9, 5⟩ (List.replicate 64 0), newDesc ⟨1, 8, 5⟩ (List.replicate 64 0)] } }, by decide +kernel⟩,
   ⟨.smbus, 1, 9, 0, st [], by decide +kernel⟩,
   ⟨1, 9, noEnv, { st [(Reg.QUE_QP_CTL 1 9, Fld.QUE_QP_CTL_busy, 1), (Reg.QUE_QP_CTL 1 9, Fld.QUE_QP_CTL_fetch_error, 1), (Reg.ILC_STATUS 0, Fld.ILC_STATUS_state, 3), (Reg.QUE_QP_SQ_PTR 1 9, Fld.QUE_QP_SQ_PTR_tail, 3), (Reg.QUE_QP_CFG 1 9, Fld.QUE_QP_CFG_ring_log2, 2), (Reg.QUE_QP_CQ_BASE 1 9, ⟨0, 64⟩, 2 ^ 48 + 4096)] with que := { Que.reset with zeroing := [⟨1, 9, false⟩], written := [(1033, 4)] } }, by decide +kernel⟩,
   ⟨.firmware, 1, 5, st [(Reg.QUE_QP_CFG 1 9, Fld.QUE_QP_CFG_enable, 1)], by decide +kernel⟩,
   ⟨1, 5, { st [(Reg.QUE_RETIRE 1, Fld.QUE_RETIRE_busy, 1), (Reg.SEG_ENTRY 1 1 3 5, ⟨0, 64⟩, 1)] with que := { Que.reset with retiring := [(1, 5)] } }, by decide +kernel⟩⟩

theorem wit_MoversWork :
    (∃ (k : DescKey) (env : Env) (d : Desc) (s : State),
      (Unwatched s) ∧ (s.jobOf k 0x01 = some d) ∧ (s.rcp.run = none) ∧ (s.ilcActive = true) ∧ (env.extFail = false) ∧ (spaceOf (d.u 8 8) = 1) ∧ (spaceOf (d.u 16 8) = 1) ∧ (d.u 28 4 = 1) ∧ (0 < d.u 24 4) ∧ (d.u 24 4 ≤ 2 ^ 18) ∧ (d.progress = 0)) ∧
    (∃ (k : DescKey) (env : Env) (d : Desc) (s : State),
      (Unwatched s) ∧ (s.jobOf k 0x02 = some d) ∧ (s.rcp.run = none) ∧ (s.ilcActive = true) ∧ (spaceOf (d.u 8 8) = 1) ∧ (0 < d.u 24 8) ∧ (d.u 24 8 ≤ 2 ^ 18) ∧ (d.progress = 0)) ∧
    (∃ (k : DescKey) (env : Env) (d : Desc) (d2 : Desc) (e : SegEnt) (s1 : State) (s2 : State) (s3 : State) (g : State × Granted) (bs : List Byte) (seen : PoolSeen) (seen' : PoolSeen) (ids : List Nat) (v : Nat) (s : State),
      (s.jobOf k 0x03 = some d) ∧ (s.rcp.run = none) ∧ (d.progress = 0) ∧ (s.checkTile k (256 + k.q) ⟨addrOf (d.u 8 8), atomicSize (d.u 16 1), 1, 0, true⟩ = (s1, .ok e)) ∧ (s1.inSlabs (e.paOf (addrOf (d.u 8 8))) (atomicSize (d.u 16 1)) = true) ∧ (s1.rangeMirrorHeld (e.paOf (addrOf (d.u 8 8))) (atomicSize (d.u 16 1)) = false) ∧ (s1.paWriteHeld (e.paOf (addrOf (d.u 8 8))) = false) ∧ (s1.serve env ⟨.agent 15, 0, .recall, e.paOf (addrOf (d.u 8 8)) / 64, 0, []⟩ = some g) ∧ (g.1.readPool env.ecc (e.paOf (addrOf (d.u 8 8))) (atomicSize (d.u 16 1)) = (s2, bs, seen)) ∧ (seen.lost = false) ∧ (s2.desc k = some d2) ∧ (s2.paired d2.client = false) ∧ (atomicNew (d.u 16 1) (ofLE bs) (d2.u 24 8) (d2.u 32 8) = some v) ∧ (s2.writePool (s2.mended env (e.paOf (addrOf (d.u 8 8)) / 64) seen.rebuilt).ecc (e.paOf (addrOf (d.u 8 8))) (leBytes (atomicSize (d.u 16 1)) v) true = (s3, seen', ids)) ∧ (seen'.lost = false)) :=
  ⟨⟨⟨1, 9, 5⟩, { noEnv with ext := [1, 2, 3] }, job 1 (leBytes 8 (2 ^ 48 + 64) ++ leBytes 8 (2 ^ 48 + 1024) ++ leBytes 4 10 ++ leBytes 4 1) .started, withJob [(Reg.ILC_STATUS 0, Fld.ILC_STATUS_state, 3)] (job 1 (leBytes 8 (2 ^ 48 + 64) ++ leBytes 8 (2 ^ 48 + 1024) ++ leBytes 4 10 ++ leBytes 4 1) .started), by decide +kernel⟩,
   ⟨⟨1, 9, 5⟩, noEnv, job 2 (leBytes 8 (2 ^ 48 + 64) ++ leBytes 8 0x0807060504030201 ++ leBytes 8 24) .started, withJob [(Reg.ILC_STATUS 0, Fld.ILC_STATUS_state, 3)] (job 2 (leBytes 8 (2 ^ 48 + 64) ++ leBytes 8 0x0807060504030201 ++ leBytes 8 24) .started), by decide +kernel⟩,
   ⟨⟨1, 9, 5⟩, noEnv, atJob, { atJob with pages := [(257, 2, 0)] }, seg2, atChecked, atRead.1, atWritten.1, atServed, atRead.2.1, atRead.2.2, atWritten.2.1, atWritten.2.2, 77, poolJob [] atJob, by decide +kernel, by decide +kernel, by decide +kernel, rfl, by decide +kernel, by decide +kernel, by decide +kernel, rfl, eta3 _, by decide +kernel, by decide +kernel, by decide +kernel, by decide +kernel, eta3 _, by decide +kernel⟩⟩

theorem wit_TilesAreChecked :
    (∃ (k : DescKey) (r : Nat) (va : Nat) (len : Nat) (rows : Nat) (stride : Nat) (write : Bool) (d : Desc) (e : SegEnt) (p : Nat) (a : Nat) (l : BmcLine) (s : State),
      (RegsKept s) ∧ (s.engineUp k.q = true) ∧ (0 < len) ∧ (0 < rows) ∧ (rows ≤ 256) ∧ (rows * len ≤ 2 ^ 18) ∧ (s.desc k = some d) ∧ (d.phase = .started) ∧ (s.stalledTile k r = none) ∧ (s.rangeCheck d.client d.snap d.issueNt d.leased [⟨va, len, rows, stride, write⟩] = .ok e) ∧ (tilePages e ⟨va, len, rows, stride, write⟩ = [(p, a)]) ∧ (d.pages = []) ∧ (s.bmcLine k.q (keyClient k) e.seg e.gen (p / 512) = some l) ∧ (l.woken = []) ∧ (pageBit l.data p = true)) ∧
    (∃ (k : DescKey) (r : Nat) (va : Nat) (len : Nat) (rows : Nat) (stride : Nat) (write : Bool) (d : Desc) (status : Nat) (detail : Nat) (s : State),
      (s.engineUp k.q = true) ∧ (0 < len) ∧ (0 < rows) ∧ (rows ≤ 256) ∧ (rows * len ≤ 2 ^ 18) ∧ (s.desc k = some d) ∧ (d.phase = .started) ∧ (d.delivered = false) ∧ (s.que.tiles = []) ∧ (s.rcp.run = none) ∧ (s.rangeCheck d.client d.snap d.issueNt d.leased [⟨va, len, rows, stride, write⟩] = .error (status, detail))) ∧
    (∃ (k : DescKey) (r : Nat) (va : Nat) (len : Nat) (rows : Nat) (stride : Nat) (write : Bool) (d : Desc) (e : SegEnt) (p : Nat) (a : Nat) (s : State),
      (RegsKept s) ∧ (s.engineUp k.q = true) ∧ (0 < len) ∧ (0 < rows) ∧ (rows ≤ 256) ∧ (rows * len ≤ 2 ^ 18) ∧ (s.desc k = some d) ∧ (d.phase = .started) ∧ (s.stalledTile k r = none) ∧ (s.rangeCheck d.client d.snap d.issueNt d.leased [⟨va, len, rows, stride, write⟩] = .ok e) ∧ (tilePages e ⟨va, len, rows, stride, write⟩ = [(p, a)]) ∧ (d.pages = []) ∧ (s.bmcLine k.q (keyClient k) e.seg e.gen (p / 512) = none) ∧ (s.que.fills = [])) ∧
    (∃ (k : DescKey) (r : Nat) (va : Nat) (len : Nat) (rows : Nat) (stride : Nat) (write : Bool) (d : Desc) (e : SegEnt) (p : Nat) (a : Nat) (l : BmcLine) (n : Nat) (rec' : Nat) (s : State),
      (RegsKept s) ∧ (EventRoom s) ∧ (s.engineUp k.q = true) ∧ (0 < len) ∧ (0 < rows) ∧ (rows ≤ 256) ∧ (rows * len ≤ 2 ^ 18) ∧ (s.desc k = some d) ∧ (d.phase = .started) ∧ (s.stalledTile k r = none) ∧ (s.rangeCheck d.client d.snap d.issueNt d.leased [⟨va, len, rows, stride, write⟩] = .ok e) ∧ (tilePages e ⟨va, len, rows, stride, write⟩ = [(p, a)]) ∧ (d.pages = []) ∧ (s.bmcLine k.q (keyClient k) e.seg e.gen (p / 512) = some l) ∧ (l.woken = []) ∧ (pageBit l.data p = false) ∧ (((List.range 64).find? fun r => s.recordIs k.q r d.client e p) = none) ∧ (((List.range 64).find? fun r => s.fld (Reg.SEG_FAULT_REC0 k.q r) Fld.SEG_FAULT_REC0_state == 0) = some rec') ∧ (((List.range 64).find? fun n => !s.on (Reg.SEG_STALL k.q n) Fld.SEG_STALL_valid) = some n)) :=
  ⟨⟨⟨1, 9, 5⟩, 7, 64, 64, 1, 0, true, { job 2 [] .started with snap := [seg2] }, seg2, 0, 64, ⟨5, 2, 4, 0, 1 :: List.replicate 63 0, []⟩, poolJob [] { job 2 [] .started with snap := [seg2] }, by decide +kernel⟩,
   ⟨⟨1, 9, 5⟩, 7, 2 ^ 30, 64, 1, 0, true, job 2 [] .started, 0x2001, faultDetail (2 ^ 30) 0xFF, poolJob [] (job 2 [] .started), by decide +kernel⟩,
   ⟨⟨1, 9, 5⟩, 7, 64, 64, 1, 0, true, { job 2 [] .started with snap := [{ seg2 with gen := 9 }] }, { seg2 with gen := 9 }, 0, 64, poolJob [] { job 2 [] .started with snap := [{ seg2 with gen := 9 }] }, by decide +kernel⟩,
   ⟨⟨1, 9, 5⟩, 7, 2 ^ 21, 64, 1, 0, true, { job 2 [] .started with snap := [{ seg2 with len := 2 ^ 22 }] }, { seg2 with len := 2 ^ 22 }, 1, 2 ^ 21, ⟨5, 2, 4, 0, 1 :: List.replicate 63 0, []⟩, 0, 0, poolJob [] { job 2 [] .started with snap := [{ seg2 with len := 2 ^ 22 }] }, by decide +kernel⟩⟩

theorem wit_FaultsAndBitmaps :
    (∃ (q : Quad) (c : Client) (seg : Fin 8) (gen : Nat) (line : Nat) (env : Env) (f : BmcFill) (data : List Byte) (b : Bool) (ids : List Nat) (s : State),
      (s.engineUp q = true) ∧ (q < s.que.bmc.length) ∧ ((s.que.fills.find? fun f => f.q == q.val && f.client == c.val && f.seg == seg.val && f.gen == gen && f.idx == line) = some f) ∧ ((s.poolRead env .lineCache [q, c, seg, gen, line, 2] (f.bitmap + 64 * line) 64).2 = .ok data b ids)) ∧
    (∃ (k : DescKey) (r : Nat) (d : Desc) (x : StallTile) (s : State),
      (s.engineUp k.q = true) ∧ (s.stalledTile k r = some x) ∧ (s.desc k = some d) ∧ (x.slot = none) ∧ ((s.lookPages k x.ent x.tile (s.knownOf x)).2 = .present)) ∧
    (∃ (path : Path) (q : Quad) (value : Word) (s : State),
      (RegsKept s) ∧ (s.fld (Reg.SEG_FAULT_REC0 q (getF value Fld.SEG_FAULT_RESOLVE_index)) Fld.SEG_FAULT_REC0_state = 1)) ∧
    (∃ (path : Path) (q : Quad) (value : Word) (x : StallTile) (d : Desc) (s : State),
      (RegsKept s) ∧ (s.fld (Reg.SEG_FAULT_REC0 q (getF value Fld.SEG_FAULT_RESOLVE_index)) Fld.SEG_FAULT_REC0_state = 1) ∧ (s.waitersOf q (getF value Fld.SEG_FAULT_RESOLVE_index) = [x]) ∧ (s.desc x.key = some d) ∧ (d.phase = .started) ∧ (d.delivered = false) ∧ (s.rcp.run = none) ∧ ((∀ y ∈ s.que.tiles, y.slot.getD 0 < 64 ∧ y.record.getD 0 < 64))) ∧
    (∃ (path : Path) (q : Quad) (value : Word) (s : State),
      (RegsKept s) ∧ (s.fld (Reg.SEG_FAULT_REC0 q (getF value Fld.SEG_FAULT_RESOLVE_index)) Fld.SEG_FAULT_REC0_state ≠ 1)) ∧
    (∃ (q : Quad) (r : Fin 64) (env : Env) (s : State),
      (RegsKept s) ∧ (s.engineUp q = true) ∧ (s.fld (Reg.SEG_FAULT_REC0 q r) Fld.SEG_FAULT_REC0_state = 2) ∧ (s.waitersOf q r = [])) ∧
    (∃ (q : Quad) (r : Fin 64) (s : State),
      (RegsKept s) ∧ (s.workStopped = false) ∧ (s.fld (Reg.SEG_CTL q) Fld.SEG_CTL_timeout_ms ≠ 0) ∧ (s.fld (Reg.SEG_FAULT_REC0 q r) Fld.SEG_FAULT_REC0_state = 1) ∧ ((s.reg (Reg.SEG_FAULT_REC3 q r)).toNat + s.fld (Reg.SEG_CTL q) Fld.SEG_CTL_timeout_ms * 1000000 ≤ s.nt) ∧ (s.waitersOf q r = [])) ∧
    (∃ (path : Path) (q : Quad) (value : Word) (s : State),
      (RegsKept s) ∧ (s.on (Reg.SEG_BMC_INV q) Fld.SEG_BMC_INV_busy = false) ∧ (getF value Fld.SEG_BMC_INV_client % 4 = q)) ∧
    (∃ (q : Quad) (s : State),
      (RegsKept s)) :=
  ⟨⟨1, 5, 2, 4, 0, noEnv, ⟨1, 5, 2, 4, 0, 2 ^ 22, [⟨1, 9, 5⟩]⟩, List.replicate 64 0, false, [], { poolJob [] (job 2 [] .started) with que := { Que.reset with fills := [⟨1, 5, 2, 4, 0, 2 ^ 22, [⟨1, 9, 5⟩]⟩] } }, by decide +kernel⟩,
   ⟨⟨1, 9, 5⟩, 7, { job 2 [] .started with snap := [seg2] }, ⟨⟨1, 9, 5⟩, 7, ⟨64, 64, 1, 0, true⟩, seg2, 0, 64, none, none⟩, ({ poolJob [] { job 2 [] .started with snap := [seg2] } with que := { (poolJob [] { job 2 [] .started with snap := [seg2] }).que with tiles := [⟨⟨1, 9, 5⟩, 7, ⟨64, 64, 1, 0, true⟩, seg2, 0, 64, none, none⟩] } } : State), by decide +kernel⟩,
   ⟨.firmware, 1, 3, st [(Reg.SEG_FAULT_REC0 1 3, Fld.SEG_FAULT_REC0_state, 1)], by decide +kernel⟩,
   ⟨.firmware, 1, 3, ⟨⟨1, 9, 5⟩, 7, ⟨64, 64, 1, 0, true⟩, seg2, 0, 64, some 6, some 3⟩, job 2 [] .started, { st [(Reg.SEG_FAULT_REC0 1 3, Fld.SEG_FAULT_REC0_state, 1)] with que := { Que.reset with descs := [job 2 [] .started], tiles := [⟨⟨1, 9, 5⟩, 7, ⟨64, 64, 1, 0, true⟩, seg2, 0, 64, some 6, some 3⟩] } }, by decide +kernel⟩,
   ⟨.firmware, 1, 3, st [], by decide +kernel⟩,
   ⟨1, 3, noEnv, st [(Reg.SEG_FAULT_REC0 1 3, Fld.SEG_FAULT_REC0_state, 2), (Reg.QUE_CTL 1, Fld.QUE_CTL_enable, 1), (Reg.SEG_FAULT_OPEN 1, Fld.SEG_FAULT_OPEN_open, 9)], by decide +kernel⟩,
   ⟨1, 3, { st [(Reg.SEG_FAULT_REC0 1 3, Fld.SEG_FAULT_REC0_state, 1), (Reg.SEG_CTL 1, Fld.SEG_CTL_timeout_ms, 5), (Reg.SEG_FAULT_OPEN 1, Fld.SEG_FAULT_OPEN_open, 9)] with time := ⟨5000000, 5000000, 0, 0⟩ }, by decide +kernel⟩,
   ⟨.firmware, 1, 5, { st [] with que := { Que.reset with bmc := [[], [⟨5, 2, 4, 0, [], []⟩, ⟨9, 2, 4, 0, [], []⟩], [], []] } }, by decide +kernel⟩,
   ⟨1, st [(Reg.SEG_BMC_INV 1, Fld.SEG_BMC_INV_busy, 1)], by decide +kernel⟩⟩

theorem wit_RegionsAndPublish :
    (∃ (path : Path) (q : Quad) (value : Word) (env : Env) (b : RegionBucket) (w : Nat) (s1 : State) (x : State × PoolSeen × List Nat) (s : State),
      (s.on (Reg.SHR_RGN_CTL q) Fld.SHR_RGN_CTL_busy = false) ∧ (s.on (Reg.SHR_CTL q) Fld.SHR_CTL_enable = true) ∧ (regionHome (s.reg (Reg.SHR_RGN_ID q)).toNat = q) ∧ (s.bucket env (s.reg (Reg.SHR_RGN_ID q)).toNat = (s1, some (.ok b))) ∧ (wayOf b.records (s.reg (Reg.SHR_RGN_ID q)).toNat = none) ∧ ((b.records.findIdx? fun r => !r.valid) = some w) ∧ (s1.writeRegion env (s.recordAt (s.reg (Reg.SHR_RGN_ID q)).toNat w / 64) (b.lineWith w ⟨(s.reg (Reg.SHR_RGN_ID q)).toNat, 0, true, 0xFFFF, 0, 0⟩) false = some x)) ∧
    (∃ (path : Path) (q : Quad) (value : Word) (env : Env) (b : RegionBucket) (w : Nat) (s1 : State) (x : State × PoolSeen × List Nat) (s : State),
      (s.on (Reg.SHR_RGN_CTL q) Fld.SHR_RGN_CTL_busy = false) ∧ (s.on (Reg.SHR_CTL q) Fld.SHR_CTL_enable = true) ∧ (regionHome (s.reg (Reg.SHR_RGN_ID q)).toNat = q) ∧ (s.bucket env (s.reg (Reg.SHR_RGN_ID q)).toNat = (s1, some (.ok b))) ∧ (wayOf b.records (s.reg (Reg.SHR_RGN_ID q)).toNat = some w) ∧ (s1.writeRegion env (s.recordAt (s.reg (Reg.SHR_RGN_ID q)).toNat w / 64) (b.lineWith w { b.record w with valid := false }) false = some x)) ∧
    (∃ (path : Path) (q : Quad) (value : Word) (env : Env) (b : RegionBucket) (w : Nat) (s1 : State) (x : State × PoolSeen × List Nat) (s : State),
      (s.on (Reg.SHR_RGN_CTL q) Fld.SHR_RGN_CTL_busy = false) ∧ (s.on (Reg.SHR_CTL q) Fld.SHR_CTL_enable = true) ∧ (regionHome (s.reg (Reg.SHR_RGN_ID q)).toNat = q) ∧ (s.bucket env (s.reg (Reg.SHR_RGN_ID q)).toNat = (s1, some (.ok b))) ∧ (wayOf b.records (s.reg (Reg.SHR_RGN_ID q)).toNat = some w) ∧ (s1.writeRegion env (s.recordAt (s.reg (Reg.SHR_RGN_ID q)).toNat w / 64) (b.lineWith w { b.record w with version := nextVersion (b.record w).version, publisher := 0xFFFF }) false = some x)) ∧
    (∃ (path : Path) (q : Quad) (value : Word) (env : Env) (s : State),
      (RegsKept s) ∧ (s.on (Reg.SHR_CTL q) Fld.SHR_CTL_enable = false)) ∧
    (∃ (k : DescKey) (env : Env) (d : Desc) (b : RegionBucket) (w : Nat) (e : SegEnt) (s1 : State) (x : State × PoolSeen × List Nat) (s : State),
      (s.jobOf k 0x07 = some d) ∧ (s.earlierDone d = true) ∧ (d.progress = 0) ∧ (s.on (Reg.SHR_CTL (regionHome (d.u 8 8))) Fld.SHR_CTL_enable = true) ∧ ((s.coh.actions.any fun a => a.id == d.u 8 8) = false) ∧ (s.bucket env (d.u 8 8) = (s1, some (.ok b))) ∧ (wayOf b.records (d.u 8 8) = some w) ∧ ((b.record w).version = d.u 16 4) ∧ (segOf d.snap (addrOf (d.u 24 8)) = some e) ∧ (s.paired d.client = false) ∧ (s1.writeRegion env (s.recordAt (d.u 8 8) w / 64) (b.lineWith w
        ⟨d.u 8 8, nextVersion (d.u 16 4), true, d.client, e.paOf (addrOf (d.u 24 8)), d.u 32 8⟩) true = some x) ∧ (x.2.1.lost = false) ∧ (x.1.rcp.run = none)) ∧
    (∃ (k : DescKey) (env : Env) (d : Desc) (b : RegionBucket) (w : Nat) (s1 : State) (s : State),
      (s.jobOf k 0x07 = some d) ∧ (s.earlierDone d = true) ∧ (d.progress = 0) ∧ (s.on (Reg.SHR_CTL (regionHome (d.u 8 8))) Fld.SHR_CTL_enable = true) ∧ ((s.coh.actions.any fun a => a.id == d.u 8 8) = false) ∧ (s.bucket env (d.u 8 8) = (s1, some (.ok b))) ∧ (wayOf b.records (d.u 8 8) = some w) ∧ ((b.record w).version ≠ d.u 16 4) ∧ (s1.rcp.run = none)) :=
  ⟨⟨.firmware, 1, 0, noEnv, bucketOf [], 0, rgRead none, _, rgSt none, by decide +kernel, by decide +kernel, by decide +kernel, by decide +kernel, by decide +kernel, by decide +kernel, some_getD (st [], ⟨false, false⟩, []) (by decide +kernel)⟩,
   ⟨.firmware, 1, 0, noEnv, bucketOf rg7, 0, rgRead (some 0), _, rgSt (some 0), by decide +kernel, by decide +kernel, by decide +kernel, by decide +kernel, by decide +kernel, some_getD (st [], ⟨false, false⟩, []) (by decide +kernel)⟩,
   ⟨.firmware, 1, 0, noEnv, bucketOf rg7, 0, rgRead (some 0), _, rgSt (some 0), by decide +kernel, by decide +kernel, by decide +kernel, by decide +kernel, by decide +kernel, some_getD (st [], ⟨false, false⟩, []) (by decide +kernel)⟩,
   ⟨.firmware, 1, 0, noEnv, st [], by decide +kernel⟩,
   ⟨⟨1, 9, 5⟩, noEnv, pubJob 7, bucketOf rg7, 0, seg2, rgRead (some 7), _, rgSt (some 7), by decide +kernel, by decide +kernel, by decide +kernel, by decide +kernel, by decide +kernel, by decide +kernel, by decide +kernel, by decide +kernel, by decide +kernel, by decide +kernel, some_getD (st [], ⟨false, false⟩, []) (by decide +kernel), by decide +kernel⟩,
   ⟨⟨1, 9, 5⟩, noEnv, pubJob 6, bucketOf rg7, 0, rgRead (some 6), rgSt (some 6), by decide +kernel⟩⟩

theorem wit_LeasesRun :
    (∃ (k : DescKey) (d : Desc) (e : Nat) (s : State),
      (RegsKept s) ∧ (s.jobOf k 0x08 = some d) ∧ (d.key = k) ∧ (s.rcp.run = none) ∧ (s.leaseOf d.client (d.u 8 8) = none) ∧ (((s.validSegs d.client).any fun x => x.lease == d.u 8 8) = true) ∧ (d.u 16 4 ≠ 0) ∧ (renewTo d.issueNt (d.u 16 4) < 2 ^ Fld.SHR_LEASE1_expiry_ms.width) ∧ (((List.range 256).find? fun e => s.fld (Reg.SHR_LEASE1 k.q e) Fld.SHR_LEASE1_state == 0) = some e)) ∧
    (∃ (k : DescKey) (d : Desc) (e : Nat) (s : State),
      (RegsKept s) ∧ (s.jobOf k 0x08 = some d) ∧ (d.key = k) ∧ (s.rcp.run = none) ∧ (s.leaseOf d.client (d.u 8 8) = some e) ∧ (s.leaseState k.q e = 1) ∧ (d.issueNt < s.fld (Reg.SHR_LEASE1 k.q e) Fld.SHR_LEASE1_expiry_ms * 1000000) ∧ (d.u 16 4 ≠ 0) ∧ (renewTo d.issueNt (d.u 16 4) < 2 ^ Fld.SHR_LEASE1_expiry_ms.width)) ∧
    (∃ (k : DescKey) (d : Desc) (s : State),
      (RegsKept s) ∧ (s.jobOf k 0x08 = some d) ∧ (d.key = k) ∧ (s.rcp.run = none) ∧ (s.leaseOf d.client (d.u 8 8) = none) ∧ (((s.validSegs d.client).any fun x => x.lease == d.u 8 8) = false)) ∧
    (∃ (q : Quad) (e : Fin 256) (s : State),
      (RegsKept s) ∧ (EventRoom s) ∧ (s.leaseState q e = 1) ∧ (s.fld (Reg.SHR_LEASE1 q e) Fld.SHR_LEASE1_expiry_ms * 1000000 ≤ s.nt) ∧ (s.workStopped = false) ∧ (s.paired (s.fld (Reg.SHR_LEASE1 q e) Fld.SHR_LEASE1_client) = false)) ∧
    (∃ (path : Path) (q : Quad) (value : Word) (s : State),
      (RegsKept s) ∧ (EventRoom s) ∧ (s.leaseState q (getF value Fld.SHR_LEASE_CTL_index) = 1) ∧ (getF value Fld.SHR_LEASE_CTL_release = 0)) ∧
    (∃ (path : Path) (q : Quad) (value : Word) (s : State),
      (RegsKept s) ∧ (s.leaseState q (getF value Fld.SHR_LEASE_CTL_index) ≠ 1) ∧ (getF value Fld.SHR_LEASE_CTL_release = 0)) ∧
    (∃ (path : Path) (q : Quad) (value : Word) (s : State),
      (RegsKept s) ∧ (s.leaseState q (getF value Fld.SHR_LEASE_CTL_index) = 4) ∧ (getF value Fld.SHR_LEASE_CTL_revoke = 0)) ∧
    (∃ (q : Quad) (e : Fin 256) (env : Env) (s : State),
      (RegsKept s) ∧ (EventRoom s) ∧ (s.leaseState q e = 2) ∧ (s.workStopped = false) ∧ (s.runs (s.fld (Reg.SHR_LEASE1 q e) Fld.SHR_LEASE1_client) = true) ∧ ((∀ d ∈ s.que.descs, d.client ≠ s.fld (Reg.SHR_LEASE1 q e) Fld.SHR_LEASE1_client ∨ (d.phase = .fetched ∧ d.journal ≠ 2))) ∧ (s.on (Reg.SHR_CTL q) Fld.SHR_CTL_zero_fill = false)) ∧
    (∃ (q : Quad) (e : Fin 256) (env : Env) (pages : List Nat) (skipped : Bool) (s : State),
      (RegsKept s) ∧ (s.leaseState q e = 2) ∧ (s.workStopped = false) ∧ (s.runs (s.fld (Reg.SHR_LEASE1 q e) Fld.SHR_LEASE1_client) = true) ∧ ((∀ d ∈ s.que.descs, d.client ≠ s.fld (Reg.SHR_LEASE1 q e) Fld.SHR_LEASE1_client ∨ (d.phase = .fetched ∧ d.journal ≠ 2))) ∧ (s.on (Reg.SHR_CTL q) Fld.SHR_CTL_zero_fill = true) ∧ ((s.leasePages env (s.fld (Reg.SHR_LEASE1 q e) Fld.SHR_LEASE1_client) (s.reg (Reg.SHR_LEASE0 q e)).toNat).2 = some (pages, skipped))) ∧
    (∃ (q : Quad) (e : Fin 256) (env : Env) (f : LeaseFill) (x : State) (s : State),
      (s.workStopped = false) ∧ ((s.leaseFills.find? fun f => f.q == q.val && f.e == e.val) = some f) ∧ (s.zeroPages env f.pages = some x) ∧ (RegsKept x)) :=
  ⟨⟨⟨1, 9, 5⟩, job 8 (leBytes 8 77 ++ leBytes 4 20) .started, 0, withJob [(Reg.SEG_ENTRY 1 1 3 5, ⟨0, 64⟩, 1), (Reg.SEG_ENTRY 1 1 3 4, ⟨0, 64⟩, 77)] (job 8 (leBytes 8 77 ++ leBytes 4 20) .started), by decide +kernel⟩,
   ⟨⟨1, 9, 5⟩, job 8 (leBytes 8 77 ++ leBytes 4 20) .started, 6, withJob [(Reg.SHR_LEASE0 1 6, ⟨0, 64⟩, 77), (Reg.SHR_LEASE1 1 6, Fld.SHR_LEASE1_state, 1), (Reg.SHR_LEASE1 1 6, Fld.SHR_LEASE1_client, 5), (Reg.SHR_LEASE1 1 6, Fld.SHR_LEASE1_expiry_ms, 3)] (job 8 (leBytes 8 77 ++ leBytes 4 20) .started), by decide +kernel⟩,
   ⟨⟨1, 9, 5⟩, job 8 (leBytes 8 77 ++ leBytes 4 20) .started, withJob [] (job 8 (leBytes 8 77 ++ leBytes 4 20) .started), by decide +kernel⟩,
   ⟨1, 6, { st [(Reg.SHR_LEASE1 1 6, Fld.SHR_LEASE1_state, 1), (Reg.SHR_LEASE1 1 6, Fld.SHR_LEASE1_client, 5), (Reg.SHR_LEASE1 1 6, Fld.SHR_LEASE1_expiry_ms, 3)] with time := ⟨3000000, 3000000, 0, 0⟩ }, by decide +kernel⟩,
   ⟨.firmware, 1, 6, st [(Reg.SHR_LEASE1 1 6, Fld.SHR_LEASE1_state, 1), (Reg.SHR_LEASE1 1 6, Fld.SHR_LEASE1_expiry_ms, 3)], by decide +kernel⟩,
   ⟨.firmware, 1, 6, st [(Reg.SHR_LEASE1 1 6, Fld.SHR_LEASE1_state, 2)], by decide +kernel⟩,
   ⟨.firmware, 1, 6, st [(Reg.SHR_LEASE1 1 6, Fld.SHR_LEASE1_state, 4), (Reg.SHR_LEASE0 1 6, ⟨0, 64⟩, 77)], by decide +kernel⟩,
   ⟨1, 6, noEnv, st [(Reg.SHR_LEASE1 1 6, Fld.SHR_LEASE1_state, 2), (Reg.SHR_CTL 1, Fld.SHR_CTL_zero_fill, 0)], by decide +kernel⟩,
   ⟨1, 6, noEnv, [], false, st [(Reg.SHR_LEASE1 1 6, Fld.SHR_LEASE1_state, 2), (Reg.SHR_CTL 1, Fld.SHR_CTL_zero_fill, 1)], by decide +kernel⟩,
   ⟨1, 6, noEnv, ⟨1, 6, [], false⟩, { st [(Reg.SHR_LEASE1 1 6, Fld.SHR_LEASE1_state, 3)] with leaseFills := [⟨1, 6, [], false⟩] }, { st [(Reg.SHR_LEASE1 1 6, Fld.SHR_LEASE1_state, 3)] with leaseFills := [⟨1, 6, [], false⟩] }, by decide +kernel, by decide +kernel, rfl, by decide +kernel⟩⟩

theorem wit_FlushAndLoss :
    (∃ (k : DescKey) (env : Env) (d : Desc) (e : SegEnt) (s : State),
      (s.jobOf k 0x05 = some d) ∧ (s.rcp.run = none) ∧ (segOf d.snap (addrOf (d.u 8 8)) = some e) ∧ (((List.range 4).flatMap fun q => s.coh.dir.getD q []) = [])) ∧
    (∃ (k : DescKey) (env : Env) (d : Desc) (e : SegEnt) (x : DirEntry) (g : State × Granted) (s : State),
      (s.jobOf k 0x05 = some d) ∧ (segOf d.snap (addrOf (d.u 8 8)) = some e) ∧ (((List.range 4).flatMap fun q => s.coh.dir.getD q []) = [x]) ∧ (2 ≤ x.state) ∧ (e.paOf (addrOf (d.u 8 8)) / 64 ≤ x.line) ∧ (x.line ≤ (e.paOf (addrOf (d.u 8 8)) + d.u 16 8 - 1) / 64) ∧ ((s.homeOf x.line).isSome = true) ∧ (s.serve env ⟨.agent 15, 0, .flush, x.line, 0, []⟩ = some g) ∧ (g.1.rcp.run = none)) ∧
    (∃ (ecc : EccList) (l : Loss) (s : State),
      (RegsKept s) ∧ (EventRoom s) ∧ (s.workStopped = false) ∧ (s.coh.losses = [l]) ∧ (l.walked = true) ∧ (l.lines = []) ∧ ((∀ q : Quad, s.inSlabs (s.fld (Reg.SHR_RGN_BASE q) Fld.SHR_RGN_BASE_base) (2 ^ 21) = false))) :=
  ⟨⟨⟨1, 9, 5⟩, noEnv, { job 5 (leBytes 8 64 ++ leBytes 8 64) .started with snap := [seg2] }, seg2, withJob [] { job 5 (leBytes 8 64 ++ leBytes 8 64) .started with snap := [seg2] }, by decide +kernel⟩,
   ⟨⟨1, 9, 5⟩, noEnv, flushJob, seg2, ⟨1, 3, [some 2, none, none, none], false, false, none, 0⟩, (flushSt.serve noEnv ⟨.agent 15, 0, .flush, 1, 0, []⟩).getD (st [], ⟨.i, none, 0, false, []⟩), flushSt, by decide +kernel, by decide +kernel, by decide +kernel, by decide +kernel, by decide +kernel, by decide +kernel, by decide +kernel, rfl, by decide +kernel⟩,
   ⟨[], ⟨[2], 1, 0, [], [], true, 0, 0⟩, { st [(Reg.ILC_AGENT_CTL 0, Fld.ILC_AGENT_CTL_busy, 1)] with coh := { Coh.reset with losses := [⟨[2], 1, 0, [], [], true, 0, 0⟩] } }, by decide +kernel⟩⟩

theorem wit_BankAccesses :
    (∃ (st : Setting) (tag : Fin 16) (oa : Nat) (data : List Byte) (ecc : List EccResult) (bi : Nat) (k : Nat) (s : State),
      (Canonical s) ∧ (data.length = 32) ∧ (oa % 32 = 0) ∧ ((s.reqVerdict st .a ⟨tag, oa, false, .write data, ecc⟩).1 = .ok) ∧ (s.reqPlace st ⟨tag, oa, false, .write data, ecc⟩ = some (bi, k))) ∧
    (∃ (st : Setting) (tag : Fin 16) (oa : Nat) (n : Nat) (ecc : List EccResult) (bi : Nat) (k : Nat) (s : State),
      (RegsKept s) ∧ (ecc.any eccFails = false) ∧ ((s.reqVerdict st .a ⟨tag, oa, false, .read n, ecc⟩).1 = .ok) ∧ (s.reqPlace st ⟨tag, oa, false, .read n, ecc⟩ = some (bi, k))) ∧
    (∃ (st : Setting) (r : BankReq) (s : State),
      (RegsKept s) ∧ (portServes .b r.tag = false)) ∧
    (∃ (st : Setting) (r : BankReq) (kind : Nat) (bank : Nat) (s : State),
      (RegsKept s) ∧ (kind < 8) ∧ (s.reqVerdict st .a r = (.refused kind, bank))) ∧
    (∃ (st : Setting) (tag : Fin 16) (oa : Nat) (x : List Byte) (y : List Byte) (bi : Nat) (k : Nat) (s : State),
      (Canonical s) ∧ (Unwatched s) ∧ (x.length = 32) ∧ (y.length = 32) ∧ (oa % 32 = 0) ∧ ((s.reqVerdict st .a ⟨tag, oa, false, .write x, []⟩).1 = .ok) ∧ ((s.reqVerdict st .b ⟨tag, oa, false, .write y, []⟩).1 = .ok) ∧ (s.reqPlace st ⟨tag, oa, false, .write x, []⟩ = some (bi, k))) ∧
    (∃ (st : Setting) (port : Port) (tag : Fin 16) (oa : Nat) (op : LaneOp) (mask : Fin 256) (operand : List Byte) (ret : Bool) (ecc : List EccResult) (bi : Nat) (k : Nat) (s : State),
      (Canonical s) ∧ (ecc.any eccFails = false) ∧ ((s.reqVerdict st port ⟨tag, oa, false, .atomic op mask operand ret, ecc⟩).1 = .ok) ∧ (s.reqPlace st ⟨tag, oa, false, .atomic op mask operand ret, ecc⟩ = some (bi, k))) :=
  ⟨⟨3, 0, 64, List.replicate 32 7, [], 209, 0, bankSt 15 [(bankReg 192, Fld.BNK_BANK_owner, 0)], by decide +kernel⟩,
   ⟨3, 0, 64, 32, [.corrected], 209, 0, bankSt 15 [(bankReg 192, Fld.BNK_BANK_owner, 0)], by decide +kernel⟩,
   ⟨3, ⟨15, 64, false, .read 32, []⟩, bankSt 15 [], by decide +kernel⟩,
   ⟨3, ⟨11, 64, false, .read 32, []⟩, 1, 0, bankSt 15 [], by decide +kernel⟩,
   ⟨3, 0, 64, List.replicate 32 7, List.replicate 32 9, 209, 0, bankSt 15 [(bankReg 192, Fld.BNK_BANK_owner, 0)], by decide +kernel⟩,
   ⟨3, .a, 0, 64, .add32, 5, List.replicate 32 7, true, [], 209, 0, bankSt 15 [(bankReg 192, Fld.BNK_BANK_owner, 0)], by decide +kernel⟩⟩

theorem wit_BanksAreManaged :
    (∃ (path : Path) (st : Setting) (b : Fin 64) (value : Word) (s : State),
      (RegsKept s) ∧ (getF value Fld.BNK_BANK_owner ≠ s.bankOwner (bankIndex st b)) ∧ (getF value Fld.BNK_BANK_owner < 12) ∧ (s.bankOwner (bankIndex st b) ≠ 10) ∧ (s.on (bankReg (bankIndex st b)) Fld.BNK_BANK_busy = false) ∧ (getF value Fld.BNK_BANK_power = s.fld (bankReg (bankIndex st b)) Fld.BNK_BANK_power) ∧ (getF value Fld.BNK_BANK_clear = 0) ∧ (bankIndex st b ∉ s.banks.whole) ∧ (s.banks.testing.getD st none = none)) ∧
    (∃ (path : Path) (st : Setting) (b : Fin 64) (value : Word) (s : State),
      (RegsKept s) ∧ (getF value Fld.BNK_BANK_owner = s.bankOwner (bankIndex st b)) ∧ (getF value Fld.BNK_BANK_clear = 0) ∧ (s.on (bankReg (bankIndex st b)) Fld.BNK_BANK_busy = false) ∧ (s.fld (bankReg (bankIndex st b)) Fld.BNK_BANK_power ≠ 0) ∧ (s.bankPower (bankIndex st b) ≠ 0)) ∧
    (∃ (path : Path) (st : Setting) (b : Fin 64) (value : Word) (s : State),
      (RegsKept s) ∧ (getF value Fld.BNK_BANK_owner = s.bankOwner (bankIndex st b)) ∧ (getF value Fld.BNK_BANK_clear = 0) ∧ (s.on (bankReg (bankIndex st b)) Fld.BNK_BANK_busy = false) ∧ (s.fld (bankReg (bankIndex st b)) Fld.BNK_BANK_power ≠ 1) ∧ (s.bankOwner (bankIndex st b) ≠ 9) ∧ (s.bankOwner (bankIndex st b) ≠ 10)) ∧
    (∃ (path : Path) (st : Setting) (b : Fin 64) (value : Word) (s : State),
      (RegsKept s) ∧ (getF value Fld.BNK_BANK_owner = s.bankOwner (bankIndex st b)) ∧ (getF value Fld.BNK_BANK_clear = 0) ∧ (s.on (bankReg (bankIndex st b)) Fld.BNK_BANK_busy = false) ∧ (s.fld (bankReg (bankIndex st b)) Fld.BNK_BANK_power ≠ 2) ∧ (s.bankOwner (bankIndex st b) ≠ 9) ∧ (s.bankOwner (bankIndex st b) ≠ 10)) ∧
    (∃ (st : Setting) (b : Fin 64) (from' : Nat) (target : Nat) (s : State),
      (Canonical s) ∧ (mwf powerDefault s.banks.power = true) ∧ ((s.banks.powering.find? fun p => p.1 == bankIndex st b) = some (bankIndex st b, from', target)) ∧ ((s.banks.held.any fun x => x.1 == st.val) = false)) ∧
    (∃ (path : Path) (st : Setting) (b : Fin 64) (value : Word) (s : State),
      (RegsKept s) ∧ (getF value Fld.BNK_BANK_owner = s.bankOwner (bankIndex st b)) ∧ (getF value Fld.BNK_BANK_power = s.fld (bankReg (bankIndex st b)) Fld.BNK_BANK_power) ∧ (s.on (bankReg (bankIndex st b)) Fld.BNK_BANK_busy = false) ∧ (s.banks.testing.getD st none = none)) ∧
    (∃ (st : Setting) (b : Fin 64) (s : State),
      (Canonical s) ∧ ((s.banks.handovers.any fun h => h.bank == bankIndex st b && h.clear) = true) ∧ (s.bankOwner (bankIndex st b) ≠ 9) ∧ ((s.banks.held.any fun x => x.1 == st.val) = false)) ∧
    (∃ (st : Setting) (b : Nat) (r : Nat) (s : State),
      (RegsKept s) ∧ (s.workStopped = false) ∧ (s.on (Reg.BNK_CTL (st / 8)) Fld.BNK_CTL_enable = true) ∧ (s.on (Reg.BNK_CTL (st / 8)) Fld.BNK_CTL_test_enable = true) ∧ (s.banks.testing.getD st none = none) ∧ (s.nextRegion st = some (b, r)) ∧ (s.banks.testNt.getD st 0 + s.fld (Reg.BNK_CTL (st / 8)) Fld.BNK_CTL_test_interval * 1000 ≤ s.nt)) ∧
    (∃ (st : Setting) (b : Nat) (r : Nat) (s : State),
      (RegsKept s) ∧ (b < 64) ∧ (s.banks.testing.getD st none = some (b, r))) ∧
    (∃ (st : Setting) (b : Nat) (r : Nat) (s : State),
      (RegsKept s) ∧ (EventRoom s) ∧ (b < 64) ∧ (s.banks.testing.getD st none = some (b, r)) ∧ (s.on (bankReg (st * 64 + b)) Fld.BNK_BANK_repaired = false)) ∧
    (∃ (st : Setting) (b : Fin 64) (s : State),
      (Canonical s) ∧ (bankIndex st b ∈ s.banks.whole)) ∧
    (∃ (st : Setting) (b : Fin 64) (h : Handover) (s : State),
      (RegsKept s) ∧ (s.workStopped = false) ∧ ((s.banks.handovers.find? fun h => h.bank == bankIndex st b && !h.clear) = some h) ∧ (h.old ≠ 9) ∧ (h.old ≠ 10) ∧ (h.new ≠ 9) ∧ ((s.banks.held.any fun x => x.1 == st.val) = false)) ∧
    (∃ (path : Path) (st : Setting) (b : Fin 64) (value : Word) (s : State),
      (RegsKept s) ∧ (getF value Fld.BNK_BANK_owner ≠ s.bankOwner (bankIndex st b)) ∧ (s.on (bankReg (bankIndex st b)) Fld.BNK_BANK_busy = true) ∧ (getF value Fld.BNK_BANK_power = s.fld (bankReg (bankIndex st b)) Fld.BNK_BANK_power) ∧ (getF value Fld.BNK_BANK_clear = 0)) ∧
    (∃ (st : Setting) (b : Nat) (r : Nat) (s : State),
      (RegsKept s) ∧ (EventRoom s) ∧ (b < 64) ∧ (s.banks.testing.getD st none = some (b, r)) ∧ (s.on (bankReg (st * 64 + b)) Fld.BNK_BANK_repaired = true) ∧ (s.banks.repaired.contains (st * 64 + b, r) = false)) :=
  ⟨⟨.firmware, 3, 1, 2, bankSt 15 [], by decide +kernel⟩,
   ⟨.firmware, 3, 1, 15, { bankSt 15 [(bankReg 193, Fld.BNK_BANK_power, 1)] with banks := { Banks.reset with power := [(193, 1)] } }, by decide +kernel⟩,
   ⟨.firmware, 3, 1, 15, bankSt 15 [], by decide +kernel⟩,
   ⟨.firmware, 3, 1, 15, bankSt 15 [], by decide +kernel⟩,
   ⟨3, 1, 0, 2, { bankSt 15 [(bankReg 193, Fld.BNK_BANK_busy, 1)] with banks := { Banks.reset with powering := [(193, 0, 2)], cells := [(bankKey 193 5, 7)], written := [(lineKey 193 0, true)] } }, by decide +kernel⟩,
   ⟨.firmware, 3, 1, 15, bankSt 15 [], by decide +kernel⟩,
   ⟨3, 1, { bankSt 15 [(bankReg 193, Fld.BNK_BANK_busy, 1)] with banks := { Banks.reset with handovers := [⟨193, 15, 15, true⟩], cells := [(bankKey 193 5, 7)], written := [(lineKey 193 0, true)] } }, by decide +kernel⟩,
   ⟨3, 1, 9, { bankSt 15 [(Reg.BNK_CTL 0, Fld.BNK_CTL_enable, 1), (Reg.BNK_CTL 0, Fld.BNK_CTL_test_enable, 1)] with banks := { Banks.reset with testNext := Banks.reset.testNext.set 3 265 }, time := ⟨10 ^ 9, 10 ^ 9, 0, 0⟩ }, by decide +kernel⟩,
   ⟨3, 1, 9, { bankSt 15 [(bankReg 193, Fld.BNK_BANK_testing, 1)] with banks := { Banks.reset with testing := Banks.reset.testing.set 3 (some (1, 9)) } }, by decide +kernel⟩,
   ⟨3, 1, 9, { bankSt 15 [(bankReg 193, Fld.BNK_BANK_testing, 1)] with banks := { Banks.reset with testing := Banks.reset.testing.set 3 (some (1, 9)) } }, by decide +kernel⟩,
   ⟨3, 1, { bankSt 11 [] with banks := { Banks.reset with whole := [193], cells := [(bankKey 193 5, 7)], written := [(lineKey 193 0, true)] } }, by decide +kernel⟩,
   ⟨3, 1, ⟨193, 15, 2, false⟩, { bankSt 2 [(bankReg 193, Fld.BNK_BANK_busy, 1)] with banks := { Banks.reset with handovers := [⟨193, 15, 2, false⟩] } }, by decide +kernel⟩,
   ⟨.firmware, 3, 1, 2, bankSt 15 [(bankReg 193, Fld.BNK_BANK_busy, 1)], by decide +kernel⟩,
   ⟨3, 1, 9, { bankSt 15 [(bankReg 193, Fld.BNK_BANK_testing, 1), (bankReg 193, Fld.BNK_BANK_repaired, 1)] with banks := { Banks.reset with testing := Banks.reset.testing.set 3 (some (1, 9)), repaired := [(193, 4)] } }, by decide +kernel⟩⟩

theorem wit_RecipesRun :
    (∃ (r : Run) (d : Desc) (o : Op) (s : State),
      (Unwatched s) ∧ (s.sequencer = some (r, d, o)) ∧ (o.code ≠ 0x10) ∧ (o.code ≠ 0x11) ∧ (s.acceptsOp r.key.q o.code = true) ∧ (r.insts.length < 8) ∧ ((r.insts.any fun i => r.recipe.depends (r.opOf i) o) = false)) ∧
    (∃ (n : Nat) (r : Run) (i : Inst) (d : Desc) (s : State),
      (RegsKept s) ∧ (Unwatched s) ∧ (s.inst n = some (r, i, d)) ∧ (i.done = true) ∧ (s.workStopped = false) ∧ (s.rcp.jobs = []) ∧ (s.rcp.transfers = []) ∧ (s.rcp.sums = []) ∧ (s.rcp.sends = []) ∧ (s.mirrorOpen i.waits = false) ∧ (s.mirrorOpen d.waits = false) ∧ (s.operandWrites r.key (fun p => p / 2 ^ 64 == n + 1) = []) ∧ ((r.insts.filter fun x => x.n != n) = []) ∧ (r.recipe.ops.length ≤ r.pc) ∧ (r.failed = false) ∧ (d.pieces = [])) ∧
    (∃ (r : Run) (d : Desc) (o : Op) (s : State),
      (s.sequencer = some (r, d, o)) ∧ (o.code = 0x10)) ∧
    (∃ (r : Run) (d : Desc) (o : Op) (s : State),
      (s.sequencer = some (r, d, o)) ∧ (o.code = 0x11) ∧ (r.insts = []) ∧ (r.advance.pc < r.recipe.ops.length)) ∧
    (∃ (path : Path) (value : Word) (s : State),
      (RegsKept s) ∧ (s.on (Reg.RCP_LOAD_CTL 0) Fld.RCP_LOAD_CTL_busy = false)) ∧
    (∃ (path : Path) (value : Word) (s : State),
      (RegsKept s) ∧ (s.on (Reg.RCP_LOAD_CTL 0) Fld.RCP_LOAD_CTL_busy = false) ∧ (getF value Fld.RCP_LOAD_CTL_go = 0)) ∧
    (∃ (path : Path) (value : Word) (s : State),
      (RegsKept s) ∧ (s.on (Reg.RCP_LOAD_CTL 0) Fld.RCP_LOAD_CTL_busy = true)) ∧
    (∃ (env : Env) (l : Loading) (s : State),
      (RegsKept s) ∧ (s.rcp.loading = some l) ∧ (l.load = false) ∧ (s.workStopped = false)) ∧
    (∃ (env : Env) (l : Loading) (code : Nat) (index : Nat) (s : State),
      (RegsKept s) ∧ (s.rcp.loading = some l) ∧ (l.load = true) ∧ (s.workStopped = false) ∧ (spaceOf l.src = 1) ∧ (s.ilcActive = true) ∧ (env.extFail = false) ∧ (loadCheck (padTo 6208 env.ext) = (code, index)) ∧ (code ≠ 0) ∧ (l.slot < 1024)) :=
  ⟨⟨runOf [opOf 7 1 0 64 []] [], runJob, ⟨7, 0, 0, 1, 0, 64, 0, List.replicate 8 0⟩, { facOn (runSt []) with rcp := { State.reset.rcp with run := some (runOf [opOf 7 1 0 64 []] []) } }, by decide +kernel⟩,
   ⟨0, { runOf [opOf 7 1 0 64 []] [{ inst0 with done := true }] with pc := 1 }, { inst0 with done := true }, runJob, { runSt [] with rcp := { State.reset.rcp with run := some { runOf [opOf 7 1 0 64 []] [{ inst0 with done := true }] with pc := 1 } } }, by decide +kernel⟩,
   ⟨runOf [opOf 16 64 64 64 (leBytes 2 4 ++ leBytes 1 1)] [], runJob, ⟨16, 0, 0, 64, 64, 64, 0, leBytes 2 4 ++ leBytes 1 1 ++ List.replicate 5 0⟩, { runSt [] with rcp := { State.reset.rcp with run := some (runOf [opOf 16 64 64 64 (leBytes 2 4 ++ leBytes 1 1)] []) } }, by decide +kernel⟩,
   ⟨runOf [opOf 17 64 64 64 [], opOf 7 1 0 64 []] [], runJob, ⟨17, 0, 0, 64, 64, 64, 0, List.replicate 8 0⟩, { runSt [] with rcp := { State.reset.rcp with run := some (runOf [opOf 17 64 64 64 [], opOf 7 1 0 64 []] []) } }, by decide +kernel⟩,
   ⟨.firmware, 3, st [(Reg.RCP_LOAD_SRC 0, ⟨0, 64⟩, 4096)], by decide +kernel⟩,
   ⟨.firmware, 70, st [(Reg.RCP_VALID 0 1, ⟨0, 64⟩, 64)], by decide +kernel⟩,
   ⟨.firmware, 3, st [(Reg.RCP_LOAD_CTL 0, Fld.RCP_LOAD_CTL_busy, 1)], by decide +kernel⟩,
   ⟨noEnv, ⟨3, 0, false⟩, { st [(Reg.RCP_LOAD_CTL 0, Fld.RCP_LOAD_CTL_busy, 1)] with rcp := { State.reset.rcp with loading := some ⟨3, 0, false⟩ } }, by decide +kernel⟩,
   ⟨noEnv, ⟨3, 2 ^ 48 + 64, true⟩, 1, 0, { st [(Reg.RCP_LOAD_CTL 0, Fld.RCP_LOAD_CTL_busy, 1), (Reg.ILC_STATUS 0, Fld.ILC_STATUS_state, 3)] with rcp := { State.reset.rcp with loading := some ⟨3, 2 ^ 48 + 64, true⟩ } }, by decide +kernel⟩⟩

theorem wit_RowOperations :
    (∃ (n : Nat) (env : Env) (r : Run) (i : Inst) (d : Desc) (s : State),
      (LastRow s n 0x02 r i d) ∧ (env.banks = []) ∧ (HomeDst s r i) ∧ (HomeOk s r (src0 r i) i.row) ∧ (r.recipe.slot? (r.opOf i).src1 ≠ none) ∧ (HomeOk s r (src1 r i) i.row)) ∧
    (∃ (n : Nat) (env : Env) (r : Run) (i : Inst) (d : Desc) (s : State),
      (LastRow s n 0x03 r i d) ∧ (env.banks = []) ∧ (HomeDst s r i) ∧ (HomeOk s r (src0 r i) i.row) ∧ (r.recipe.slot? (r.opOf i).src1 = none)) ∧
    (∃ (n : Nat) (env : Env) (r : Run) (i : Inst) (d : Desc) (s : State),
      (LastRow s n 0x04 r i d) ∧ (env.banks = []) ∧ (HomeDst s r i) ∧ (HomeOk s r (src0 r i) i.row) ∧ (CompanionRow s r (src1 r i)) ∧ (env.extFail = false)) ∧
    (∃ (n : Nat) (env : Env) (r : Run) (i : Inst) (d : Desc) (s : State),
      (LastRow s n 0x05 r i d) ∧ (env.banks = []) ∧ (HomeDst s r i) ∧ (HomeOk s r (src0 r i) i.row)) ∧
    (∃ (n : Nat) (env : Env) (r : Run) (i : Inst) (d : Desc) (s : State),
      (LastRow s n 0x06 r i d) ∧ (env.banks = []) ∧ (HomeDst s r i) ∧ (HomeOk s r (src0 r i) i.row)) ∧
    (∃ (n : Nat) (env : Env) (r : Run) (i : Inst) (d : Desc) (s : State),
      (LastRow s n 0x07 r i d) ∧ (env.banks = []) ∧ (HomeDst s r i) ∧ (HomeOk s r (src0 r i) i.row)) ∧
    (∃ (n : Nat) (env : Env) (r : Run) (i : Inst) (d : Desc) (s : State),
      (LastRow s n 0x09 r i d) ∧ (env.banks = []) ∧ (HomeDst s r i) ∧ (HomeOk s r (src0 r i) i.row) ∧ (HomeOk s r (src1 r i) i.row) ∧ (((r.opOf i).p 9 1).testBit 0 = false)) ∧
    (∃ (n : Nat) (env : Env) (r : Run) (i : Inst) (d : Desc) (s : State),
      (LastRow s n 0x0A r i d) ∧ (HomeDst s r i) ∧ (CompanionRow s r (src0 r i)) ∧ (env.extFail = false)) ∧
    (∃ (n : Nat) (env : Env) (r : Run) (i : Inst) (d : Desc) (s : State),
      (LastRow s n 0x0B r i d) ∧ (env.banks = []) ∧ (HomeOk s r (src0 r i) i.row) ∧ ((r.opOf i).sr = false) ∧ (slotSpace r.block (dstOf r i) = 1) ∧ (s.ilcActive = true) ∧ (toRow (dstOf r i).fmt [] false ((homeRow s r (src0 r i) i.row).map of32) ≠ [])) ∧
    (∃ (n : Nat) (env : Env) (r : Run) (i : Inst) (d : Desc) (s : State),
      (LastRow s n 0x0E r i d) ∧ (env.banks = []) ∧ ((src0 r i).kind ≠ 3) ∧ (HomeOk s r (src0 r i) i.row) ∧ (slotSpace r.block (dstOf r i) = 1) ∧ (s.ilcActive = true)) :=
  ⟨⟨0, noEnv, runOf [opOf 2 2 0 1 [1]] [inst0], inst0, runJob, runSt [opOf 2 2 0 1 [1]], by decide +kernel⟩,
   ⟨0, noEnv, runOf [opOf 3 2 0 64 [0]] [inst0], inst0, runJob, runSt [opOf 3 2 0 64 [0]], by decide +kernel⟩,
   ⟨0, { noEnv with ext := List.replicate 128 0 }, runOf [opOf 4 2 0 3 (leBytes 2 32 ++ leBytes 2 4 ++ leBytes 2 1)] [inst0], inst0, runJob, runSt [opOf 4 2 0 3 (leBytes 2 32 ++ leBytes 2 4 ++ leBytes 2 1)], by decide +kernel⟩,
   ⟨0, noEnv, runOf [opOf 5 2 0 64 (leBytes 2 32)] [inst0], inst0, runJob, runSt [opOf 5 2 0 64 (leBytes 2 32)], by decide +kernel⟩,
   ⟨0, noEnv, runOf [opOf 6 2 0 64 (leBytes 2 32 ++ [4])] [inst0], inst0, runJob, runSt [opOf 6 2 0 64 (leBytes 2 32 ++ [4])], by decide +kernel⟩,
   ⟨0, noEnv, runOf [opOf 7 2 0 64 []] [inst0], inst0, runJob, runSt [opOf 7 2 0 64 []], by decide +kernel⟩,
   ⟨0, noEnv, runOf [opOf 9 2 0 1 [1]] [inst0], inst0, runJob, runSt [opOf 9 2 0 1 [1]], by decide +kernel⟩,
   ⟨0, { noEnv with ext := List.replicate 128 7 }, runOf [opOf 10 2 3 64 [0]] [inst0], inst0, runJob, runSt [opOf 10 2 3 64 [0]], by decide +kernel⟩,
   ⟨0, noEnv, runOf [opOf 11 3 0 64 [0]] [inst0], inst0, runJob, runSt [opOf 11 3 0 64 [0]], by decide +kernel⟩,
   ⟨0, noEnv, runOf [opOf 14 3 0 64 []] [inst0], inst0, runJob, runSt [opOf 14 3 0 64 []], by decide +kernel⟩⟩

theorem wit_ChannelsRun :
    (∃ (k : DescKey) (env : Env) (d : Desc) (d' : Desc) (s' : State) (image : List Byte) (rebuilt : Bool) (ids : List Nat) (s : State),
      (s.desc k = some d) ∧ (d.phase = .issued) ∧ (d.op = 0x10) ∧ (d.progress = 0) ∧ (s.engineUp k.q = true) ∧ (s.hung k.q = false) ∧ (spaceOf (d.u 16 8) = 1) ∧ (s.ilcActive = true) ∧ (env.extFail = false) ∧ ((blockAsked s k d).storeValid (d.u 8 2) = true) ∧ ((blockAsked s k d).poolRead env .lineCache [k.q, k.j, k.seq, 9] ((blockAsked s k d).storeAt (d.u 8 2)) 8192 = (s', .ok image rebuilt ids)) ∧ ((recipeOf image).issueRanges (blockOf d env) = []) ∧ ((s'.noteRead k rebuilt).runRefused d (recipeOf image) (blockOf d env) = false) ∧ ((s'.noteRead k rebuilt).desc k = some d')) ∧
    (∃ (k : DescKey) (env : Env) (d : Desc) (s' : State) (image : List Byte) (rebuilt : Bool) (ids : List Nat) (s : State),
      (s.desc k = some d) ∧ (d.phase = .started) ∧ (d.op = 0x10) ∧ (s.engineUp k.q = true) ∧ (s.rcp.run = none) ∧ (s.on (Reg.RCP_CTL k.q) Fld.RCP_CTL_enable = true) ∧ (s.poolRead env .lineCache [k.q, k.j, k.seq, 9] (s.storeAt (d.u 8 2)) 8192 = (s', .ok image rebuilt ids))) ∧
    (∃ (n : Nat) (m : Nat) (env : Env) (r : Run) (i : Inst) (d : Desc) (s : State),
      (LastRow s n 0x08 r i d) ∧ (env.banks = []) ∧ (m < 32) ∧ ((r.opOf i).p 12 4 = 2 ^ m) ∧ ((∀ f, f < 8 → (s.windowVerdict m f (slicePlace (src0 r i) i.row) (src0 r i).rowLen).1 = .ok)) ∧ ((s.rcp.sums.any fun y => y.inst == n && y.id == i.row) = false)) ∧
    (∃ (n : Nat) (tag : Nat) (env : Env) (r : Run) (i : Inst) (d : Desc) (s : State),
      (LastRow s n 0x12 r i d) ∧ (env.banks = []) ∧ (HomeOk s r (src0 r i) i.row) ∧ (0 < (src0 r i).rowLen) ∧ ((src0 r i).rowLen ≤ 8160) ∧ (InputsKept s) ∧ (s.freeTag (clientQuad d.client) = some tag)) ∧
    (∃ (n : Nat) (r : Run) (i : Inst) (d : Desc) (c : Channel) (s : State),
      (s.instOf n 0x13 = some (r, i, d)) ∧ (s.recvChannel r i = some c) ∧ (c.whole = true)) ∧
    (∃ (n : Nat) (piece : Nat) (tag : Nat) (x : Sending) (r : Run) (i : Inst) (d : Desc) (s : State),
      (s.sending n piece = some x) ∧ (s.inst n = some (r, i, d)) ∧ (x.asked = false) ∧ (s.workStopped = false) ∧ (x.lastNt + 10000 ≤ s.nt) ∧ (InputsKept s) ∧ (s.freeTag (clientQuad d.client) = some tag)) ∧
    (∃ (n : Nat) (piece : Nat) (x : Sending) (first : Nat) (r : Run) (i : Inst) (d : Desc) (s : State),
      (RegsKept s) ∧ (s.sending n piece = some x) ∧ (s.inst n = some (r, i, d)) ∧ (x.firstNt = some first) ∧ (r.failed = false) ∧ (s.workStopped = false) ∧ (first + s.fld (Reg.RCP_CTL r.key.q) Fld.RCP_CTL_send_retry_ms * 1000000 ≤ s.nt) ∧ (worse 0xF002 r.status = true)) ∧
    (∃ (n : Nat) (r : Run) (i : Inst) (d : Desc) (c : Channel) (s : State),
      (s.instOf n 0x13 = some (r, i, d)) ∧ (s.recvChannel r i = some c) ∧ (c.whole = false) ∧ (i.nt + s.fld (Reg.RCP_CTL r.key.q) Fld.RCP_CTL_recv_timeout_ms * 1000000 ≤ s.nt) ∧ (worse 0xF002 r.status = true)) :=
  ⟨⟨⟨1, 9, 5⟩, noEnv, runIssued, { runIssued with delivered := true }, runRead.1, gotData runRead.2, false, [], runWait, by decide +kernel, by decide +kernel, by decide +kernel, by decide +kernel, by decide +kernel, by decide +kernel, by decide +kernel, by decide +kernel, by decide +kernel, by decide +kernel, got_ok (Prod.eta runRead).symm (by decide +kernel), by decide +kernel, runRead_runs, by decide +kernel⟩,
   ⟨⟨1, 9, 5⟩, noEnv, { runIssued with phase := .started }, runRead2.1, gotData runRead2.2, false, [], runWait2, by decide +kernel, by decide +kernel, by decide +kernel, by decide +kernel, by decide +kernel, by decide +kernel, got_ok (Prod.eta runRead2).symm (by decide +kernel)⟩,
   ⟨0, 3, noEnv, runOf [opOf 8 1 0 64 ([0, 0, 0, 0] ++ leBytes 4 8)] [inst0], inst0, runJob, runSt [opOf 8 1 0 64 ([0, 0, 0, 0] ++ leBytes 4 8)], by decide +kernel⟩,
   ⟨0, 1024, noEnv, runOf [opOf 18 64 0 64 [0, 1, 7]] [inst0], inst0, runJob, runSt [opOf 18 64 0 64 [0, 1, 7]], by decide +kernel⟩,
   ⟨0, runOf [opOf 19 0 64 64 [0, 0, 7]] [inst0], inst0, runJob, ⟨7, ⟨1, 9, 5⟩, 0, 4, 128, [(0, 0, 0)], [(0, 0, 128)]⟩, { runSt [opOf 19 0 64 64 [0, 0, 7]] with rcp := { (runSt [opOf 19 0 64 64 [0, 0, 7]]).rcp with channels := [⟨7, ⟨1, 9, 5⟩, 0, 4, 128, [(0, 0, 0)], [(0, 0, 128)]⟩] } }, by decide +kernel⟩,
   ⟨0, 0, 1024, ⟨0, 0, pk opActivation 2 0 0 [], some 0, 0, false⟩, runOf [opOf 18 64 0 64 []] [inst0], inst0, runJob, { runSt [opOf 18 64 0 64 []] with time := { State.reset.time with nt := 20000 }, rcp := { (runSt [opOf 18 64 0 64 []]).rcp with sends := [⟨0, 0, pk opActivation 2 0 0 [], some 0, 0, false⟩] } }, by decide +kernel⟩,
   ⟨0, 0, ⟨0, 0, pk opActivation 2 0 0 [], some 0, 0, false⟩, 0, runOf [opOf 18 64 0 64 []] [inst0], inst0, runJob, { runSt [opOf 18 64 0 64 []] with time := { State.reset.time with nt := 10 ^ 12 }, rcp := { (runSt [opOf 18 64 0 64 []]).rcp with sends := [⟨0, 0, pk opActivation 2 0 0 [], some 0, 0, false⟩] } }, by decide +kernel⟩,
   ⟨0, runOf [opOf 19 0 64 64 [0, 0, 7]] [inst0], inst0, runJob, ⟨7, ⟨1, 9, 5⟩, 0, 4, 128, [(0, 0, 0)], []⟩, { runSt [opOf 19 0 64 64 [0, 0, 7]] with time := { State.reset.time with nt := 10 ^ 12 }, rcp := { (runSt [opOf 19 0 64 64 [0, 0, 7]]).rcp with channels := [⟨7, ⟨1, 9, 5⟩, 0, 4, 128, [(0, 0, 0)], []⟩] } }, by decide +kernel⟩⟩

theorem wit_FacetsWork :
    (∃ (n : Nat) (r : Run) (i : Inst) (d : Desc) (s : State),
      (s.instOf n 0x01 = some (r, i, d)) ∧ (i.begun = false) ∧ (0 < (src0 r i).shardRows) ∧ ((src0 r i).shardRows ≤ 64)) ∧
    (∃ (st : Setting) (f : Fin 8) (fill : Bool) (env : Env) (j : FacetJob) (r : Run) (i : Inst) (d : Desc) (o : Op) (m : MatShape) (free : Nat) (rb : Nat) (t : Nat) (w : Doing) (tile : List Byte) (s : State),
      (s.jobAt st f fill = some j) ∧ (s.jobShape j = some (r, i, d, o, m)) ∧ (s.workStopped = false) ∧ (j.loaded < tileSeq m o.hold j.blocks.length 0 0) ∧ (s.decoderElsewhere st f fill = false) ∧ (free < r.recipe.ringSlots fill) ∧ ((∀ y, y < free → (j.slots.any fun x => x.2 == y) = true)) ∧ ((j.slots.any fun x => x.2 == free) = false) ∧ (rb = tileRowBlock m o.hold j) ∧ (t = (tileAt m o.hold j.loaded).2) ∧ (tileFetch s env st r i d m rb t = (w, tile)) ∧ (w.halt = .go) ∧ ((w.s.windowVerdict st f ((r.recipe.ringRange fill).1 * 32 + free * 9216) tile.length).1 = .ok) ∧ (badMasks m.w.dens (m.rowsOf rb) (cdiv (m.posOf t) 64) (tileMaskBytes m rb t tile) = [])) ∧
    (∃ (st : Setting) (f : Fin 8) (fill : Bool) (env : Env) (j : FacetJob) (r : Run) (i : Inst) (d : Desc) (o : Op) (m : MatShape) (slot : Nat) (s : State),
      (s.jobAt st f fill = some j) ∧ (s.jobShape j = some (r, i, d, o, m)) ∧ (Unwatched s) ∧ (RegsKept s) ∧ (s.workStopped = false) ∧ (env.banks = []) ∧ (o.hold = false) ∧ (j.full = false) ∧ (s.mayPass st f fill = true) ∧ ((j.slots.find? fun x => x.1 == (j.rb * m.sweeps + j.sweep) * m.tiles + j.tile) = some ((j.rb * m.sweeps + j.sweep) * m.tiles + j.tile, slot)) ∧ (m.rowsOf (j.blocks.getD j.rb 0) = 1) ∧ (m.tokensOf j.sweep = 1) ∧ (j.tok = 0) ∧ (m.tiles = j.tile + 1) ∧ ((s.windowVerdict st f ((r.recipe.ringRange fill).1 * 32 + slot * 9216) (tileBytes m (j.blocks.getD j.rb 0) j.tile)).1 = .ok) ∧ (((Doing.start s env).actsRead m st f j.tile (slicePlace m.a (256 * j.sweep))).halt = .go)) ∧
    (∃ (st : Setting) (f : Fin 8) (fill : Bool) (j : FacetJob) (r : Run) (i : Inst) (d : Desc) (o : Op) (m : MatShape) (s : State),
      (s.jobAt st f fill = some j) ∧ (s.jobShape j = some (r, i, d, o, m)) ∧ (s.workStopped = false) ∧ (j.full = true) ∧ (m.w.ks = 1) ∧ (m.sweeps ≤ j.sweep + 1) ∧ (j.blocks.length ≤ j.rb + 1)) ∧
    (∃ (mover : Fin 128) (env : Env) (x : Transfer) (m : Nat) (oa : Nat) (data : List Byte) (r : Run) (i : Inst) (d : Desc) (s : State),
      ((s.rcp.transfers.find? fun t => t.mover == mover.val) = some x) ∧ (x.puts = [.broadcast (2 ^ m) oa data]) ∧ (m < 32) ∧ (s.inst x.inst = some (r, i, d)) ∧ (s.workStopped = false) ∧ (Unwatched s) ∧ ((∀ f, f < 8 → (s.windowVerdict m f oa data.length).1 = .ok))) ∧
    (∃ (n : Nat) (sum : Nat) (source : Fin 36) (vals : List Nat) (x : Sum) (s : State),
      ((s.rcp.sums.find? fun y => y.inst == n && y.id == sum) = some x) ∧ (s.workStopped = false) ∧ (source.val < 32) ∧ ((x.moving.find? fun m => m.1 == source.val) = some (source.val, vals))) ∧
    (∃ (n : Nat) (sum : Nat) (source : Fin 36) (q : Nat) (vals : List Nat) (x : Sum) (s : State),
      ((s.rcp.sums.find? fun y => y.inst == n && y.id == sum) = some x) ∧ (s.workStopped = false) ∧ (source.val = 32 + q) ∧ (x.stage.getD q none = some vals) ∧ (x.joined.contains q = false) ∧ (x.moving = []) ∧ (x.expect = [0, 0, 0, 0]) ∧ ((∀ y, y < 4 → y ≠ q → x.stage.getD y none = none ∨ x.joined.contains y = true))) :=
  ⟨⟨0, matRun, inst0, matDesc, matSt [], by decide +kernel⟩,
   ⟨0, 0, false, noEnv, facetJob, matRun, inst0, matDesc, matRun.opOf inst0, matShape matRun.recipe (matRun.opOf inst0) 1, 0, 0, 0, matTile.1, matTile.2, matSt [facetJob], by decide +kernel, by decide +kernel, by decide +kernel, by decide +kernel, by decide +kernel, by decide +kernel, by decide +kernel, by decide +kernel, by decide +kernel, by decide +kernel, eta2 _, by decide +kernel⟩,
   ⟨0, 0, false, noEnv, { facetJob with slots := [(0, 1)], loaded := 1 }, matRun, inst0, matDesc, matRun.opOf inst0, matShape matRun.recipe (matRun.opOf inst0) 1, 1, matSt [{ facetJob with slots := [(0, 1)], loaded := 1 }], by decide +kernel⟩,
   ⟨0, 0, false, { facetJob with loaded := 1, full := true }, matRun, inst0, matDesc, matRun.opOf inst0, matShape matRun.recipe (matRun.opOf inst0) 1, matSt [{ facetJob with loaded := 1, full := true }], by decide +kernel⟩,
   ⟨14, noEnv, ⟨0, 14, [.broadcast 8 64 (List.replicate 32 7)]⟩, 3, 64, List.replicate 32 7, matRun, inst0, matDesc, { matSt [] with rcp := { (matSt []).rcp with transfers := [⟨0, 14, [.broadcast 8 64 (List.replicate 32 7)]⟩] } }, by decide +kernel⟩,
   ⟨0, 0, 9, [0x3F800000], sum0, { matSt [] with rcp := { (matSt []).rcp with sums := [sum0] } }, by decide +kernel⟩,
   ⟨0, 0, 33, 1, [7], { sum0 with moving := [], expect := [0, 0, 0, 0], stage := [none, some [7], none, none] }, { matSt [] with rcp := { (matSt []).rcp with sums := [{ sum0 with moving := [], expect := [0, 0, 0, 0], stage := [none, some [7], none, none] }] } }, by decide +kernel⟩⟩

theorem wit_ExpertsRun :
    (∃ (n : Nat) (env : Env) (r : Run) (i : Inst) (d : Desc) (w : Doing) (e : List Byte) (s : State),
      (s.instOf n 0x0D = some (r, i, d)) ∧ (i.begun = false) ∧ (s.exd.work = none) ∧ (d.batch = 1) ∧ (env.banks = []) ∧ ((r.opOf i).p 12 1 = 1) ∧ (((r.opOf i).p 13 1).testBit 0 = true) ∧ ((Doing.start s env).entryOf env r.key (expertIndex r i) = (w, e)) ∧ (w.halt = .go) ∧ (w.s.expertBad (expertIndex r i) e (exOpPlan r (r.opOf i) 1) = false) ∧ ((w.s.windowVerdict (homePlace r.block (dstOf r i) 0).1 (homePlace r.block (dstOf r i) 0).2.1 (homePlace r.block (dstOf r i) 0).2.2 (4 * (dstOf r i).cols)).1 = .ok) ∧ ((w.s.windowVerdict (homePlace r.block (src1 r i) 0).1 (homePlace r.block (src1 r i) 0).2.1 (homePlace r.block (src1 r i) 0).2.2 (4 * (2 * (r.opOf i).p 8 1))).1 = .ok) ∧ (gateNan e ((r.opOf i).p 8 1) (routerLanes w.s r i (2 * (r.opOf i).p 8 1)) (routerChoices w.s r i e) true = false)) ∧
    (∃ (env : Env) (x : Expert) (e1 : Nat) (w1 : Nat) (h : Holder) (w : Doing) (pl : List Byte) (s : State),
      (s.expertNow = some x) ∧ (x.phase = 1) ∧ (x.cands = [[some (e1, w1)]]) ∧ (x.plan.k = 1) ∧ (x.plan.choices = true) ∧ (x.spills = []) ∧ (e1 < exN x.entry) ∧ (exLoad x.entry = 0) ∧ ((Doing.start s env).paRead env x.key .lineCache (exPlacement x.entry) (32 * exN x.entry) 1 = (w, pl)) ∧ (w.halt = .go) ∧ (Unwatched w.s) ∧ (holdersOf pl e1 = [h]) ∧ (w.s.holderOk x.entry h = true) ∧ (0 < expertCap s.failedStacks x.entry pl e1)) ∧
    (∃ (st : Setting) (env : Env) (x : Expert) (g : ExpGroup) (at' : Nat) (s : State),
      (s.expertNow = some x) ∧ (4 ≤ x.phase) ∧ ((x.groups.zipIdx.find? fun y => y.1.st == st.val) = some (g, at')) ∧ (((Doing.start s env).routedChunk env x g).halt = .go) ∧ (((Doing.start s env).routedChunk env x g).counted.exd.work = some x)) ∧
    (∃ (env : Env) (x : Expert) (s : State),
      (s.expertNow = some x) ∧ (x.phase = 4) ∧ (exShared x.entry ≠ 0) ∧ (x.sharedA = false) ∧ (s.fillsRun = true) ∧ (((Doing.start s env).sharedPhaseA env x).halt = .go)) ∧
    (∃ (env : Env) (x : Expert) (s : State),
      (s.expertNow = some x) ∧ (4 ≤ x.phase) ∧ (x.groups = []) ∧ ((x.spills.any fun g => g.state == 1) = false) ∧ (exShared x.entry = 0) ∧ (x.inst = none)) ∧
    (∃ (env : Env) (x : Expert) (n : Nat) (r : Run) (i : Inst) (d : Desc) (s : State),
      (s.expertNow = some x) ∧ (4 ≤ x.phase) ∧ (x.groups = []) ∧ ((x.spills.any fun g => g.state == 1) = false) ∧ (exShared x.entry = 0) ∧ (x.inst = some n) ∧ (s.inst n = some (r, i, d))) ∧
    (∃ (k : DescKey) (env : Env) (d : Desc) (w : Doing) (e : List Byte) (s : State),
      (s.issuingOf k 0x11 = some d) ∧ ((Doing.start s env).entryOf env d.key (d.u 4 2) = (w, e)) ∧ (w.halt = .go) ∧ ((w.s.batchShape d e).perFacet ≠ 0)) ∧
    (∃ (k : DescKey) (env : Env) (d : Desc) (w : Doing) (s : State),
      (s.issuingOf k 0x11 = none) ∧ (s.jobOf k 0x11 = some d) ∧ (s.exd.work = none) ∧ (s.on (Reg.EXD_CTL k.q) Fld.EXD_CTL_enable = true) ∧ (d.progress = 0) ∧ (w = (Doing.start { s with exd := { s.exd with batchPairs := 0, batchBytes := 0 } } env).subBatch env d 0) ∧ (w.halt = .go)) ∧
    (∃ (k : DescKey) (env : Env) (d : Desc) (x : Expert) (d' : Desc) (s : State),
      (s.jobOf k 0x11 = some d) ∧ (s.exd.work = some x) ∧ (x.key = k) ∧ (x.closed = true) ∧ (s.workStopped = false) ∧ (((Doing.start s env).batchOut env d x).halt = .go) ∧ (((Doing.start s env).batchOut env d x).s.desc k = some d') ∧ (((Doing.start s env).batchOut env d x).s.runOf d'.key = none) ∧ (d'.u 8 2 ≤ x.first + x.plan.tokens)) ∧
    (∃ (k : DescKey) (env : Env) (d : Desc) (x : Expert) (d' : Desc) (s : State),
      (s.jobOf k 0x11 = some d) ∧ (s.exd.work = some x) ∧ (x.key = k) ∧ (x.closed = true) ∧ (s.workStopped = false) ∧ (((Doing.start s env).batchOut env d x).halt = .go) ∧ (((Doing.start s env).batchOut env d x).s.desc k = some d') ∧ (x.first + x.plan.tokens < d'.u 8 2)) :=
  ⟨⟨0, noEnv, expRun, inst0, matDesc, expEntered.1, expEntered.2, expSt, by decide +kernel, by decide +kernel, by decide +kernel, by decide +kernel, by decide +kernel, by decide +kernel, by decide +kernel, eta2 _, by decide +kernel⟩,
   ⟨noEnv, expAdmit, 1, 0x3F800000, ⟨0, 0⟩, expPlaced.1, expPlaced.2, expAdmitSt, by decide +kernel, by decide +kernel, by decide +kernel, by decide +kernel, by decide +kernel, by decide +kernel, by decide +kernel, by decide +kernel, eta2 _, by decide +kernel⟩,
   ⟨3, noEnv, { expOf (some 0) [] 4 with groups := [⟨0, 3, 0, [(0, 0)], 1⟩] }, ⟨0, 3, 0, [(0, 0)], 1⟩, 0, expIn { expOf (some 0) [] 4 with groups := [⟨0, 3, 0, [(0, 0)], 1⟩] } (poolJob [] matDesc), by decide +kernel⟩,
   ⟨noEnv, expOf (some 0) (List.replicate 32 0 ++ [1]) 4, expIn (expOf (some 0) (List.replicate 32 0 ++ [1]) 4) (poolJob fillOn matDesc), by decide +kernel⟩,
   ⟨noEnv, expOf none [] 4, expIn (expOf none [] 4) (poolJob [] matDesc), by decide +kernel⟩,
   ⟨noEnv, expOf (some 0) [] 4, 0, expRun, inst0, matDesc, expIn (expOf (some 0) [] 4) expSt, by decide +kernel⟩,
   ⟨⟨1, 9, 5⟩, noEnv, batchIssuing, batchEntered.1, batchEntered.2, batchIssueSt, by decide +kernel, eta2 _, by decide +kernel, batchEntered_holds⟩,
   ⟨⟨1, 9, 5⟩, noEnv, batchOne, batchBegun, batchOneSt, by decide +kernel, by decide +kernel, by decide +kernel, by decide +kernel, by decide +kernel, rfl, batchBegun_goes⟩,
   ⟨⟨1, 9, 5⟩, noEnv, batchJob 0, { expOf none [] 6 with closed := true }, batchJob 0, expIn { expOf none [] 6 with closed := true } batchSt, by decide +kernel⟩,
   ⟨⟨1, 9, 5⟩, noEnv, { batchJob 0 with bytes := padTo 64 (17 :: List.replicate 7 0 ++ [1]) }, { expOf none [] 6 with closed := true }, { batchJob 0 with bytes := padTo 64 (17 :: List.replicate 7 0 ++ [1]) }, expIn { expOf none [] 6 with closed := true } { batchSt with que := { batchSt.que with descs := [{ batchJob 0 with bytes := padTo 64 (17 :: List.replicate 7 0 ++ [1]) }] } }, by decide +kernel⟩⟩

theorem wit_AttentionRuns :
    (∃ (k : DescKey) (env : Env) (d : Desc) (d' : Desc) (s' : State) (s : State),
      (s.issuingOf k 0x13 = some d) ∧ (s.issueChecks d.key d (s.appendRanges d) = (s', some none)) ∧ (s'.desc d.key = some d')) ∧
    (∃ (k : DescKey) (env : Env) (d : Desc) (w : Doing) (h : PageTable) (es : List Nat) (d' : Desc) (s : State),
      (s.issuingOf k 0x13 = none) ∧ (s.jobOf k 0x13 = some d) ∧ ((Doing.start s env).appendPlan env d = (w, some (h, es))) ∧ ((w.appendRows env d h es).halt = .go) ∧ ((w.appendRows env d h es).s.desc k = some d') ∧ ((w.appendRows env d h es).s.runOf k = none)) ∧
    (∃ (k : DescKey) (env : Env) (d : Desc) (d' : Desc) (w : Doing) (l : List Byte) (s : State),
      (s.issuingOf k 0x12 = some d) ∧ ((Doing.start s env).fetch env d.key (256 + d.key.q.val) .lineCache (spaceOf (d.u 16 8)) (addrOf (d.u 16 8)) (32 * d.seqCount) 0 = (w, l)) ∧ (w.halt = .go) ∧ (w.s.desc d.key = some d') ∧ ((∀ n, n < d'.seqCount → ∀ f, f < 8 → w.s.ownedBanks (seqHome l n) f ≠ []))) ∧
    (∃ (k : DescKey) (env : Env) (d : Desc) (d' : Desc) (s : State),
      (s.issuingOf k 0x12 = none) ∧ (s.jobOf k 0x12 = some d) ∧ (s.attn = none) ∧ ((windowsUsed s env d).halt = .go) ∧ ((windowsUsed s env d).s.desc k = some d')) ∧
    (∃ (n : Fin 4096) (env : Env) (a : AttnWork) (d : Desc) (w : Doing) (pages : Nat) (len : Nat) (d' : Desc) (s : State),
      (s.attn = some a) ∧ (s.jobOf a.key 0x12 = some d) ∧ (n.val < d.seqCount) ∧ (a.finished.contains n.val = false) ∧ (s.workStopped = false) ∧ ((∀ i, i < n.val → seqHome a.list i = seqHome a.list n → a.finished.contains i = true)) ∧ ((Doing.start s env).sequence env d a.list n = (w, pages, len)) ∧ (w.halt = .go) ∧ (w.s.desc a.key = some d') ∧ (a.finished.length + 1 ≠ d'.seqCount)) ∧
    (∃ (n : Fin 4096) (env : Env) (a : AttnWork) (d : Desc) (w : Doing) (pages : Nat) (len : Nat) (d' : Desc) (s : State),
      (s.attn = some a) ∧ (s.jobOf a.key 0x12 = some d) ∧ (n.val < d.seqCount) ∧ (a.finished.contains n.val = false) ∧ (s.workStopped = false) ∧ ((∀ i, i < n.val → seqHome a.list i = seqHome a.list n → a.finished.contains i = true)) ∧ ((Doing.start s env).sequence env d a.list n = (w, pages, len)) ∧ (w.halt = .go) ∧ (w.s.desc a.key = some d') ∧ (a.finished.length + 1 = d'.seqCount) ∧ (w.s.runOf d'.key = none)) ∧
    (∃ (n : Nat) (env : Env) (r : Run) (i : Inst) (d : Desc) (w : Doing) (r' : Run) (i' : Inst) (d' : Desc) (s : State),
      (LastRow s n 0x0C r i d) ∧ (w = (Doing.start s env).attnRow env r i d i.row) ∧ (w.halt = .go) ∧ (w.counted.inst n = some (r', i', d'))) :=
  ⟨⟨⟨1, 9, 5⟩, noEnv, kvJob .issued, kvJob .issued, poolJob [] (kvJob .issued), poolJob [] (kvJob .issued), by decide +kernel, rfl, by decide +kernel⟩,
   ⟨⟨1, 9, 5⟩, noEnv, kvJob .started, kvPlanned.1, kvTable, [256], descIn (kvPlanned.1.appendRows noEnv (kvJob .started) kvTable [256]).s, kvSt, by decide +kernel⟩,
   ⟨⟨1, 9, 5⟩, noEnv, stepJob 0 .issued, stepJob 0 .issued, Doing.start (poolJob [] (stepJob 0 .issued)) noEnv, [], poolJob [] (stepJob 0 .issued), by decide +kernel, rfl, by decide +kernel⟩,
   ⟨⟨1, 9, 5⟩, noEnv, stepJob 0 .started, stepJob 0 .started, poolJob [] (stepJob 0 .started), by decide +kernel⟩,
   ⟨0, noEnv, seqWork 2, stepJob 2 .started, (seqDone 2).1, (seqDone 2).2.1, (seqDone 2).2.2, descIn (seqDone 2).1.s, seqSt 2, by decide +kernel, by decide +kernel, by decide +kernel, by decide +kernel, by decide +kernel, by decide +kernel, eta3 _, by decide +kernel⟩,
   ⟨0, noEnv, seqWork 1, stepJob 1 .started, (seqDone 1).1, (seqDone 1).2.1, (seqDone 1).2.2, descIn (seqDone 1).1.s, seqSt 1, by decide +kernel, by decide +kernel, by decide +kernel, by decide +kernel, by decide +kernel, by decide +kernel, eta3 _, by decide +kernel⟩,
   ⟨0, noEnv, attnRun, inst0, matDesc, attnWorked, attnRun, inst0, descIn attnWorked.counted, attnSt, by decide +kernel, rfl, by decide +kernel⟩⟩

theorem wit_SpillsWork :
    (∃ (port : Fin 36) (p : Packet) (env : Env) (t : State) (x : Expert) (g : SpillOut) (s : State),
      (s.spillIn port p 1 = (some t, t)) ∧ (t.spillOut p = some (x, g)) ∧ (g.state = 0) ∧ (((Doing.start t env).sendRows x g).halt = .go)) ∧
    (∃ (port : Fin 36) (p : Packet) (t : State) (x : Expert) (g : SpillOut) (s : State),
      (s.spillIn port p 2 = (some t, t)) ∧ (t.spillOut p = some (x, g)) ∧ (g.state = 0) ∧ (RegsKept t) ∧ (((x.setSpill { g with state := 2 }).spills.all fun y => y.state != 0) = false)) ∧
    (∃ (x : Expert) (s : State),
      (s.expertNow = some x) ∧ (x.phase = 3) ∧ ((x.spills.filter fun g => g.state == 0) ≠ []) ∧ (x.askedNt + s.fld (Reg.EXD_CTL x.key.q) Fld.EXD_CTL_answer_us * 1000 ≤ s.nt)) ∧
    (∃ (port : Fin 36) (p : Packet) (env : Env) (t : State) (x : Expert) (g : SpillOut) (b : Nat) (wt : Nat) (s : State),
      (s.spillIn port p 4 = (some t, t)) ∧ (t.spillOut p = some (x, g)) ∧ (4 ≤ x.phase) ∧ (g.state = 1) ∧ (g.pairs[spCount p]? = some (b, wt)) ∧ (g.got.contains (spCount p, spOffset p, (spData p).length) = false) ∧ ((spOffset p, (spData p).length) ∈ fragments (2 * exH x.entry)) ∧ (((Doing.start t env).addOut (x.plan.dst.getD b (0, 0, 0)) (spOffset p / 2) ((rowWords .bf16 ((spData p).length / 2) (spData p)).map fun y => fmul32 wt y)).halt = .go)) ∧
    (∃ (group : Fin 65536) (x : Expert) (g : SpillOut) (s : State),
      (s.expertNow = some x) ∧ ((x.spills.find? fun y => y.id == group.val && y.state == 1) = some g) ∧ (g.nt + s.fld (Reg.EXD_CTL x.key.q) Fld.EXD_CTL_spill_timeout_us * 1000 ≤ s.nt)) ∧
    (∃ (port : Fin 36) (p : Packet) (t : State) (v : SpillServe) (s : State),
      (s.spillIn port p 3 = (some t, t)) ∧ (t.serveOf p.src (spGroup p) = some v) ∧ (spCount p < spCount v.req) ∧ ((v.rows.any fun r => r.1 == spCount p && r.2.1 == spOffset p) = false)) ∧
    (∃ (port : Fin 36) (p : Packet) (env : Env) (t : State) (w1 : Doing) (e : List Byte) (w : Doing) (pl : List Byte) (h : Holder) (s : State),
      (s.spillIn port p 0 = (some t, t)) ∧ (t.on (Reg.EXD_CTL 0) Fld.EXD_CTL_spill_serve = true) ∧ (spEntry p < 256) ∧ ((t.sealed && !t.isPeer p.src) = false) ∧ ((Doing.start t env).paRead env ⟨0, 0, spGroup p⟩ .lineCache (t.fld (Reg.EXD_TABLE 0) Fld.EXD_TABLE_base + 64 * spEntry p) 64 p.src = (w1, e)) ∧ (w1.paRead env ⟨0, 0, spGroup p⟩ .lineCache (exPlacement e) (32 * exN e) p.src = (w, pl)) ∧ (w.halt = .go) ∧ (w.s.serveHolder pl (spExpert p) = some h) ∧ (exServable e = true) ∧ (spExpert p < exN e) ∧ (spRowBytes p = 2 * exH e) ∧ (w.s.servedPairs + spCount p ≤ w.s.fld (Reg.EXD_SPILL_CFG 0) Fld.EXD_SPILL_CFG_max_pairs)) ∧
    (∃ (src : Fin 65536) (group : Fin 65536) (env : Env) (v : SpillServe) (w : Doing) (ys : List (List Nat)) (s : State),
      (s.serveOf src group = some v) ∧ (s.workStopped = false) ∧ (s.ownGroupsDone = true) ∧ ((∀ i, i < spCount v.req → v.row i ≠ none)) ∧ ((Doing.start s env).servedRows env ⟨0, 0, group⟩ v ((List.range (spCount v.req)).filterMap v.row) = (w, ys)) ∧ (w.halt = .go)) :=
  ⟨⟨0, spillPkt 1 1 0 [], noEnv, spillIn (spillX 3 0) (spillPkt 1 1 0 []) 1, spillX 3 0, spillG 0, spillSt (spillX 3 0), spillIn_some (by decide +kernel), by decide +kernel⟩,
   ⟨0, spillPkt 2 1 0 [], spillIn spillTwo (spillPkt 2 1 0 []) 2, spillTwo, spillG 0, spillSt spillTwo, spillIn_some (by decide +kernel), by decide +kernel⟩,
   ⟨spillX 3 0, { spillSt (spillX 3 0) with time := { State.reset.time with nt := 10 ^ 12 } }, by decide +kernel⟩,
   ⟨0, spillPkt 4 1 1024 (List.replicate 1024 0), noEnv, spillIn (spillX 4 1) (spillPkt 4 1 1024 (List.replicate 1024 0)) 4, spillX 4 1, spillG 1, 0, 0x3F800000, spillSt (spillX 4 1), spillIn_some (by decide +kernel), by decide +kernel⟩,
   ⟨0, spillX 4 1, spillG 1, { spillSt (spillX 4 1) with time := { State.reset.time with nt := 10 ^ 12 } }, by decide +kernel⟩,
   ⟨0, spillPkt 3 2 1024 (List.replicate 32 7), ((spillServing spillV).spillIn 0 (spillPkt 3 2 1024 (List.replicate 32 7)) 3).2, spillV, spillServing spillV, spillIn_some (by decide +kernel), by decide +kernel⟩,
   ⟨0, spillAsk, noEnv, spillAsked, spillEntry.1, spillEntry.2, spillPlaced.1, spillPlaced.2, ⟨0, 0⟩, spillServer, spillIn_some (by decide +kernel), by decide +kernel, by decide +kernel, by decide +kernel, eta2 _, eta2 _, by decide +kernel⟩,
   ⟨9, 0, noEnv, spillNone, Doing.start (spillServing spillNone) noEnv, [], spillServing spillNone, by decide +kernel, by decide +kernel, by decide +kernel, by decide +kernel, rfl, by decide +kernel⟩⟩

theorem wit_StacksFailAndPower :
    (∃ (n : Setting) (s : State),
      (s.stackFailed n = false) ∧ (s.fld (portStatus n) Fld.STK_PORT_STATUS_state ≠ 2)) ∧
    (∃ (n : Setting) (s : State),
      (s.fld (portStatus n) Fld.STK_PORT_STATUS_state = 1) ∧ (n.val ∉ s.pool.powerDown)) ∧
    (∃ (path : Path) (n : Setting) (value : Word) (s : State),
      (RegsKept s) ∧ (s.stackFailed n = false) ∧ (s.fld (portCtl n) Fld.STK_PORT_CTL_power = 1)) ∧
    (∃ (path : Path) (n : Setting) (value : Word) (s : State),
      (RegsKept s) ∧ (s.stackFailed n = false) ∧ (s.fld (portCtl n) Fld.STK_PORT_CTL_power ≠ 2)) ∧
    (∃ (path : Path) (n : Setting) (value : Word) (s : State),
      (RegsKept s) ∧ (s.stackFailed n = true)) ∧
    (∃ (n : Setting) (target : Nat) (s : State),
      (RegsKept s) ∧ ((s.pool.moving.find? fun x => x.1 == n.val) = some (n.val, target))) ∧
    (∃ (n : Setting) (s : State),
      (RegsKept s) ∧ (Unwatched s) ∧ (s.stackFailed n = false) ∧ (s.spareMode = false) ∧ (s.groupState (n / 8) < 2)) ∧
    (∃ (path : Path) (n : Setting) (value : Word) (s : State),
      (RegsKept s) ∧ (Unwatched s) ∧ (s.stackFailed n = false) ∧ (s.spareMode = false) ∧ (s.groupState (n / 8) < 2) ∧ (s.on (Reg.CLS_CTL (n / 8)) Fld.CLS_CTL_busy = false) ∧ (getF value Fld.CLS_CTL_stack = n.val % 8) ∧ (getF value Fld.CLS_CTL_reinstate = 0)) ∧
    (∃ (n : Setting) (s : State),
      (RegsKept s) ∧ (Unwatched s) ∧ (s.stackFailed n = false) ∧ (s.spareMode = true) ∧ (s.groupState (n / 8) = 0)) ∧
    (∃ (slab : Fin 14336) (s : State),
      (s.fld (slabReg slab) Fld.STK_SLAB_state = 1) ∧ (7 ≤ s.doneStep)) :=
  ⟨⟨19, st [], by decide +kernel⟩,
   ⟨19, st [(portStatus 19, Fld.STK_PORT_STATUS_state, 1)], by decide +kernel⟩,
   ⟨.firmware, 19, 0, st [(portCtl 19, Fld.STK_PORT_CTL_power, 1)], by decide +kernel⟩,
   ⟨.firmware, 19, 0, st [], by decide +kernel⟩,
   ⟨.firmware, 19, 0, st [(Reg.CLS_STATUS 2, Fld.CLS_STATUS_failed, 8)], by decide +kernel⟩,
   ⟨19, 2, { st [] with pool := { Pool.reset with moving := [(3, 1), (19, 2)] } }, by decide +kernel⟩,
   ⟨19, quiet [], by decide +kernel⟩,
   ⟨.firmware, 19, 3, quiet [], by decide +kernel⟩,
   ⟨19, quiet [(Reg.STK_CTL 0, Fld.STK_CTL_pool_mode, 1)], by decide +kernel⟩,
   ⟨5, st [(slabReg 5, Fld.STK_SLAB_state, 1), (Reg.CFG_BOOT_STATUS, Fld.CFG_BOOT_STATUS_done_step, 13)], by decide +kernel⟩⟩

theorem wit_GroupsRecover :
    (∃ (path : Path) (q : Quad) (value : Word) (s : State),
      (RegsKept s) ∧ (s.on (Reg.CLS_CTL q) Fld.CLS_CTL_busy = false) ∧ ((s.groupState q = 1 ∨ s.groupState q = 3)) ∧ (s.fld (Reg.CLS_STATUS q) Fld.CLS_STATUS_failed = 2 ^ getF value Fld.CLS_CTL_stack) ∧ (getF value Fld.CLS_CTL_fail = 0)) ∧
    (∃ (q : Quad) (from' : Nat) (failed : Nat) (j : Nat) (s : State),
      (RegsKept s) ∧ ((s.group q).atReinstate = some (from', failed)) ∧ ((s.group q).target = some j) ∧ (s.groupState q = from') ∧ (from' ≠ 4) ∧ (s.fld (Reg.CLS_STATUS q) Fld.CLS_STATUS_failed = failed) ∧ (j < 8) ∧ (q.val < s.pool.groups.length)) ∧
    (∃ (q : Quad) (from' : Nat) (failed : Nat) (j : Nat) (s : State),
      (RegsKept s) ∧ ((s.group q).atReinstate = some (from', failed)) ∧ ((s.group q).target = some j) ∧ (q.val < s.pool.groups.length)) ∧
    (∃ (q : Quad) (ecc : List (Nat × Nat × EccResult)) (j : Nat) (s' : State) (raw : List Byte) (via : ReadVia) (s : State),
      (s.workStopped = false) ∧ (7 ≤ s.doneStep) ∧ ((s.group q).task = .rebuild) ∧ ((s.group q).spareOf = some j) ∧ (sparePos (s.watermark q) ≠ j) ∧ (s.watermark q + 1 < rowCount) ∧ (s.readRow ecc q (s.watermark q) j allUnits = (s', raw, via)) ∧ (via ≠ .lost) ∧ ((s'.group q).task = .rebuild)) ∧
    (∃ (q : Quad) (ecc : List (Nat × Nat × EccResult)) (j : Nat) (s : State),
      (RegsKept s) ∧ (s.workStopped = false) ∧ (7 ≤ s.doneStep) ∧ ((s.group q).task = .rebuild) ∧ ((s.group q).spareOf = some j) ∧ (sparePos (s.watermark q) = j) ∧ (s.watermark q + 1 = rowCount) ∧ (q.val < s.pool.groups.length)) ∧
    (∃ (path : Path) (q : Quad) (value : Word) (s : State),
      (RegsKept s) ∧ (s.on (Reg.CLS_ROW_REPAIR q) Fld.CLS_ROW_REPAIR_busy = false) ∧ (s.on (Reg.CLS_ROW_LOG q (getF value Fld.CLS_ROW_REPAIR_entry)) Fld.CLS_ROW_LOG_valid = true)) ∧
    (∃ (path : Path) (q : Quad) (value : Word) (s : State),
      (RegsKept s) ∧ (s.on (Reg.CLS_ROW_REPAIR q) Fld.CLS_ROW_REPAIR_busy = true)) ∧
    (∃ (q : Quad) (s : State),
      (RegsKept s) ∧ (Unwatched s) ∧ (s.on (Reg.CLS_ROW_REPAIR q) Fld.CLS_ROW_REPAIR_busy = true) ∧ ((s.group q).waiting = []) ∧ ((s.group q).repairing < 256)) ∧
    (∃ (q : Quad) (s : State),
      (RegsKept s) ∧ (Unwatched s) ∧ (s.workStopped = false) ∧ (13 ≤ s.doneStep) ∧ (s.stale q (scrubRow s q) = false) ∧ ((∀ j ∈ s.members (scrubRow s q), s.working q (scrubRow s q) j = true)) ∧ (s.rowXor q (scrubRow s q) = zeroGranule) ∧ (scrubRow s q + 1 < rowCount)) ∧
    (∃ (q : Quad) (s : State),
      (RegsKept s) ∧ (Unwatched s) ∧ (EventRoom s) ∧ (s.workStopped = false) ∧ (13 ≤ s.doneStep) ∧ (s.stale q (scrubRow s q) = false) ∧ (s.groupState q ≠ 1) ∧ (s.groupState q ≠ 5) ∧ ((∀ j ∈ s.members (scrubRow s q), s.working q (scrubRow s q) j = true)) ∧ (s.rowXor q (scrubRow s q) ≠ zeroGranule) ∧ (scrubRow s q + 1 < rowCount)) :=
  ⟨⟨.firmware, 2, 3, st [(Reg.CLS_STATUS 2, Fld.CLS_STATUS_state, 1), (Reg.CLS_STATUS 2, Fld.CLS_STATUS_failed, 8)], by decide +kernel⟩,
   ⟨2, 1, 8, 3, withGroup [(Reg.CLS_STATUS 2, Fld.CLS_STATUS_state, 1), (Reg.CLS_STATUS 2, Fld.CLS_STATUS_failed, 8), (Reg.CLS_CTL 2, Fld.CLS_CTL_busy, 1)] { ClaspGroup.reset with atReinstate := some (1, 8), target := some 3 }, by decide +kernel⟩,
   ⟨2, 1, 8, 3, withGroup [(Reg.CLS_STATUS 2, Fld.CLS_STATUS_state, 1), (Reg.CLS_STATUS 2, Fld.CLS_STATUS_failed, 8), (Reg.CLS_CTL 2, Fld.CLS_CTL_busy, 1)] { ClaspGroup.reset with atReinstate := some (1, 8), target := some 3 }, by decide +kernel⟩,
   ⟨2, [], 3, rebuilt.1, rebuilt.2.1, rebuilt.2.2, rebuildSt, by decide +kernel, by decide +kernel, by decide +kernel, by decide +kernel, by decide +kernel, by decide +kernel, eta3 _, by decide +kernel⟩,
   ⟨2, [], sparePos (rowCount - 1), lastRowSt, by decide +kernel⟩,
   ⟨.firmware, 2, 9, st [(Reg.CLS_ROW_LOG 2 9, Fld.CLS_ROW_LOG_valid, 1)], by decide +kernel⟩,
   ⟨.firmware, 2, 9, st [(Reg.CLS_ROW_LOG 2 9, Fld.CLS_ROW_LOG_valid, 1), (Reg.CLS_ROW_REPAIR 2, Fld.CLS_ROW_REPAIR_busy, 1)], by decide +kernel⟩,
   ⟨2, withGroup [(Reg.LPE_CTL, Fld.LPE_CTL_enable, 0), (Reg.CLS_ROW_LOG 2 9, Fld.CLS_ROW_LOG_valid, 1), (Reg.CLS_ROW_REPAIR 2, Fld.CLS_ROW_REPAIR_busy, 1), (Reg.CLS_LOG_STATUS 2, Fld.CLS_LOG_STATUS_entries, 1)] { ClaspGroup.reset with repairing := 9 }, by decide +kernel⟩,
   ⟨2, quiet [(Reg.CFG_BOOT_STATUS, Fld.CFG_BOOT_STATUS_done_step, 13)], by decide +kernel⟩,
   ⟨2, { quiet [(Reg.CFG_BOOT_STATUS, Fld.CFG_BOOT_STATUS_done_step, 13)] with pool := { Pool.reset with cells := [(16 * 2 ^ 39, 5)] } }, by decide +kernel⟩⟩

theorem wit_RequestsAtTheHome :
    (∃ (st : Setting) (line : Nat) (l : LcLine) (s : State),
      (CacheFree s st line) ∧ (s.cachedNow st line = some l)) ∧
    (∃ (st : Setting) (line : Nat) (s : State),
      (CacheFree s st line) ∧ (s.cachedNow st line = none)) ∧
    (∃ (st : Setting) (line : Nat) (start : Fin 64) (d : List Byte) (l : LcLine) (s : State),
      (CacheFree s st line) ∧ (s.cachedNow st line = some l) ∧ ((l.state = .m ∨ l.state = .e)) ∧ (s.lcBanks st ≠ 0) ∧ (s.mirroring (line / 2 ^ 24) false = .no)) ∧
    (∃ (st : Setting) (txn : Nat) (line : Nat) (ecc : EccList) (r : CohReq) (q : Nat) (s' : State) (d : List Byte) (seen : PoolSeen) (s : State),
      (AtFreeHome s r q ⟨.setting st, .rdShared, line⟩) ∧ ((atHome s r q).dirEntry q line = none) ∧ ((atHome s r q).setFull q line = false) ∧ ((atHome s r q).stackLine ecc line = (s', d, seen)) ∧ (seen.lost = false)) ∧
    (∃ (st : Setting) (txn : Nat) (line : Nat) (ecc : EccList) (r : CohReq) (q : Nat) (s' : State) (d : List Byte) (seen : PoolSeen) (s : State),
      (AtFreeHome s r q ⟨.setting st, .rdOwn, line⟩) ∧ ((atHome s r q).dirEntry q line = none) ∧ ((atHome s r q).setFull q line = false) ∧ ((ownedBy (atHome s r q) q line s.coh.born (.setting st)).stackLine ecc line = (s', d, seen)) ∧ (seen.lost = false)) ∧
    (∃ (st : Setting) (txn : Nat) (line : Nat) (ecc : EccList) (r : CohReq) (q : Nat) (e : DirEntry) (s : State),
      (AtFreeHome s r q ⟨.setting st, .upgrade, line⟩) ∧ ((atHome s r q).dirEntry q line = some e) ∧ ((atHome s r q).holders e = [st.val]) ∧ (e.ptrs.contains (some st.val) = true)) ∧
    (∃ (st : Setting) (txn : Nat) (line : Nat) (ecc : EccList) (r : CohReq) (q : Nat) (s' : State) (d : List Byte) (seen : PoolSeen) (s : State),
      (AtFreeHome s r q ⟨.setting st, .rdCur, line⟩) ∧ ((atHome s r q).dirEntry q line = none) ∧ ((atHome s r q).stackLine ecc line = (s', d, seen)) ∧ (seen.lost = false)) ∧
    (∃ (st : Setting) (txn : Nat) (line : Nat) (mask : Nat) (data : List Byte) (ecc : EccList) (r : CohReq) (q : Nat) (s' : State) (seen : PoolSeen) (ids : List Nat) (s : State),
      (AtFreeHome s r q ⟨.setting st, .wrInv, line⟩) ∧ ((atHome s r q).dirEntry q line = none) ∧ (r.mask = 2 ^ 64 - 1) ∧ ((atHome s r q).writePool ecc (line * 64) (slice r.data 0 64) false = (s', seen, ids)) ∧ (seen.lost = false)) ∧
    (∃ (a : Fin 16) (txn : Nat) (line : Nat) (ecc : EccList) (s : State),
      (s.ilcActive = true) ∧ (a.val < 8) ∧ (s.agentState a = 0)) ∧
    (∃ (a : Fin 16) (txn : Nat) (line : Nat) (ecc : EccList) (s : State),
      (s.ilcActive = true) ∧ (a.val < 8) ∧ (s.agentState a = 1) ∧ (s.homeOf line ≠ none) ∧ (s.tenantSlab (line / 2 ^ 24) = false)) ∧
    (∃ (st : Setting) (txn : Nat) (line : Nat) (ecc : EccList) (d : List Byte) (q : Nat) (s' : State) (seen : PoolSeen) (ids : List Nat) (e : DirEntry) (s : State),
      (EvictingAt s st line (some d) q) ∧ (((offMesh s (.evict st line (some d))).countLookup q).writePool ecc (line * 64) d false = (s', seen, ids)) ∧ (s'.dirEntry q line = some e) ∧ ((e.remove st.val).empty = true)) ∧
    (∃ (st : Setting) (txn : Nat) (line : Nat) (ecc : EccList) (q : Nat) (e : DirEntry) (s : State),
      (EvictingAt s st line none q) ∧ (((offMesh s (.evict st line none)).countLookup q).dirEntry q line = some e) ∧ ((e.remove st.val).empty = true)) ∧
    (∃ (line : Nat) (ecc : EccList) (q : Nat) (r : CohReq) (s : State),
      (s.homeOf line = some q) ∧ ((s.coh.waiting.find? fun x => x.line == line) = some r) ∧ (s.homeReady q line (writesStack r.op) = true)) ∧
    (∃ (st : Setting) (line : Nat) (g : LineState) (status : Nat) (d : List Byte) (s : State),
      (s.workStopped = false) ∧ (g ≠ .i) ∧ (s.coh.msgs = [.reply st line g status (some d)]) ∧ ((s.coh.misses.filter fun x => x.st == st.val && x.line == line) = [⟨st, line, .read⟩])) ∧
    (∃ (st : Setting) (line : Nat) (s : State),
      (s.workStopped = false) ∧ (s.coh.msgs = [.evictDone st line])) ∧
    (∃ (st : Setting) (line : Nat) (l : LcLine) (s : State),
      (s.workStopped = false) ∧ (s.cached st line = some l) ∧ ((l.state = .e ∨ l.state = .s))) ∧
    (∃ (st : Setting) (line : Nat) (l : LcLine) (s : State),
      (s.workStopped = false) ∧ (s.cached st line = some l) ∧ ((l.state = .m ∨ l.state = .o)) ∧ (s.on (bankReg l.bank) Fld.BNK_BANK_failed = false)) :=
  ⟨⟨2, 1, lc2 .s, { cohSt [] with coh := { Coh.reset with caches := Coh.reset.caches.set 2 [lc2 .s] } }, by decide +kernel⟩,
   ⟨2, 1, cohSt [], by decide +kernel⟩,
   ⟨2, 1, 5, [9], lc2 .e, { poolJob [] (job 0 [] .started) with coh := { Coh.reset with caches := Coh.reset.caches.set 2 [lc2 .e] } }, by decide +kernel⟩,
   ⟨2, 0, 1, [], cohReq .rdShared, 0, cohRead.1, cohRead.2.1, cohRead.2.2, cohSt [.req (cohReq .rdShared)], by decide +kernel, by decide +kernel, by decide +kernel, eta3 _, by decide +kernel⟩,
   ⟨2, 0, 1, [], cohReq .rdOwn, 0, cohOwn.1, cohOwn.2.1, cohOwn.2.2, cohSt [.req (cohReq .rdOwn)], by decide +kernel, by decide +kernel, by decide +kernel, eta3 _, by decide +kernel⟩,
   ⟨2, 0, 1, [], cohReq .upgrade, 0, ⟨1, 1, [some 2, none, none, none], false, false, none, 0⟩, cohHeld, by decide +kernel⟩,
   ⟨2, 0, 1, [], cohReq .rdCur, 0, cohCur.1, cohCur.2.1, cohCur.2.2, cohSt [.req (cohReq .rdCur)], by decide +kernel, by decide +kernel, eta3 _, by decide +kernel⟩,
   ⟨2, 0, 1, 2 ^ 64 - 1, List.replicate 64 7, [], cohWr, 0, cohWrote.1, cohWrote.2.1, cohWrote.2.2, cohSt [.req cohWr], by decide +kernel, by decide +kernel, by decide +kernel, eta3 _, by decide +kernel⟩,
   ⟨4, 7, 1, [], ilcSt, by decide +kernel⟩,
   ⟨3, 7, 1, [], ilcSt, by decide +kernel⟩,
   ⟨2, 0, 1, [], List.replicate 64 7, 0, cohEvicted.1, cohEvicted.2.1, cohEvicted.2.2, ⟨1, 3, [some 2, none, none, none], false, false, none, 0⟩, cohEvict (some (List.replicate 64 7)), by decide +kernel, eta3 _, by decide +kernel⟩,
   ⟨2, 0, 1, [], 0, ⟨1, 3, [some 2, none, none, none], false, false, none, 0⟩, cohEvict none, by decide +kernel⟩,
   ⟨1, [], 0, cohReq .rdCur, { cohSt [] with coh := { Coh.reset with waiting := [cohReq .rdCur] } }, by decide +kernel⟩,
   ⟨2, 1, .s, 0, List.replicate 64 7, { cohSt [.reply 2 1 .s 0 (some (List.replicate 64 7))] with coh := { Coh.reset with msgs := [.reply 2 1 .s 0 (some (List.replicate 64 7))], misses := [⟨2, 1, .read⟩] } }, by decide +kernel⟩,
   ⟨2, 1, cohSt [.evictDone 2 1], by decide +kernel⟩,
   ⟨2, 1, lc2 .e, { cohSt [] with coh := { Coh.reset with caches := Coh.reset.caches.set 2 [lc2 .e] } }, by decide +kernel⟩,
   ⟨2, 1, lc2 .m, { cohSt [] with coh := { Coh.reset with caches := Coh.reset.caches.set 2 [lc2 .m] } }, by decide +kernel⟩⟩

theorem wit_SnoopsAreAnswered :
    (∃ (st : Setting) (line : Nat) (l : LcLine) (s : State),
      (SnoopDue s st line .cur l)) ∧
    (∃ (st : Setting) (line : Nat) (l : LcLine) (s : State),
      (SnoopDue s st line .shr l)) ∧
    (∃ (st : Setting) (line : Nat) (l : LcLine) (s : State),
      (SnoopDue s st line .cln l)) ∧
    (∃ (st : Setting) (line : Nat) (l : LcLine) (s : State),
      (SnoopDue s st line .fwd l)) ∧
    (∃ (st : Setting) (line : Nat) (l : LcLine) (s : State),
      (SnoopDue s st line .inv l)) ∧
    (∃ (st : Setting) (line : Nat) (l : LcLine) (s : State),
      (SnoopDue s st line .backInv l)) ∧
    (∃ (st : Setting) (line : Nat) (l : LcLine) (s : State),
      (SnoopDue s st line .wb l)) ∧
    (∃ (st : Setting) (line : Nat) (ecc : EccList) (t : Txn) (s : State),
      (AnswerDue s st line .rspS t)) ∧
    (∃ (st : Setting) (line : Nat) (ecc : EccList) (t : Txn) (s : State),
      (AnswerDue s st line .rspE t)) ∧
    (∃ (st : Setting) (line : Nat) (ecc : EccList) (t : Txn) (s : State),
      (AnswerDue s st line .rspFwd t)) ∧
    (∃ (st : Setting) (line : Nat) (wb : Bool) (ecc : EccList) (t : Txn) (s : State),
      (AnswerDue s st line (.rspI wb) t) ∧ (t.evicted.contains st.val = false)) ∧
    (∃ (st : Setting) (line : Nat) (keep : LineState) (d : List Byte) (ecc : EccList) (t : Txn) (s : State),
      (AnswerDue s st line (.data keep d) t)) ∧
    (∃ (a : Fin 16) (line : Nat) (data : List Byte) (ecc : EccList) (s : State),
      (RegsKept s) ∧ (s.ilcActive = true) ∧ (s.agentState a ≠ 3) ∧ (s.txnOf line = none)) :=
  ⟨⟨2, 1, lc2 .m, snoopSt .cur, by decide +kernel⟩,
   ⟨2, 1, lc2 .m, snoopSt .shr, by decide +kernel⟩,
   ⟨2, 1, lc2 .m, snoopSt .cln, by decide +kernel⟩,
   ⟨2, 1, lc2 .m, snoopSt .fwd, by decide +kernel⟩,
   ⟨2, 1, lc2 .m, snoopSt .inv, by decide +kernel⟩,
   ⟨2, 1, lc2 .m, snoopSt .backInv, by decide +kernel⟩,
   ⟨2, 1, lc2 .m, snoopSt .wb, by decide +kernel⟩,
   ⟨2, 1, [], snoopTxn, answerSt .rspS, by decide +kernel⟩,
   ⟨2, 1, [], snoopTxn, answerSt .rspE, by decide +kernel⟩,
   ⟨2, 1, [], snoopTxn, answerSt .rspFwd, by decide +kernel⟩,
   ⟨2, 1, true, [], snoopTxn, answerSt (.rspI true), by decide +kernel⟩,
   ⟨2, 1, .i, List.replicate 64 7, [], snoopTxn, answerSt (.data .i (List.replicate 64 7)), by decide +kernel⟩,
   ⟨3, 1, [], [], ilcSt, by decide +kernel⟩⟩

theorem wit_IlcenLinkWorks :
    (∃ (f : IlcFlit) (s : State),
      (s.ilcActive = true) ∧ (f.bad = false) ∧ (f.seq = s.ilc.expect) ∧ ((s.ilc.sent.dropWhile fun x => x.1 != f.ack) = [])) ∧
    (∃ (f : IlcFlit) (x : Nat × OutMsg) (l : List (Nat × OutMsg)) (s : State),
      (s.ilcActive = true) ∧ (f.bad = false) ∧ (f.seq = s.ilc.expect) ∧ (f.nak = true) ∧ ((s.ilc.sent.dropWhile fun x => x.1 != f.ack) = x :: l)) ∧
    (∃ (f : IlcFlit) (s : State),
      (s.ilcActive = true) ∧ (f.bad = true)) ∧
    (∃ (s : State),
      (RegsKept s) ∧ (Unwatched s) ∧ (s.ilcActive = true) ∧ (s.ilc.errMs = s.nt / 1000000) ∧ (s.fld (Reg.ILC_CTL 0) Fld.ILC_CTL_crc_limit < s.ilc.errs)) ∧
    (∃ (h : IlcHello) (s : State),
      (s.ilcState = 2) ∧ (h.version = 1) ∧ (h.np8 = s.on (Reg.ILC_CTL 0) Fld.ILC_CTL_np8_compat)) ∧
    (∃ (s : State),
      (RegsKept s) ∧ (Unwatched s) ∧ (s.ilcState = 1)) ∧
    (∃ (s : State),
      (s.ilcState = 1) ∧ (s.ilc.since + 50000000 ≤ s.nt)) ∧
    (∃ (s : State),
      (RegsKept s) ∧ (Unwatched s) ∧ (s.ilcState = 0) ∧ (s.on (Reg.ILC_CTL 0) Fld.ILC_CTL_enable = true) ∧ (s.ilc.since + 100000000 ≤ s.nt) ∧ (s.boot.idle = false) ∧ (9 ≤ s.doneStep)) ∧
    (∃ (s : State),
      (RegsKept s) ∧ (Unwatched s) ∧ (s.ilcState = 2) ∧ (s.ilc.since + 1000000 ≤ s.nt) ∧ ((s.ilc.fails.filter fun t => decide (s.nt < t + 1000000000)).length < 2)) ∧
    (∃ (s : State),
      (s.ilcState = 2) ∧ (s.ilc.since + 1000000 ≤ s.nt) ∧ (2 ≤ (s.ilc.fails.filter fun t => decide (s.nt < t + 1000000000)).length)) ∧
    (∃ (h : IlcHello) (s : State),
      (RegsKept s) ∧ (Unwatched s) ∧ (s.ilcState = 2) ∧ ((h.version ≠ 1 ∨ h.np8 ≠ s.on (Reg.ILC_CTL 0) Fld.ILC_CTL_np8_compat)) ∧ ((s.ilc.fails.filter fun t => decide (s.nt < t + 1000000000)).length < 2)) ∧
    (∃ (line : Nat) (h : Nat) (s : State),
      (s.coh.holds = [(line, h, 0)]) ∧ (76 ≤ s.nt)) :=
  ⟨⟨⟨0, 7, false, 0, 2, 3, false⟩, ilcSt, by decide +kernel, by decide +kernel, rfl, by decide +kernel⟩,
   ⟨⟨0, 5, true, 0, 2, 3, false⟩, (5, .snoop 3 .inv 1 0), [], { ilcSt with ilc := { ilcSt.ilc with sent := [(4, .snoop 3 .inv 0 0), (5, .snoop 3 .inv 1 0)] } }, by decide +kernel, by decide +kernel, rfl, by decide +kernel⟩,
   ⟨⟨9, 5, false, 0, 2, 3, true⟩, ilcSt, by decide +kernel⟩,
   ⟨{ ilcSt with ilc := { ilcSt.ilc with errs := 2000 } }, by decide +kernel⟩,
   ⟨⟨1, false, [⟨true, 4, 5⟩]⟩, linkSt 2, by decide +kernel⟩,
   ⟨linkSt 1, by decide +kernel⟩,
   ⟨{ linkSt 1 with time := ⟨50000000, 50000000, 0, 0⟩ }, by decide +kernel⟩,
   ⟨{ quiet [(Reg.ILC_CTL 0, Fld.ILC_CTL_enable, 1), (Reg.CFG_BOOT_STATUS, Fld.CFG_BOOT_STATUS_done_step, 13)] with boot := { State.reset.boot with idle := false }, time := ⟨100000000, 100000000, 0, 0⟩ }, by decide +kernel⟩,
   ⟨{ linkSt 2 with time := ⟨1000000, 1000000, 0, 0⟩ }, by decide +kernel⟩,
   ⟨{ ({ linkSt 2 with time := ⟨1000000, 1000000, 0, 0⟩ } : State) with ilc := { State.reset.ilc with fails := [0, 5] } }, by decide +kernel⟩,
   ⟨⟨1, true, []⟩, linkSt 2, by decide +kernel⟩,
   ⟨1, 2, { cohSt [] with coh := { Coh.reset with holds := [(1, 2, 0)] }, time := ⟨100, 100, 0, 0⟩ }, by decide +kernel⟩⟩

theorem wit_AgentsAreLost :
    (∃ (a : Fin 8) (ecc : EccList) (s : State),
      (s.ilcActive = true) ∧ (s.ilc.closing = false) ∧ ((s.coh.txns.any fun t => t.waiting.any fun w => w.1 == 32 + a.val && decide (w.2 + s.fld (Reg.ILC_CTL 0) Fld.ILC_CTL_snoop_timeout_us * 1000 ≤ s.nt)) = true)) ∧
    (∃ (path : Path) (value : Word) (s : State),
      (RegsKept s) ∧ (s.on (Reg.ILC_AGENT_CTL 0) Fld.ILC_AGENT_CTL_busy = false) ∧ (getF value Fld.ILC_AGENT_CTL_lose = 0) ∧ (s.agentState (getF value Fld.ILC_AGENT_CTL_agent) = 1) ∧ (HoldsNoLine s (32 + getF value Fld.ILC_AGENT_CTL_agent)) ∧ (s.coh.waiting = []) ∧ (s.coh.txns = []) ∧ (s.coh.losses = []) ∧ (s.ilc.closing = false) ∧ ((∀ b, b < 8 → s.agentState b ≠ 2))) ∧
    (∃ (path : Path) (value : Word) (s : State),
      (RegsKept s) ∧ (Unwatched s) ∧ (s.on (Reg.ILC_AGENT_CTL 0) Fld.ILC_AGENT_CTL_busy = false) ∧ (getF value Fld.ILC_AGENT_CTL_remove = 0) ∧ (s.agentState (getF value Fld.ILC_AGENT_CTL_agent) = 1) ∧ (HoldsNoLine s (32 + getF value Fld.ILC_AGENT_CTL_agent)) ∧ (s.coh.waiting = []) ∧ (s.coh.txns = []) ∧ (s.coh.heldGrants = []) ∧ (s.ilc.held = [])) ∧
    (∃ (path : Path) (value : Word) (s : State),
      (s.on (Reg.ILC_AGENT_CTL 0) Fld.ILC_AGENT_CTL_busy = true)) ∧
    (∃ (l : Loss) (line : Nat) (a : Nat) (e : Nat) (s : State),
      (RegsKept s) ∧ (s.workStopped = false) ∧ (s.coh.losses = [l]) ∧ (l.walked = false) ∧ (l.lines = [line]) ∧ (l.owners = [a]) ∧ (s.fld (Reg.COH_LLL_STATUS 0) Fld.COH_LLL_STATUS_count < 4096) ∧ (e = (s.fld (Reg.COH_LLL_STATUS 0) Fld.COH_LLL_STATUS_head + s.fld (Reg.COH_LLL_STATUS 0) Fld.COH_LLL_STATUS_count) % 4096)) ∧
    (∃ (l : Loss) (line : Nat) (a : Nat) (s : State),
      (RegsKept s) ∧ (s.workStopped = false) ∧ (s.coh.losses = [l]) ∧ (l.walked = false) ∧ (l.lines = [line]) ∧ (l.owners = [a]) ∧ (4096 ≤ s.fld (Reg.COH_LLL_STATUS 0) Fld.COH_LLL_STATUS_count)) ∧
    (∃ (path : Path) (q : Quad) (value : Word) (s : State),
      (RegsKept s) ∧ (Unwatched s)) ∧
    (∃ (path : Path) (value : Word) (n : Nat) (s : State),
      (RegsKept s) ∧ (getF value Fld.COH_LLL_CTL_clear_overflow = 0) ∧ (n = min (s.fld (Reg.COH_LLL_STATUS 0) Fld.COH_LLL_STATUS_count) (getF value Fld.COH_LLL_CTL_consume))) ∧
    (∃ (path : Path) (value : Word) (s : State),
      (RegsKept s)) ∧
    (∃ (path : Path) (q : Quad) (value : Word) (s : State),
      (q ≠ 0)) :=
  ⟨⟨3, [], { ilcSt with coh := { Coh.reset with txns := [{ snoopTxn with waiting := [(35, 0)] }] }, time := ⟨100000000, 100000000, 0, 0⟩ }, by decide +kernel⟩,
   ⟨.firmware, 3, st [(Reg.ILC_AGENT 0 3, Fld.ILC_AGENT_state, 1)], by decide +kernel⟩,
   ⟨.firmware, 3, quiet [(Reg.ILC_AGENT 0 3, Fld.ILC_AGENT_state, 1)], by decide +kernel⟩,
   ⟨.firmware, 0, st [(Reg.ILC_AGENT_CTL 0, Fld.ILC_AGENT_CTL_busy, 1)], by decide +kernel⟩,
   ⟨lossOf false 5, 77, 3, 0, { cohSt [] with coh := { Coh.reset with losses := [lossOf false 5] } }, by decide +kernel⟩,
   ⟨lossOf false 5, 77, 3, { st [(Reg.COH_LLL_STATUS 0, Fld.COH_LLL_STATUS_count, 4096)] with coh := { Coh.reset with losses := [lossOf false 5] } }, by decide +kernel⟩,
   ⟨.firmware, 2, 77, quiet [], by decide +kernel⟩,
   ⟨.firmware, 2, 2, st [(Reg.COH_LLL_STATUS 0, Fld.COH_LLL_STATUS_count, 5), (Reg.COH_LLL_STATUS 0, Fld.COH_LLL_STATUS_head, 4095)], by decide +kernel⟩,
   ⟨.firmware, 0, st [(Reg.COH_LLL_STATUS 0, Fld.COH_LLL_STATUS_overflow, 5)], by decide +kernel⟩,
   ⟨.firmware, 1, 0, st [], by decide +kernel⟩⟩

theorem wit_FramesAreDelivered :
    (∃ (n : LinkId) (i : Nat) (f : Frame) (s : State),
      (s.linkState n = 6) ∧ (s.linkIdle n = false) ∧ ((s.link n).slots + 1 < 65536) ∧ (n.val < s.links.length) ∧ ((s.link n).replayAt = some ((s.link n).ackBase + i)) ∧ (i < 2048) ∧ ((s.link n).replay[i]? = some f)) ∧
    (∃ (n : LinkId) (s : State),
      (s.linkState n = 6) ∧ (s.linkIdle n = false) ∧ ((s.link n).slots + 1 < 65536) ∧ ((s.link n).replayAt = none) ∧ (s.coreStopped = true)) ∧
    (∃ (n : LinkId) (key : Nat) (w : State) (s : State),
      (SlotDue s n) ∧ (w = (s.tickWindow n).deferAll n) ∧ ((w.link n).tx = some key)) ∧
    (∃ (n : LinkId) (key : Nat) (w : State) (s : State),
      (SlotDue s n) ∧ (w = (s.tickWindow n).deferAll n) ∧ ((w.link n).tx = none) ∧ ((w.link n).outstanding < 2048) ∧ (w.pick n = some key) ∧ (((w.startPacket n key).link n).tx = some key)) ∧
    (∃ (n : LinkId) (w : State) (s : State),
      (SlotDue s n) ∧ (w = (s.tickWindow n).deferAll n) ∧ ((w.link n).tx = none) ∧ (w.pick n = none)) ∧
    (∃ (n : LinkId) (f : Frame) (w : State) (s : State),
      ((s.linkState n = 6 ∨ s.linkState n = 7)) ∧ (frameError f = false) ∧ (w = s.takeFields n f) ∧ (f.seq % 4096 = (w.link n).expect)) ∧
    (∃ (n : LinkId) (f : Frame) (w : State) (s : State),
      ((s.linkState n = 6 ∨ s.linkState n = 7)) ∧ (frameError f = false) ∧ (w = s.takeFields n f) ∧ (0 < (f.seq % 4096 + 4096 - (w.link n).expect) % 4096) ∧ ((f.seq % 4096 + 4096 - (w.link n).expect) % 4096 < 2048) ∧ ((w.link n).nak = false)) ∧
    (∃ (n : LinkId) (f : Frame) (w : State) (s : State),
      ((s.linkState n = 6 ∨ s.linkState n = 7)) ∧ (frameError f = false) ∧ (w = s.takeFields n f) ∧ (2048 ≤ (f.seq % 4096 + 4096 - (w.link n).expect) % 4096)) ∧
    (∃ (n : LinkId) (f : Frame) (s : State),
      (RegsKept s) ∧ (Unwatched s) ∧ (s.linkState n = 6) ∧ (frameError f = true) ∧ ((s.link n).nak = false) ∧ (n.val < s.links.length)) ∧
    (∃ (n : LinkId) (f : Frame) (s : State),
      (4 ≤ s.linkState n) ∧ (s.linkState n ≤ 8) ∧ (frameError f = false)) ∧
    (∃ (n : LinkId) (s : State),
      (s.linkState n = 6) ∧ ((s.link n).nak = true) ∧ ((s.link n).nakNt * 2 + s.fld (Reg.LNK_CFG n) Fld.LNK_CFG_replay_timeout_us * 1000 ≤ s.nt * 2)) ∧
    (∃ (n : LinkId) (s : State),
      (RegsKept s) ∧ (Unwatched s) ∧ (s.linkState n = 6) ∧ ((s.link n).outstanding ≠ 0) ∧ ((s.link n).ackNt + s.fld (Reg.LNK_CFG n) Fld.LNK_CFG_replay_timeout_us * 1000 ≤ s.nt)) :=
  ⟨⟨3, 1, { frame0 with seq := 1 }, lnkSt 6 [] { Link.reset with next := 2, replay := [frame0, { frame0 with seq := 1 }], replayAt := some 1 }, by decide +kernel⟩,
   ⟨3, { lnkSt 6 [] Link.reset with pins := { State.reset.pins with thermN := false } }, by decide +kernel⟩,
   ⟨3, 24, (sendSt.tickWindow 3).deferAll 3, sendSt, by decide +kernel, rfl, by decide +kernel⟩,
   ⟨3, 24, (readySt.tickWindow 3).deferAll 3, readySt, by decide +kernel, rfl, by decide +kernel⟩,
   ⟨3, ((lnkSt 6 [] Link.reset).tickWindow 3).deferAll 3, lnkSt 6 [] Link.reset, by decide +kernel, rfl, by decide +kernel⟩,
   ⟨3, frame0, (lnkSt 6 [] { Link.reset with nak := true }).takeFields 3 frame0, lnkSt 6 [] { Link.reset with nak := true }, by decide +kernel, by decide +kernel, rfl, by decide +kernel⟩,
   ⟨3, { frame0 with seq := 2, crc := 0 } |> sealFrame, (lnkSt 6 [] Link.reset).takeFields 3 (sealFrame { frame0 with seq := 2, crc := 0 }), lnkSt 6 [] Link.reset, by decide +kernel, by decide +kernel, rfl, by decide +kernel⟩,
   ⟨3, frame0, (lnkSt 6 [] { Link.reset with expect := 1 }).takeFields 3 frame0, lnkSt 6 [] { Link.reset with expect := 1 }, by decide +kernel, by decide +kernel, rfl, by decide +kernel⟩,
   ⟨3, { frame0 with bad := true }, lnkSt 6 [] Link.reset, by decide +kernel⟩,
   ⟨3, sealFrame (ctrlFrame 0 []), lnkSt 6 [] Link.reset, by decide +kernel⟩,
   ⟨3, { lnkSt 6 [] { Link.reset with nak := true } with time := ⟨1000000, 1000000, 0, 0⟩ }, by decide +kernel⟩,
   ⟨3, { lnkSt 6 [] { Link.reset with next := 1, replay := [frame0] } with time := ⟨1000000, 1000000, 0, 0⟩ }, by decide +kernel⟩⟩

theorem wit_LinksComeUp :
    (∃ (n : LinkId) (a : Fin 3) (b : Fin 3) (third : Bool) (s : State),
      (RegsKept s) ∧ (Unwatched s) ∧ (s.linkState n = 1) ∧ (a ≠ b) ∧ (s.boot.laneFailed = []) ∧ (s.nt ≤ (s.link n).since + 900000000)) ∧
    (∃ (n : LinkId) (s : State),
      (RegsKept s) ∧ (Unwatched s) ∧ ((s.link n).since + 900000000 ≤ s.nt)) ∧
    (∃ (n : LinkId) (s : State),
      (RegsKept s) ∧ (Unwatched s) ∧ (s.linkState n = 2) ∧ (s.nt ≤ (s.link n).since + 10000000)) ∧
    (∃ (n : LinkId) (s : State),
      (s.linkState n = 3) ∧ (s.linkIdle n = false)) ∧
    (∃ (n : LinkId) (f : Frame) (w : State) (s : State),
      (s.linkState n = 3) ∧ (frameError f = false) ∧ (leAt f.payload 0 1 = 1) ∧ ((List.range 8).foldl (fun a v => a + leAt f.payload (20 + 2 * v) 2) 0 ≤ 1536) ∧ (w = (if (s.link n).peer = some (leAt f.payload 8 8, leAt f.payload 2 2) then s.resumeSession n f.payload else s.freshSession n f.payload))) ∧
    (∃ (n : LinkId) (s : State),
      (RegsKept s) ∧ (Unwatched s) ∧ (s.linkState n = 4) ∧ (s.nt ≤ (s.link n).since + 50000000)) ∧
    (∃ (n : LinkId) (s : State),
      (RegsKept s) ∧ (Unwatched s) ∧ (s.linkState n = 4) ∧ (s.timeSource n = true) ∧ ((s.link n).since + 50000000 ≤ s.nt)) ∧
    (∃ (n : LinkId) (frac : Fin 65536) (s : State),
      (s.linkState n = 5) ∧ (s.asksTime n = true) ∧ ((s.link n).exchanges.length < 16) ∧ (s.linkIdle n = false)) ∧
    (∃ (n : LinkId) (f : Frame) (arr : Fin 65536) (dep : Fin 65536) (w : State) (s : State),
      (s.linkState n = 5) ∧ (frameError f = false) ∧ (s.linkIdle n = false) ∧ (w = s.takeFields n f) ∧ (w.linkState n = 5)) ∧
    (∃ (n : LinkId) (f : Frame) (arr : Fin 65536) (i : Nat) (t1 : Nat) (w : State) (s : State),
      (s.linkState n = 5) ∧ (frameError f = false) ∧ (w = s.takeFields n f) ∧ (w.linkState n = 5) ∧ ((w.link n).asked = some (i, t1)) ∧ (leAt f.payload 0 1 = i) ∧ ((w.link n).exchanges.length < 15)) ∧
    (∃ (n : LinkId) (f : Frame) (arr : Fin 65536) (i : Nat) (t1 : Nat) (w : State) (s : State),
      (RegsKept s) ∧ (n.val < s.links.length) ∧ (s.linkState n = 5) ∧ (frameError f = false) ∧ (w = s.takeFields n f) ∧ (w.linkState n = 5) ∧ ((w.link n).asked = some (i, t1)) ∧ (leAt f.payload 0 1 = i) ∧ ((w.link n).exchanges.length = 15)) ∧
    (∃ (n : LinkId) (s : State),
      (s.linkState n = 9) ∧ ((s.link n).since + s.fld (Reg.LNK_CFG n) Fld.LNK_CFG_retry_ms * 1000000 ≤ s.nt) ∧ (s.on (Reg.LNK_CTL n) Fld.LNK_CTL_enable = true) ∧ (s.linkIdle n = false)) :=
  ⟨⟨3, 2, 0, true, lnkSt 1 [] Link.reset, by decide +kernel⟩,
   ⟨3, { lnkSt 1 [] Link.reset with time := ⟨1000000000, 1000000000, 0, 0⟩ }, by decide +kernel⟩,
   ⟨3, lnkSt 2 [] Link.reset, by decide +kernel⟩,
   ⟨3, lnkSt 3 [] Link.reset, by decide +kernel⟩,
   ⟨3, helloFrame, (lnkSt 3 [] Link.reset).freshSession 3 helloFrame.payload, lnkSt 3 [] Link.reset, by decide +kernel, by decide +kernel, by decide +kernel, by decide +kernel, rfl⟩,
   ⟨3, lnkSt 4 [] Link.reset, by decide +kernel⟩,
   ⟨3, { lnkSt 4 [(Reg.LNK_TIME_CFG 3, Fld.LNK_TIME_CFG_source, 1)] Link.reset with time := ⟨1000000000, 1000000000, 0, 0⟩ }, by decide +kernel⟩,
   ⟨3, 5, lnkSt 5 [(Reg.LNK_TIME_CFG 3, Fld.LNK_TIME_CFG_source, 1)] Link.reset, by decide +kernel⟩,
   ⟨3, sealFrame (ctrlFrame 2 [0]), 7, 8, (lnkSt 5 [] Link.reset).takeFields 3 (sealFrame (ctrlFrame 2 [0])), lnkSt 5 [] Link.reset, by decide +kernel, by decide +kernel, by decide +kernel, rfl, by decide +kernel⟩,
   ⟨3, sealFrame (ctrlFrame 3 [0]), 7, 0, 5, (lnkSt 5 [] { Link.reset with asked := some (0, 5) }).takeFields 3 (sealFrame (ctrlFrame 3 [0])), lnkSt 5 [] { Link.reset with asked := some (0, 5) }, by decide +kernel, by decide +kernel, rfl, by decide +kernel⟩,
   ⟨3, sealFrame (ctrlFrame 3 [15]), 7, 15, 5, lastExchange.takeFields 3 (sealFrame (ctrlFrame 3 [15])), lastExchange, by decide +kernel, by decide +kernel, by decide +kernel, by decide +kernel, rfl, by decide +kernel⟩,
   ⟨3, { lnkSt 9 [(Reg.LNK_CTL 3, Fld.LNK_CTL_enable, 1)] Link.reset with time := ⟨1000000000, 1000000000, 0, 0⟩ }, by decide +kernel⟩⟩

theorem wit_LanesAndRetrains :
    (∃ (n : LinkId) (lane : Fin 3) (p : Prong) (s : State),
      (p.valid = true) ∧ (2 ≤ s.laneRole n lane)) ∧
    (∃ (n : LinkId) (lane : Fin 3) (sp : Fin 3) (s : State),
      (RegsKept s) ∧ (Unwatched s) ∧ (s.stopped = false) ∧ (s.timeSource n = false) ∧ (s.linkIdle n = false) ∧ (s.linkState n = 6) ∧ (s.laneRole n lane = 1) ∧ (s.spareLane n = some sp.val) ∧ (s.on (Reg.LNK_CTL n) Fld.LNK_CTL_spare_en = true)) ∧
    (∃ (n : LinkId) (lane : Fin 3) (s : State),
      (RegsKept s) ∧ (s.linkState n = 6) ∧ (s.laneRole n lane = 1) ∧ (s.fld (Reg.LNK_STATUS n) Fld.LNK_STATUS_spare = 3)) ∧
    (∃ (n : LinkId) (lane : Fin 3) (s : State),
      (s.linkState n = 7) ∧ (s.laneRole n lane = 1) ∧ (lane.val ∉ (s.link n).laneFaults)) ∧
    (∃ (n : LinkId) (lane : Fin 3) (s : State),
      (s.laneRole n lane = 2)) ∧
    (∃ (n : LinkId) (p : Prong) (sp : Fin 3) (s : State),
      (RegsKept s) ∧ (Unwatched s) ∧ (s.stopped = false) ∧ (s.timeSource n = false) ∧ (s.linkIdle n = false) ∧ (s.linkState n = 6) ∧ (p.valid = true) ∧ (p.lane < 3) ∧ (s.spareLane n = some sp.val) ∧ (p.lane ≠ sp.val)) ∧
    (∃ (n : LinkId) (p : Prong) (sp : Nat) (s : State),
      (s.linkState n = 7) ∧ (p.valid = true) ∧ ((s.link n).swap = some ⟨p.lane, sp, false, false⟩)) ∧
    (∃ (n : LinkId) (x : Swap) (s : State),
      (s.linkState n = 7) ∧ ((s.link n).swap = some x) ∧ (x.moved = true) ∧ ((s.link n).resumeGot = none) ∧ (s.linkIdle n = false)) ∧
    (∃ (n : LinkId) (s : State),
      (s.linkState n = 8) ∧ ((s.link n).resumeGot = none) ∧ (s.linkIdle n = false)) ∧
    (∃ (n : LinkId) (p : Prong) (s : State),
      ((s.linkState n = 7 ∨ s.linkState n = 8)) ∧ (p.valid = true) ∧ (n.val < s.links.length) ∧ ((s.link n).resumeSent = true) ∧ ((s.link n).laneFaults = [])) ∧
    (∃ (n : LinkId) (p : Prong) (s : State),
      (s.linkState n = 6) ∧ (p.valid = true)) ∧
    (∃ (n : LinkId) (s : State),
      (s.linkState n = 8) ∧ ((s.link n).since + 20000000 ≤ s.nt) ∧ (((s.link n).fails.filter fun t => decide (s.nt < t + 1000000000)).length < 2)) ∧
    (∃ (n : LinkId) (s : State),
      (s.linkState n = 8) ∧ ((s.link n).since + 20000000 ≤ s.nt) ∧ (2 ≤ ((s.link n).fails.filter fun t => decide (s.nt < t + 1000000000)).length)) ∧
    (∃ (n : LinkId) (s : State),
      (RegsKept s) ∧ (Unwatched s) ∧ (s.linkIdle n = false) ∧ ((s.link n).swap = none) ∧ (s.linkState n = 7) ∧ ((s.link n).since + 20000 ≤ s.nt)) ∧
    (∃ (n : LinkId) (s : State),
      (s.linkState n = 6) ∧ (s.fld (Reg.LNK_CFG n) Fld.LNK_CFG_err_limit < s.fld (Reg.LNK_CNT3 n) Fld.LNK_CNT3_window)) ∧
    (∃ (n : LinkId) (lane : Fin 3) (s : State),
      (s.linkState n = 6) ∧ (s.laneRole n lane = 0) ∧ ((∀ e ∈ (s.link n).laneSince, e.1 ≠ lane.val))) ∧
    (∃ (n : LinkId) (lane : Fin 3) (since : Nat) (s : State),
      (s.laneRole n lane = 3) ∧ ((s.link n).laneSince = [(lane.val, since)]) ∧ (since + 1000000000 ≤ s.nt) ∧ (s.fld (Reg.LNK_STATUS n) Fld.LNK_STATUS_spare = 3)) ∧
    (∃ (path : Path) (n : LinkId) (value : Word) (w : State) (s : State),
      (w = s.writeFields path (Reg.LNK_CTL n) (setF value Fld.LNK_CTL_retrain 1)) ∧ (getF value Fld.LNK_CTL_discard = 0) ∧ (w.linkState n = 6)) ∧
    (∃ (path : Path) (n : LinkId) (value : Word) (w : State) (s : State),
      (w = s.writeFields path (Reg.LNK_CTL n) (setF value Fld.LNK_CTL_discard 1)) ∧ (getF value Fld.LNK_CTL_retrain = 0)) :=
  ⟨⟨3, 2, prong0 .train 0, lnkSt 1 [(Reg.LNK_LANE 3 2, Fld.LNK_LANE_role, 3)] Link.reset, by decide +kernel⟩,
   ⟨3, 0, 2, spareSt 6 Link.reset, by decide +kernel⟩,
   ⟨3, 0, lnkSt 6 [(Reg.LNK_LANE 3 0, Fld.LNK_LANE_role, 1), (Reg.LNK_STATUS 3, Fld.LNK_STATUS_spare, 3)] Link.reset, by decide +kernel⟩,
   ⟨3, 0, spareSt 7 Link.reset, by decide +kernel⟩,
   ⟨3, 2, spareSt 6 Link.reset, by decide +kernel⟩,
   ⟨3, prong0 .swap 0, 2, spareSt 6 Link.reset, by decide +kernel⟩,
   ⟨3, prong0 .swapAck 0, 2, spareSt 7 { Link.reset with swap := some ⟨0, 2, false, false⟩ }, by decide +kernel⟩,
   ⟨3, ⟨0, 2, true, false⟩, spareSt 7 { Link.reset with swap := some ⟨0, 2, true, false⟩ }, by decide +kernel⟩,
   ⟨3, spareSt 8 Link.reset, by decide +kernel⟩,
   ⟨3, prong0 .resume 0, spareSt 8 { Link.reset with resumeSent := true }, by decide +kernel⟩,
   ⟨3, prong0 .retrain 0, spareSt 6 Link.reset, by decide +kernel⟩,
   ⟨3, { spareSt 8 { Link.reset with fails := [19999999] } with time := ⟨20000000, 20000000, 0, 0⟩ }, by decide +kernel⟩,
   ⟨3, { spareSt 8 { Link.reset with fails := [19999998, 19999999] } with time := ⟨20000000, 20000000, 0, 0⟩ }, by decide +kernel⟩,
   ⟨3, { spareSt 7 Link.reset with time := ⟨20000000, 20000000, 0, 0⟩ }, by decide +kernel⟩,
   ⟨3, spareSt 6 { Link.reset with window := [20] ++ List.replicate 15 0 }, by decide +kernel⟩,
   ⟨3, 0, lnkSt 6 [] Link.reset, by decide +kernel⟩,
   ⟨3, 0, 5, { lnkSt 6 [(Reg.LNK_LANE 3 0, Fld.LNK_LANE_role, 3), (Reg.LNK_STATUS 3, Fld.LNK_STATUS_spare, 3)] { Link.reset with laneSince := [(0, 5)] } with time := ⟨2000000000, 2000000000, 0, 0⟩ }, by decide +kernel⟩,
   ⟨.firmware, 3, 0, (spareSt 6 Link.reset).writeFields .firmware (Reg.LNK_CTL 3) (setF 0 Fld.LNK_CTL_retrain 1), spareSt 6 Link.reset, rfl, by decide +kernel⟩,
   ⟨.firmware, 3, 0, (spareSt 9 Link.reset).writeFields .firmware (Reg.LNK_CTL 3) (setF 0 Fld.LNK_CTL_discard 1), spareSt 9 Link.reset, rfl, by decide +kernel⟩⟩

theorem wit_PacketsAreRouted :
    (∃ (port : Fin 32) (vc : Vc) (out : Nat) (dl : Nat) (x : InPkt) (rest : List InPkt) (s : State),
      (HeadDue s port vc x rest) ∧ (s.verValid x.hdr.epoch = true) ∧ (s.toHere x.hdr.dst = false) ∧ (x.hdr.hops ≠ 0) ∧ (s.lookup x.hdr = (out, dl)) ∧ (out < 32)) ∧
    (∃ (port : Fin 32) (vc : Vc) (x : InPkt) (rest : List InPkt) (s : State),
      (HeadDue s port vc x rest) ∧ (s.toHere x.hdr.dst = true)) ∧
    (∃ (port : Fin 32) (vc : Vc) (x : InPkt) (rest : List InPkt) (s : State),
      (HeadDue s port vc x rest) ∧ (s.toHere x.hdr.dst = false) ∧ (x.hdr.hops = 0)) ∧
    (∃ (port : Fin 32) (vc : Vc) (x : InPkt) (rest : List InPkt) (s : State),
      (HeadDue s port vc x rest) ∧ (s.verValid x.hdr.epoch = true) ∧ (s.toHere x.hdr.dst = false) ∧ (x.hdr.hops ≠ 0) ∧ ((s.lookup x.hdr).1 = 63)) ∧
    (∃ (vc : Vc) (x : InPkt) (rest : List InPkt) (s : State),
      (s.inq (inKey 32 vc) = x :: rest) ∧ (x.out = none) ∧ ((s.boot.routerOn = false ∨ s.on Reg.RTE_CTL Fld.RTE_CTL_enable = false))) ∧
    (∃ (x : Nat) (s : State),
      (RegsKept s) ∧ (s.router.drainEnd = some x) ∧ (x ≤ s.nt)) ∧
    (∃ (tag : Fin 4096) (s : State),
      ((s.router.quarantine.any fun x => x.1 == tag.val && decide (x.2 ≤ s.nt)) = true) ∧ ((∀ w ∈ s.router.waiting, w.1 ≠ tag.val / 1024))) ∧
    (∃ (tag : Fin 4096) (q : Nat) (p : Packet) (why : Purpose) (first : Nat) (l : List (Nat × Packet × Purpose × Nat)) (s : State),
      ((s.router.quarantine.any fun x => x.1 == tag.val && decide (x.2 ≤ s.nt)) = true) ∧ (s.router.waiting = (q, p, why, first) :: l) ∧ (q = tag.val / 1024)) ∧
    (∃ (c : Client) (h : Holdoff) (s : State),
      (s.traffic.holdoffs = [h]) ∧ (h.client = c.val) ∧ (h.until' ≤ s.nt)) ∧
    (∃ (tag : Fin 4096) (q : Nat) (j : Nat) (seq : Nat) (g : Tag) (s : State),
      (s.workStopped = false) ∧ ((s.router.tags.find? fun t => t.tag == tag.val) = some g) ∧ (g.purpose = .completion q j seq) ∧ (g.sentNt + getF g.timing Fld.RTE_TIMING_tag_timeout_us * 1000 ≤ s.nt)) :=
  ⟨⟨4, 0, 7, 1, inFar 3, [], routeSt [(Reg.RTE_ENTRY 0 3, ⟨0, 64⟩, 7 + 2 ^ 12)] (inFar 3), by decide +kernel⟩,
   ⟨4, 0, inPk [], [], routeSt [] (inPk []), by decide +kernel⟩,
   ⟨4, 0, inFar 0, [], routeSt [] (inFar 0), by decide +kernel⟩,
   ⟨4, 0, inFar 3, [], routeSt [(Reg.RTE_ENTRY 0 3, ⟨0, 64⟩, 63 * 2 ^ 32 + 63)] (inFar 3), by decide +kernel⟩,
   ⟨0, inFar 3, [], { st [] with router := { State.reset.router with inputs := [(inKey 32 0, [inFar 3])] } }, by decide +kernel⟩,
   ⟨5, { st [(Reg.RTE_VER, Fld.RTE_VER_draining, 1), (Reg.RTE_VER, Fld.RTE_VER_valid0, 1), (Reg.RTE_VER, Fld.RTE_VER_valid1, 1)] with router := { State.reset.router with drainEnd := some 5 }, time := ⟨9, 9, 0, 0⟩ }, by decide +kernel⟩,
   ⟨3, { st [] with router := { State.reset.router with quarantine := [(3, 0)] } }, by decide +kernel⟩,
   ⟨3, 0, pk opWrite 2 0 0 [1], .completion 1 9 5, 0, [], { st [] with router := { State.reset.router with quarantine := [(3, 0)], waiting := [(0, pk opWrite 2 0 0 [1], .completion 1 9 5, 0)] } }, by decide +kernel⟩,
   ⟨5, ⟨5, 0, 3, opRead, 1, 7⟩, { st [] with traffic := { State.reset.traffic with holdoffs := [⟨5, 0, 3, opRead, 1, 7⟩] } }, by decide +kernel⟩,
   ⟨3, 1, 9, 5, tagOf (.completion 1 9 5), { st [] with router := { State.reset.router with tags := [tagOf (.completion 1 9 5)] }, time := ⟨10 ^ 9, 10 ^ 9, 0, 0⟩ }, by decide +kernel⟩⟩

theorem wit_FabricRequestsAndAnswers :
    (∃ (port : Fin 36) (p : Packet) (env : Env) (e : SegEnt) (w : State) (w2 : State) (d : List Byte) (rebuilt : Bool) (ids : List Nat) (s : State),
      (Accepted s p opRead) ∧ ((s.takeEjected port p).serves p.client = true) ∧ ((s.takeEjected port p).packetCheck p ⟨p.addr, p.aux, 1, 0, false⟩ = .ok e) ∧ ((s.takeEjected port p).packetPages env p e ⟨p.addr, p.aux, 1, 0, false⟩ = (w, .fine)) ∧ (w.poolRead env .lineCache [p.src, p.tag, p.gen, 8] (e.paOf p.addr) p.aux = (w2, .ok d rebuilt ids))) ∧
    (∃ (port : Fin 36) (p : Packet) (env : Env) (status : Nat) (s : State),
      ((s.takeEjected port p).serves p.client = true)) ∧
    (∃ (port : Fin 36) (p : Packet) (env : Env) (e : SegEnt) (w : State) (w2 : State) (d : List Byte) (rebuilt : Bool) (ids : List Nat) (s : State),
      (Accepted s p opWrite) ∧ ((s.takeEjected port p).serves p.client = true) ∧ ((s.takeEjected port p).packetCheck p ⟨p.addr, p.payload.length, 1, 0, true⟩ = .ok e) ∧ ((s.takeEjected port p).packetPages env p e ⟨p.addr, p.payload.length, 1, 0, true⟩ = (w, .fine)) ∧ (w.poolWrite env .lineCache (e.paOf p.addr) p.payload = (w2, .ok d rebuilt ids)) ∧ (w2.mirrorWrite p = false) ∧ (w2.mirrorOpen ids = false)) ∧
    (∃ (port : Fin 36) (p : Packet) (c : Channel) (st : Nat) (f : Nat) (oa : Nat) (w : Doing) (s : State),
      (Accepted s p opActivation) ∧ (s.rcp.channels = [c]) ∧ (c.id = leAt p.payload 0 2) ∧ (16 ≤ p.payload.length) ∧ (c.accepts p.payload = true) ∧ (c.got = []) ∧ (c.at'.getD (leAt p.payload 2 2) (0, 0, 0) = (st, f, oa)) ∧ (w = (Doing.look ⟨s.takeEjected port p, [], .go, [], []⟩ st f (oa + 32 * leAt p.payload 6 2) (p.payload.length - 16)).put st f (oa + 32 * leAt p.payload 6 2) (p.payload.drop 16)) ∧ (w.halt = .go)) ∧
    (∃ (port : Fin 36) (p : Packet) (s : State),
      (Accepted s p opActivation) ∧ (s.rcp.channels = [])) ∧
    (∃ (port : Fin 36) (p : Packet) (g : Tag) (q : Nat) (j : Nat) (seq : Nat) (n : Nat) (f : Fetch) (s : State),
      (Answered s p opReadData opRead g) ∧ (g.purpose = .fetch q j seq n) ∧ (s.que.fetches = [f]) ∧ (f.q = q) ∧ (f.j = j) ∧ (f.seq = seq) ∧ (p.status = 0) ∧ (p.payload.length = g.pkt.aux)) ∧
    (∃ (port : Fin 36) (p : Packet) (g : Tag) (q : Nat) (j : Nat) (seq : Nat) (piece : Nat) (s : State),
      (Answered s p opReadData opRead g) ∧ (g.purpose = .operand q j seq piece) ∧ (p.status % 16 = 0) ∧ (p.payload.length = g.pkt.aux)) ∧
    (∃ (port : Fin 36) (p : Packet) (g : Tag) (q : Nat) (j : Nat) (seq : Nat) (s : State),
      (Answered s p opWriteAck opWrite g) ∧ (g.purpose = .completion q j seq)) ∧
    (∃ (port : Fin 36) (p : Packet) (g : Tag) (id : Nat) (off : Nat) (n : Nat) (s : State),
      (Answered s p opWriteAck opWrite g) ∧ (g.purpose = .mirror id off n)) ∧
    (∃ (port : Fin 36) (p : Packet) (g : Tag) (order : Nat) (inst : Nat) (piece : Nat) (s : State),
      (Answered s p opActAck opActivation g) ∧ (g.purpose = .send order inst piece) ∧ (s.runIs order = true) ∧ (p.status % 16 = 0)) ∧
    (∃ (port : Fin 36) (p : Packet) (s : State),
      (Welcome s p) ∧ (p.opcode = opWriteAck) ∧ (s.matchTag p = none)) ∧
    (∃ (port : Fin 36) (p : Packet) (s : State),
      (Welcome s p) ∧ (p.opcode = opDropNotice)) :=
  ⟨⟨4, pk opRead 0 64 64 [], noEnv, seg2, pagesRead.1, dataRead.1, List.replicate 64 0, false, [], fabSt, by decide +kernel, by decide +kernel, by decide +kernel, Prod.ext rfl (by decide +kernel), Prod.ext rfl (by decide +kernel)⟩,
   ⟨4, pk opRead 0 (2 ^ 40) 64 [], noEnv, 0x2001, fabSt, by decide +kernel⟩,
   ⟨4, pk opWrite 2 64 0 (List.replicate 64 7), noEnv, seg2, pagesWrote.1, dataWrote.1, [], false, [], fabSt, by decide +kernel, by decide +kernel, by decide +kernel, Prod.ext rfl (by decide +kernel), Prod.ext rfl (by decide +kernel), by decide +kernel⟩,
   ⟨4, actPk, ⟨7, ⟨1, 9, 5⟩, 0, 1, 32, [(0, 0, 0)], []⟩, 0, 0, 0, actWrote, actSt, by decide +kernel, by decide +kernel, by decide +kernel, by decide +kernel, by decide +kernel, by decide +kernel, by decide +kernel, rfl, by decide +kernel⟩,
   ⟨4, actPk, fabSt, by decide +kernel⟩,
   ⟨4, pk opReadData 1 0 0 (List.replicate 64 7), tagOf (.fetch 1 9 5 1), 1, 9, 5, 1, ⟨1, 9, 5, 1, none⟩, fetchSt, by decide +kernel⟩,
   ⟨4, pk opReadData 1 0 0 (List.replicate 64 7), tagOf (.operand 1 9 5 2), 1, 9, 5, 2, operandSt, by decide +kernel⟩,
   ⟨4, pk opWriteAck 1 0 0 [], { tagOf (.completion 1 9 5) with pkt := { pk opWrite 2 0 0 [1] with dst := 9 } }, 1, 9, 5, ackSt (.completion 1 9 5) opWrite, by decide +kernel⟩,
   ⟨4, pk opWriteAck 1 0 0 [], { tagOf (.mirror 4 0 64) with pkt := { pk opWrite 2 0 0 [1] with dst := 9 } }, 4, 0, 64, ackSt (.mirror 4 0 64) opWrite, by decide +kernel⟩,
   ⟨4, pk opActAck 1 0 0 [], { tagOf (.send 1 0 0) with pkt := { pk opActivation 2 0 0 [1] with dst := 9 } }, 1, 0, 0, sendingSt, by decide +kernel⟩,
   ⟨4, pk opWriteAck 1 0 0 [], fabSt, by decide +kernel⟩,
   ⟨4, pk opDropNotice 3 0 0 (List.replicate 16 0), fabSt, by decide +kernel⟩⟩

theorem wit_PartnersHearAndClaim :
    (∃ (s : State),
      (s.beating = true) ∧ (s.pair.nextBeat ≤ s.nt)) ∧
    (∃ (m : List Byte) (s : State),
      (s.role ≠ 0) ∧ (leAt m 2 1 ≠ 2) ∧ (s.heartbeatValid m = true)) ∧
    (∃ (port : Fin 36) (p : Packet) (s : State),
      (Welcome s p) ∧ (p.opcode = opHeartbeat) ∧ (s.role ≠ 0) ∧ (leAt p.payload 2 1 ≠ 2) ∧ (s.heartbeatValid p.payload = true)) ∧
    (∃ (m : List Byte) (s : State),
      (s.role ≠ 0) ∧ (leAt m 2 1 ≠ 2) ∧ (s.heartbeatValid m = false)) ∧
    (∃ (m : List Byte) (w : State) (s : State),
      (s.role ≠ 0) ∧ (leAt m 2 1 = 2) ∧ (s.heartbeatValid m = true) ∧ (w = (s.pathAlive false).heard m) ∧ (w.role = 2)) ∧
    (∃ (fabric : Bool) (s : State),
      (RegsKept s) ∧ (Unwatched s) ∧ (s.role ≠ 0) ∧ ((if fabric then s.pair.fabNt else s.pair.pinNt) + 800000 ≤ s.nt) ∧ (s.on Reg.PAI_STATUS Fld.PAI_STATUS_pin_ok = true) ∧ (s.on Reg.PAI_STATUS Fld.PAI_STATUS_fab_ok = true)) ∧
    (∃ (fabric : Bool) (s : State),
      (RegsKept s) ∧ (Unwatched s) ∧ (s.role = 2) ∧ ((if fabric then s.pair.fabNt else s.pair.pinNt) + 800000 ≤ s.nt) ∧ (s.on Reg.PAI_STATUS Fld.PAI_STATUS_pin_ok = !fabric) ∧ (s.on Reg.PAI_STATUS Fld.PAI_STATUS_fab_ok = fabric)) ∧
    (∃ (s : State),
      (s.role = 3) ∧ (s.beating = true) ∧ (s.pair.nextClaim ≤ s.nt)) ∧
    (∃ (s : State),
      (RegsKept s) ∧ (Unwatched s) ∧ (s.role = 3) ∧ (s.pair.claimNt + s.fld Reg.PAI_CFG Fld.PAI_CFG_claim_ms * 1000000 ≤ s.nt)) ∧
    (∃ (path : Path) (value : Word) (w : State) (s : State),
      (w = s.writeFields path Reg.PAI_CTL (setF value Fld.PAI_CTL_grant 1)) ∧ (getF value Fld.PAI_CTL_fence = 0) ∧ (getF value Fld.PAI_CTL_handover = 0)) ∧
    (∃ (env : Env) (w : State) (s : State),
      (s.pair.takeover = some 0) ∧ (13 ≤ s.doneStep) ∧ (((s.pairedQps.flatMap fun k => (s.journalFrom k.1 k.2).map fun x => (k, x)).foldl (fun (a : State × Bool) e =>
        ((a.1.takeSlot env e.1.1 e.1.2 e.2.1 e.2.2).1, a.2 && (a.1.takeSlot env e.1.1 e.1.2 e.2.1 e.2.2).2)) (s, true)) = (w, true))) :=
  ⟨⟨pairSt 2 [], by decide +kernel⟩,
   ⟨beatMsg 0 5, pairSt 2 [], by decide +kernel⟩,
   ⟨4, beatPk, pairSt 2 [], by decide +kernel⟩,
   ⟨[], pairSt 2 [], by decide +kernel⟩,
   ⟨beatMsg 2 5, ((pairSt 2 []).pathAlive false).heard (beatMsg 2 5), pairSt 2 [], by decide +kernel, by decide +kernel, by decide +kernel, rfl, by decide +kernel⟩,
   ⟨true, { pairSt 2 [(Reg.PAI_STATUS, Fld.PAI_STATUS_pin_ok, 1), (Reg.PAI_STATUS, Fld.PAI_STATUS_fab_ok, 1)] with time := ⟨800000, 800000, 0, 0⟩ }, by decide +kernel⟩,
   ⟨true, { pairSt 2 [(Reg.PAI_STATUS, Fld.PAI_STATUS_fab_ok, 1)] with time := ⟨800000, 800000, 0, 0⟩ }, by decide +kernel⟩,
   ⟨pairSt 3 [], by decide +kernel⟩,
   ⟨{ pairSt 3 [] with time := ⟨10 ^ 12, 10 ^ 12, 0, 0⟩ }, by decide +kernel⟩,
   ⟨.firmware, 0, (pairSt 3 []).writeFields .firmware Reg.PAI_CTL (setF 0 Fld.PAI_CTL_grant 1), pairSt 3 [], rfl, by decide +kernel⟩,
   ⟨noEnv, lonely, lonely, by decide +kernel, by decide +kernel, by rw [noJournals]; rfl⟩⟩

theorem wit_PartnersAreMirrored :
    (∃ (path : Path) (value : Word) (w : State) (s : State),
      (w = s.writeFields path Reg.PAI_CTL (setF value Fld.PAI_CTL_fence 1)) ∧ (getF value Fld.PAI_CTL_grant = 0) ∧ (getF value Fld.PAI_CTL_handover = 0) ∧ (w.role ≠ 0) ∧ (w.role ≠ 6)) ∧
    (∃ (path : Path) (value : Word) (w : State) (s : State),
      (w = s.writeFields path Reg.PAI_CTL (setF value Fld.PAI_CTL_handover 1)) ∧ (getF value Fld.PAI_CTL_grant = 0) ∧ (getF value Fld.PAI_CTL_fence = 0)) ∧
    (∃ (w : State) (s : State),
      (s.pair.leaving = true) ∧ (s.pair.takeover = none) ∧ (s.role = 4) ∧ (13 ≤ s.doneStep) ∧ (s.que.descs = []) ∧ (s.router.tags = []) ∧ (s.router.waiting = []) ∧ (w = (((s.sendBoth 2).setRole 2).setAlias false).dropPaired)) ∧
    (∃ (r : MirrorRange) (i : Nat) (t : Nat) (s : State),
      (s.role = 4) ∧ (s.workStopped = false) ∧ (s.pair.log = [r]) ∧ (r.again = []) ∧ (r.sent = false) ∧ (s.mirrorLink = some i) ∧ (s.freeTag i = some t)) ∧
    (∃ (r : MirrorRange) (i : Nat) (t : Nat) (off : Nat) (n : Nat) (more : List (Nat × Nat)) (s : State),
      (s.role = 4) ∧ (s.workStopped = false) ∧ (s.pair.log = [r]) ∧ (r.again = (off, n) :: more) ∧ (s.mirrorLink = some i) ∧ (s.freeTag i = some t)) ∧
    (∃ (s : State),
      (RegsKept s) ∧ (Unwatched s) ∧ (s.role = 5) ∧ (s.pair.copying = true) ∧ (s.nextSlab = none) ∧ (s.pair.log = [])) ∧
    (∃ (s : State),
      (RegsKept s) ∧ (Unwatched s) ∧ (s.role = 1) ∧ (s.pair.partnerRole = 4)) :=
  ⟨⟨.firmware, 0, (pairSt 4 []).writeFields .firmware Reg.PAI_CTL (setF 0 Fld.PAI_CTL_fence 1), pairSt 4 [], rfl, by decide +kernel⟩,
   ⟨.firmware, 0, (pairSt 4 []).writeFields .firmware Reg.PAI_CTL (setF 0 Fld.PAI_CTL_handover 1), pairSt 4 [], rfl, by decide +kernel⟩,
   ⟨(((leavingSt.sendBoth 2).setRole 2).setAlias false).dropPaired, leavingSt, by decide +kernel, by decide +kernel, by decide +kernel, by decide +kernel, by decide +kernel, by decide +kernel, by decide +kernel, rfl⟩,
   ⟨⟨4, 64, 64, false, false, 0, 0, false, [], [], 0⟩, 2, 2048, mirrorSt ⟨4, 64, 64, false, false, 0, 0, false, [], [], 0⟩, by decide +kernel⟩,
   ⟨⟨4, 64, 64, false, false, 0, 64, true, [], [(0, 64)], 0⟩, 2, 2048, 0, 64, [], mirrorSt ⟨4, 64, 64, false, false, 0, 64, true, [], [(0, 64)], 0⟩, by decide +kernel⟩,
   ⟨{ pairSt 5 [(Reg.PAI_SYNC, Fld.PAI_SYNC_watermark, 14336)] with pair := { (pairSt 5 []).pair with copying := true } }, by decide +kernel⟩,
   ⟨{ pairSt 1 [] with pair := { (pairSt 1 []).pair with partnerRole := 4 } }, by decide +kernel⟩⟩

theorem wit_HallmarkAttestsAndBinds :
    (∃ (path : Path) (value : Word) (w : State) (s : State),
      (OnlySec value Fld.SEC_CTL_quote) ∧ (w = s.writeFields path Reg.SEC_CTL (setF value Fld.SEC_CTL_quote 1)) ∧ (RegsKept w) ∧ (w.sec.job = none) ∧ (w.hallmarkOn = true) ∧ (w.sec.session = none) ∧ (w.sec.sessionsUsed < 1024)) ∧
    (∃ (path : Path) (value : Word) (w : State) (s : State),
      (OnlySec value Fld.SEC_CTL_quote) ∧ (w = s.writeFields path Reg.SEC_CTL (setF value Fld.SEC_CTL_quote 1)) ∧ (RegsKept w) ∧ (w.sec.job = none) ∧ (w.hallmarkOn = true) ∧ (w.sec.session ≠ none)) ∧
    (∃ (path : Path) (value : Word) (w : State) (s : State),
      (OnlySec value Fld.SEC_CTL_quote) ∧ (w = s.writeFields path Reg.SEC_CTL (setF value Fld.SEC_CTL_quote 1)) ∧ (w.sec.job ≠ none)) ∧
    (∃ (cert : List Byte) (env : Env) (nonce : List Byte) (dst : Nat) (k : Nat) (s : State),
      (s.sec.job = some (.quote nonce dst)) ∧ (s.sec.session = some k) ∧ (s.pair.log = []) ∧ (spaceOf dst = 1 ∨ (spaceOf dst = 0 ∧ s.inSlabs (addrOf dst) 69188 = false))) ∧
    (∃ (path : Path) (value : Word) (code : Nat) (r : List Byte) (w : State) (s : State),
      (OnlySec value Fld.SEC_CTL_bind) ∧ (w = s.writeFields path Reg.SEC_CTL (setF value Fld.SEC_CTL_bind 1)) ∧ (w.sec.job = none) ∧ (w.hallmarkOn = true) ∧ (w.bindCheck = (code, r))) ∧
    (∃ (r : List Byte) (s : State),
      (s.sec.job = some (.bindFill r))) ∧
    (∃ (path : Path) (value : Word) (w : State) (s : State),
      (OnlySec value Fld.SEC_CTL_release) ∧ (w = s.writeFields path Reg.SEC_CTL (setF value Fld.SEC_CTL_release 1)) ∧ (w.sec.job = none) ∧ (w.bezel = 1) ∧ (w.que.descs = []) ∧ ((w.setBezel 2).que.descs = []) ∧ ((w.setBezel 2).nt = w.nt)) ∧
    (∃ (path : Path) (value : Word) (w : State) (s : State),
      (OnlySec value Fld.SEC_CTL_release) ∧ (w = s.writeFields path Reg.SEC_CTL (setF value Fld.SEC_CTL_release 1)) ∧ (w.sec.job = none) ∧ (w.bezel ≠ 1)) ∧
    (∃ (s : State),
      (s.sec.job = some .drain) ∧ (s.que.descs = []) ∧ (s.rcp.run = none)) ∧
    (∃ (s : State),
      (RegsKept s) ∧ (Unwatched s) ∧ (s.sec.job = some .scrub) ∧ (s.coh.dir.flatten = [])) ∧
    (∃ (path : Path) (value : Word) (w : State) (s : State),
      (OnlySec value Fld.SEC_CTL_svn_commit) ∧ (w = s.writeFields path Reg.SEC_CTL (setF value Fld.SEC_CTL_svn_commit 1)) ∧ (w.sec.job = none)) ∧
    (∃ (s : State),
      (s.sec.job = some .svn)) :=
  ⟨⟨.firmware, 0, secAsked secSt Fld.SEC_CTL_quote, secSt, by decide +kernel, rfl, by decide +kernel⟩,
   ⟨.firmware, 0, secAsked { secSt with sec := { secSt.sec with session := some 4 } } Fld.SEC_CTL_quote, { secSt with sec := { secSt.sec with session := some 4 } }, by decide +kernel, rfl, by decide +kernel⟩,
   ⟨.firmware, 0, secAsked { secSt with sec := { secSt.sec with job := some .svn } } Fld.SEC_CTL_quote, { secSt with sec := { secSt.sec with job := some .svn } }, by decide +kernel, rfl, by decide +kernel⟩,
   ⟨[], noEnv, [], 5, 4, { secSt with sec := { secSt.sec with session := some 4, job := some (.quote [] 5) } }, by decide +kernel⟩,
   ⟨.firmware, 0, (secAsked secSt Fld.SEC_CTL_bind).bindCheck.1, (secAsked secSt Fld.SEC_CTL_bind).bindCheck.2, secAsked secSt Fld.SEC_CTL_bind, secSt, by decide +kernel, rfl, by decide +kernel⟩,
   ⟨[], { secSt with sec := { secSt.sec with job := some (.bindFill []) } }, by decide +kernel⟩,
   ⟨.firmware, 0, secAsked boundSt Fld.SEC_CTL_release, boundSt, by decide +kernel, rfl, by decide +kernel, by decide +kernel, by decide +kernel, by decide +kernel, rfl⟩,
   ⟨.firmware, 0, secAsked secSt Fld.SEC_CTL_release, secSt, by decide +kernel, rfl, by decide +kernel⟩,
   ⟨{ boundSt with sec := { boundSt.sec with job := some .drain } }, by decide +kernel⟩,
   ⟨{ boundSt with sec := { boundSt.sec with job := some .scrub } }, by decide +kernel⟩,
   ⟨.firmware, 0, secAsked secSt Fld.SEC_CTL_svn_commit, secSt, by decide +kernel, rfl, by decide +kernel⟩,
   ⟨{ secSt with sec := { secSt.sec with job := some .svn }, boot := { secSt.boot with fwSvn := 7 } }, by decide +kernel⟩⟩

theorem wit_LoupeTracesAndStops :
    (∃ (cls : Fin 16) (idx : Fin 4096) (r : TraceRec) (s : State),
      (s.coreStopped = false) ∧ (s.loupe.writer = []) ∧ ((s.loupe.sources.find? fun r => r.cls == cls.val && r.idx % 4096 == idx.val) = some r)) ∧
    (∃ (cls : Fin 16) (idx : Fin 4096) (r : TraceRec) (s : State),
      (s.coreStopped = true) ∧ (s.on Reg.LPE_TRC_CFG Fld.LPE_TRC_CFG_dest = false) ∧ (s.loupe.refused = []) ∧ (s.loupe.writer.length < 1024) ∧ ((s.loupe.sources.find? fun r => r.cls == cls.val && r.idx % 4096 == idx.val) = some r)) ∧
    (∃ (path : Path) (value : Word) (w : State) (s : State),
      (w = s.writeFields path Reg.LPE_TRC_CTL (setF value Fld.LPE_TRC_CTL_trigger 1)) ∧ (getF value Fld.LPE_TRC_CTL_rearm = 0)) ∧
    (∃ (path : Path) (value : Word) (w : State) (s : State),
      (w = s.writeFields path Reg.LPE_TRC_CTL (setF value Fld.LPE_TRC_CTL_rearm 1)) ∧ (getF value Fld.LPE_TRC_CTL_trigger = 0)) ∧
    (∃ (path : Path) (q : Quad) (n : Fin 512) (value : Word) (s : State),
      (RegsKept s)) ∧
    (∃ (path : Path) (value : Word) (w : State) (s : State),
      (w = s.writeFields path Reg.LPE_STOP (setF value Fld.LPE_STOP_stop 1)) ∧ (getF value Fld.LPE_STOP_resume = 0)) ∧
    (∃ (held : Bool) (w : State) (s : State),
      (w = { s with pins := { s.pins with stopInN := !held } })) ∧
    (∃ (path : Path) (value : Word) (w : State) (s : State),
      (w = s.writeFields path Reg.LPE_STOP (setF value Fld.LPE_STOP_resume 1)) ∧ (getF value Fld.LPE_STOP_stop = 0) ∧ (w.stopped = true) ∧ (w.dumping = false) ∧ (w.loupe.lostLinks = []) ∧ (w.on Reg.LPE_STOP Fld.LPE_STOP_resumable = true) ∧ ((w.on Reg.LPE_STOP Fld.LPE_STOP_pin_en = true → w.pins.stopInN = true)) ∧ (w.pins.thermN = true)) ∧
    (∃ (path : Path) (value : Word) (w : State) (s : State),
      (w = s.writeFields path Reg.LPE_STOP (setF value Fld.LPE_STOP_resume 1)) ∧ (getF value Fld.LPE_STOP_stop = 0) ∧ (w.stopped = false)) ∧
    (∃ (x : Nat) (s : State),
      (RegsKept s) ∧ (s.loupe.resume = some x) ∧ (x ≤ s.nt)) ∧
    (∃ (s : State),
      (s.nt / 2 ^ 48 % 2 ^ 16 ≠ s.loupe.ntHigh)) :=
  ⟨⟨8, 3, rec0, recSt, by decide +kernel⟩,
   ⟨8, 3, rec0, { recSt with pins := { recSt.pins with thermN := false } }, by decide +kernel⟩,
   ⟨.firmware, 0, (st []).writeFields .firmware Reg.LPE_TRC_CTL (setF 0 Fld.LPE_TRC_CTL_trigger 1), st [], rfl, by decide +kernel⟩,
   ⟨.firmware, 0, (st []).writeFields .firmware Reg.LPE_TRC_CTL (setF 0 Fld.LPE_TRC_CTL_rearm 1), st [], rfl, by decide +kernel⟩,
   ⟨.firmware, 2, 9, 77, st [(Reg.LPE_CTR 2 9, ⟨0, 64⟩, 5)], by decide +kernel⟩,
   ⟨.firmware, 0, (st []).writeFields .firmware Reg.LPE_STOP (setF 0 Fld.LPE_STOP_stop 1), st [], rfl, by decide +kernel⟩,
   ⟨true, { st [] with pins := { State.reset.pins with stopInN := false } }, st [], rfl⟩,
   ⟨.firmware, 0, (stopSt []).writeFields .firmware Reg.LPE_STOP (setF 0 Fld.LPE_STOP_resume 1), stopSt [], rfl, by decide +kernel⟩,
   ⟨.firmware, 0, (st []).writeFields .firmware Reg.LPE_STOP (setF 0 Fld.LPE_STOP_resume 1), st [], rfl, by decide +kernel⟩,
   ⟨0, { stopSt [] with loupe := { State.reset.loupe with resume := some 0 } }, by decide +kernel⟩,
   ⟨{ quiet [] with time := ⟨2 ^ 48, 2 ^ 48, 0, 0⟩ }, by decide +kernel⟩⟩

theorem wit_LoupeDumpsAndWatches :
    (∃ (path : Path) (value : Word) (s : State),
      (s.on Reg.LPE_SNAP_CTL Fld.LPE_SNAP_CTL_busy = false)) ∧
    (∃ (path : Path) (value : Word) (s : State),
      (s.on Reg.LPE_SNAP_CTL Fld.LPE_SNAP_CTL_busy = true)) ∧
    (∃ (q : Quad) (n : Fin 512) (x : Nat) (s : State),
      (RegsKept s) ∧ (s.loupe.snapshot = some x) ∧ (x ≤ s.nt)) ∧
    (∃ (path : Path) (value : Word) (w : State) (s : State),
      (w = s.writeFields path Reg.LPE_DUMP_CTL (setF value Fld.LPE_DUMP_CTL_go 1)) ∧ (w.stopped = true) ∧ (w.on Reg.LPE_DUMP_CTL Fld.LPE_DUMP_CTL_busy = false)) ∧
    (∃ (path : Path) (value : Word) (w : State) (s : State),
      (w = s.writeFields path Reg.LPE_DUMP_CTL (setF value Fld.LPE_DUMP_CTL_go 1)) ∧ (w.stopped = false)) ∧
    (∃ (s : State),
      (s.on Reg.LPE_DUMP_CTL Fld.LPE_DUMP_CTL_busy = true)) ∧
    (∃ (q : Quad) (s : State),
      (s.fld (Reg.LPE_WDOG q) Fld.LPE_WDOG_timeout_ms ≠ 0) ∧ (s.on (Reg.LPE_WDOG q) Fld.LPE_WDOG_expired = false) ∧ (s.loupe.wdogArmed.getD q true = true) ∧ (s.fld (Reg.LPE_WDOG q) Fld.LPE_WDOG_timeout_ms * 1000000 ≤ s.loupe.wdog.getD q 0)) ∧
    (∃ (q : Quad) (s : State),
      (RegsKept s) ∧ (Unwatched s) ∧ (s.on (Reg.LPE_WDOG q) Fld.LPE_WDOG_dumping = true) ∧ (s.dumpBase = 0)) ∧
    (∃ (path : Path) (q : Quad) (value : Word) (w : State) (s : State),
      (w = s.writeFields path (Reg.LPE_WDOG q) (setF value Fld.LPE_WDOG_rearm 1))) :=
  ⟨⟨.firmware, 0, { quiet [] with time := ⟨1234, 1234, 0, 0⟩ }, by decide +kernel⟩,
   ⟨.firmware, 0, st [(Reg.LPE_SNAP_CTL, Fld.LPE_SNAP_CTL_busy, 1)], by decide +kernel⟩,
   ⟨2, 9, 1000, { st [(Reg.LPE_CTR 2 9, ⟨0, 64⟩, 5), (Reg.LPE_SNAP 1 3, ⟨0, 64⟩, 5), (Reg.LPE_SNAP_CTL, Fld.LPE_SNAP_CTL_busy, 1)] with time := ⟨1000, 1000, 0, 0⟩, loupe := { State.reset.loupe with snapshot := some 1000 } }, by decide +kernel⟩,
   ⟨.firmware, 0, (stopSt [(Reg.LPE_DUMP, Fld.LPE_DUMP_base, 2 ^ 30)]).writeFields .firmware Reg.LPE_DUMP_CTL (setF 0 Fld.LPE_DUMP_CTL_go 1), stopSt [(Reg.LPE_DUMP, Fld.LPE_DUMP_base, 2 ^ 30)], rfl, by decide +kernel⟩,
   ⟨.firmware, 0, (st []).writeFields .firmware Reg.LPE_DUMP_CTL (setF 0 Fld.LPE_DUMP_CTL_go 1), st [], rfl, by decide +kernel⟩,
   ⟨stopSt [(Reg.LPE_DUMP_CTL, Fld.LPE_DUMP_CTL_busy, 1)], by decide +kernel⟩,
   ⟨2, { quiet [(Reg.LPE_WDOG 2, Fld.LPE_WDOG_timeout_ms, 1)] with loupe := { State.reset.loupe with wdog := [0, 0, 1000000, 0], wdogArmed := [true, true, true, true] } }, by decide +kernel⟩,
   ⟨2, { quiet [(Reg.LPE_WDOG 2, Fld.LPE_WDOG_dumping, 1)] with loupe := { State.reset.loupe with hung := [2] } }, by decide +kernel⟩,
   ⟨.firmware, 2, 0, (quiet [(Reg.LPE_WDOG 2, Fld.LPE_WDOG_expired, 1)]).writeFields .firmware (Reg.LPE_WDOG 2) (setF 0 Fld.LPE_WDOG_rearm 1), quiet [(Reg.LPE_WDOG 2, Fld.LPE_WDOG_expired, 1)], rfl⟩⟩

theorem wit_BoardPortsWork :
    (∃ (write : Bool) (offset : BitVec 26) (value : Word) (env : Env) (s : State),
      (s.boot.smbus = false)) ∧
    (∃ (offset : BitVec 26) (value : Word) (env : Env) (w : State) (v : Word) (refused : Bool) (s : State),
      (s.boot.smbus = true) ∧ (((s.loadTap 0x10).emit (.jtag 96 s.regCapture)).accessRead .jtag offset.toNat 8 = (w, v, refused))) ∧
    (∃ (offset : BitVec 26) (value : Word) (env : Env) (w : State) (refused : Bool) (s : State),
      (s.boot.smbus = true) ∧ (((s.loadTap 0x10).emit (.jtag 96 s.regCapture)).accessWrite .jtag offset.toNat 8 value env = (w, refused))) ∧
    (∃ (w : State) (s : State),
      (s.stopped = true) ∧ (w = { s with ports := { s.ports with instr := 0x13 } })) ∧
    (∃ (host : Nat) (count : Nat) (offset : Nat) (pecOk : Bool) (s : State),
      (s.boot.smbus = true) ∧ (count = 4) ∧ (pecOk = true)) ∧
    (∃ (host : Nat) (w : State) (v : Word) (refused : Bool) (s : State),
      (s.boot.smbus = true) ∧ (s.accessRead .smbus (mget (fun _ => 0) s.ports.smbAddr host) 8 = (w, v, refused))) ∧
    (∃ (s : State),
      (s.boot.smbus = true)) :=
  ⟨⟨false, 0x10, 5, noEnv, st [], by decide +kernel⟩,
   ⟨0x38, 0, noEnv, (((portSt.loadTap 0x10).emit (.jtag 96 portSt.regCapture)).accessRead .jtag 0x38 8).1, (((portSt.loadTap 0x10).emit (.jtag 96 portSt.regCapture)).accessRead .jtag 0x38 8).2.1, (((portSt.loadTap 0x10).emit (.jtag 96 portSt.regCapture)).accessRead .jtag 0x38 8).2.2, portSt, by decide +kernel, eta3 _⟩,
   ⟨0x38, 6, noEnv, (((portSt.loadTap 0x10).emit (.jtag 96 portSt.regCapture)).accessWrite .jtag 0x38 8 6 noEnv).1, (((portSt.loadTap 0x10).emit (.jtag 96 portSt.regCapture)).accessWrite .jtag 0x38 8 6 noEnv).2, portSt, by decide +kernel, eta2 _⟩,
   ⟨(stopSt []).loadTap 0x13, stopSt [], by decide +kernel, rfl⟩,
   ⟨3, 4, 0x38, true, portSt, by decide +kernel⟩,
   ⟨3, (portSt.accessRead .smbus 0 8).1, (portSt.accessRead .smbus 0 8).2.1, (portSt.accessRead .smbus 0 8).2.2, portSt, by decide +kernel, eta3 _⟩,
   ⟨portSt, by decide +kernel⟩⟩

theorem wit_EventsReachTheDriver :
    (∃ (e : EventRec) (rest : List EventRec) (s : State),
      (RegsKept s) ∧ (s.events.queue = e :: rest) ∧ (s.on Reg.EVT_CTL Fld.EVT_CTL_enable = true) ∧ (s.ilcActive = true) ∧ (s.unconsumed + 1 < 2 ^ s.evtLog)) ∧
    (∃ (e : EventRec) (rest : List EventRec) (s : State),
      (s.events.queue = e :: rest) ∧ ((s.on Reg.EVT_CTL Fld.EVT_CTL_enable = false ∨ s.ilcActive = false ∨ 2 ^ s.evtLog ≤ s.unconsumed + 1))) ∧
    (∃ (s : State),
      (s.on Reg.EVT_NOTIFY Fld.EVT_NOTIFY_enable = true) ∧ (s.events.notifyDue = true) ∧ (s.events.notifyNt = none) ∧ (s.ilcActive = true)) ∧
    (∃ (s : State),
      (s.events.notifyNt = some 0) ∧ (s.nt < s.fld Reg.EVT_NOTIFY Fld.EVT_NOTIFY_holdoff_us * 1000)) ∧
    (∃ (cause : Fin 16) (quadrant : Option Quad) (s : State),
      (RegsKept s) ∧ (Unwatched s) ∧ (2 ≤ cause.val) ∧ (cause.val ≤ 5) ∧ (s.events.fatal = false) ∧ (s.pairing = false) ∧ (s.pair.log = []) ∧ (s.router.tags = []) ∧ (s.pair.answers = []) ∧ (s.pair.doorbells = []) ∧ (s.coh.heldGrants = []) ∧ (s.coh.txns = []) ∧ (s.ilcActive = false)) ∧
    (∃ (cause : Fin 16) (quadrant : Option Quad) (s : State),
      (s.events.fatal = true)) :=
  ⟨⟨⟨0x0901, 8, 3, 7, 9, [], 0⟩, [], ringSt 5 [⟨0x0901, 8, 3, 7, 9, [], 0⟩], by decide +kernel⟩,
   ⟨⟨0x0901, 8, 3, 7, 9, [], 0⟩, [], (ringSt 5 [⟨0x0901, 8, 3, 7, 9, [], 0⟩]).setFld (Reg.ILC_STATUS 0) Fld.ILC_STATUS_state 0, by decide +kernel⟩,
   ⟨{ ringSt 5 [] with events := { (ringSt 5 []).events with notifyDue := true } }, by decide +kernel⟩,
   ⟨({ ringSt 5 [] with events := { (ringSt 5 []).events with notifyDue := true, notifyNt := some 0 } } : State).setFld Reg.EVT_NOTIFY Fld.EVT_NOTIFY_holdoff_us 5, by decide +kernel⟩,
   ⟨2, none, quiet [(Reg.PAI_STATUS, Fld.PAI_STATUS_role, 2)], by decide +kernel⟩,
   ⟨3, none, { st [] with events := { State.reset.events with fatal := true } }, by decide +kernel⟩⟩

theorem wit_WireFormatsRoundTrip :
    (∃ (p : Packet),
      (packetOk p = true) ∧ (p.rsv < 2 ^ 19)) ∧
    (∃ (r : Region),
      (r.id < 2 ^ 64) ∧ (r.version < 2 ^ 32) ∧ (r.publisher < 2 ^ 16) ∧ (r.extent < 2 ^ 44) ∧ (r.len < 2 ^ 64)) :=
  ⟨⟨pk opWrite 2 64 0 [1, 2, 3], by decide +kernel⟩,
   ⟨⟨2 ^ 64 - 1, 2 ^ 32 - 1, true, 0xFFFF, 2 ^ 44 - 1, 5⟩, by decide +kernel⟩⟩

theorem wit_SpareRowsHoldEachGranule :
    (∃ (r : Nat) (s : State),
      (s.spareMode = true)) ∧
    (∃ (j : Nat) (d : Nat),
      (j < 8)) ∧
    (∃ (j : Nat) (d : Nat) (d' : Nat),
      (j < 8) ∧ (rowOf true j d = rowOf true j d')) ∧
    (∃ (j : Nat) (r : Nat),
      (j < 8) ∧ (r % 8 ≠ j) ∧ ((r + 1) % 8 ≠ j)) :=
  ⟨⟨13, st [(Reg.STK_CTL 0, Fld.STK_CTL_pool_mode, 1)], by decide +kernel⟩,
   ⟨3, 17, by decide +kernel⟩,
   ⟨3, 17, 17, by decide +kernel⟩,
   ⟨3, 13, by decide +kernel⟩⟩

theorem wit_WindowsEndWhereClosed :
    (∃ (n : LinkId) (t : Nat) (k : Nat) (s : State),
      (s.on (Reg.TSC_CTL n) Fld.TSC_CTL_enable = true) ∧ (s.gatePos n < cycleOf s n) ∧ (s.gateOpen n t = true) ∧ (s.windowLeft n t = some k)) ∧
    (∃ (n : LinkId) (t : Nat) (s : State),
      (s.on (Reg.TSC_CTL n) Fld.TSC_CTL_enable = true) ∧ (s.gatePos n < cycleOf s n) ∧ (s.gateOpen n t = true)) :=
  ⟨⟨3, 1, 2, gateSt 3, by decide +kernel⟩,
   ⟨3, 0, gateSt 3, by decide +kernel⟩⟩

end Sys2Proof.Tests
end

section
/-! PROOFS. Accesses refused by R3: what the log register reads after a violation, and that an access of another width or alignment logs one and does nothing else. -/

namespace Sys2Proof.Machine

open Sys2Proof

theorem pathCode_lt (path : Path) : pathCode path < 8 := by cases path <;> decide

/-- A saturating count is the sum, held to the top of the width. -/
theorem satAdd_eq_min (w a b : Nat) : satAdd w a b = min (a + b) (2 ^ w - 1) := by
  unfold satAdd
  split <;> omega

section

variable {s : State} (h : s.RegsOk) (path : Path) (kind off : Nat)
include h

/-- The word of GLB_CFG_VIOL after a violation: the four fields of Table RM-8 are set, and no other bit. -/
theorem State.reg_logViol_same :
    (s.logViol path kind off).reg Reg.GLB_CFG_VIOL =
      setF (setF (setF (setF (s.reg Reg.GLB_CFG_VIOL) Fld.GLB_CFG_VIOL_offset off) Fld.GLB_CFG_VIOL_kind kind)
        Fld.GLB_CFG_VIOL_path (pathCode path)) Fld.GLB_CFG_VIOL_count
        (satAdd 16 (s.fld Reg.GLB_CFG_VIOL Fld.GLB_CFG_VIOL_count) 1) := by
  have hOff := State.setFld_ok h Reg.GLB_CFG_VIOL Fld.GLB_CFG_VIOL_offset off
  have hKind := State.setFld_ok hOff Reg.GLB_CFG_VIOL Fld.GLB_CFG_VIOL_kind kind
  have hPath := State.setFld_ok hKind Reg.GLB_CFG_VIOL Fld.GLB_CFG_VIOL_path (pathCode path)
  rw [State.logViol, State.countSat, State.reg_setFld_same hPath, State.fld_setFld_apart hKind _ _ _ rfl,
    State.fld_setFld_apart hOff _ _ _ rfl, State.fld_setFld_apart h _ _ _ rfl, State.reg_setFld_same hKind,
    State.reg_setFld_same hOff, State.reg_setFld_same h]
  rfl

theorem State.fld_logViol_offset :
    (s.logViol path kind off).fld Reg.GLB_CFG_VIOL Fld.GLB_CFG_VIOL_offset = off % 2 ^ 26 := by
  rw [State.fld, State.reg_logViol_same h, getF_setF_apart _ _ _ _ rfl, getF_setF_apart _ _ _ _ rfl,
    getF_setF_apart _ _ _ _ rfl, getF_setF_same _ _ _ rfl]
  rfl

theorem State.fld_logViol_kind :
    (s.logViol path kind off).fld Reg.GLB_CFG_VIOL Fld.GLB_CFG_VIOL_kind = kind % 2 ^ 4 := by
  rw [State.fld, State.reg_logViol_same h, getF_setF_apart _ _ _ _ rfl, getF_setF_apart _ _ _ _ rfl,
    getF_setF_same _ _ _ rfl]
  rfl

theorem State.fld_logViol_path :
    (s.logViol path kind off).fld Reg.GLB_CFG_VIOL Fld.GLB_CFG_VIOL_path = pathCode path := by
  rw [State.fld, State.reg_logViol_same h, getF_setF_apart _ _ _ _ rfl, getF_setF_same _ _ _ rfl]
  exact Nat.mod_eq_of_lt (pathCode_lt path)

theorem State.fld_logViol_count :
    (s.logViol path kind off).fld Reg.GLB_CFG_VIOL Fld.GLB_CFG_VIOL_count =
      min (s.fld Reg.GLB_CFG_VIOL Fld.GLB_CFG_VIOL_count + 1) 65535 := by
  rw [State.fld, State.reg_logViol_same h, getF_setF_same _ _ _ rfl, satAdd_eq_min]
  exact Nat.mod_eq_of_lt (Nat.lt_of_le_of_lt (Nat.min_le_right _ _) (by decide))

/-- A violation whose kind and offset fit their fields is logged as R501 says, and nothing else changes. -/
theorem State.logViol_logged (hKind : kind < 2 ^ 4) (hOff : off < 2 ^ 26) : Logged s (s.logViol path kind off) path kind off := by
  refine ⟨?offset, ?kind, State.fld_logViol_path h path kind off, State.fld_logViol_count h path kind off, rfl, ?others⟩
  case offset => rw [State.fld_logViol_offset h, Nat.mod_eq_of_lt hOff]
  case kind => rw [State.fld_logViol_kind h, Nat.mod_eq_of_lt hKind]
  case others => exact fun o ho => State.reg_logViol_other s path kind off (by simpa using ho)

end

/-- The test of R3 that both accesses make. -/
theorem misaligned_iff (off size : Nat) : (size != 8 || off % 8 != 0) = true ↔ size ≠ 8 ∨ off % 8 ≠ 0 := by simp

section

variable {off size : Nat} (h : size ≠ 8 ∨ off % 8 ≠ 0) (s : State) (path : Path)
include h

theorem State.accessWrite_misaligned (value : Word) (env : Env) :
    s.accessWrite path off size value env = (s.logViol path 1 off, true) := if_pos ((misaligned_iff off size).2 h)

theorem State.accessRead_misaligned : s.accessRead path off size = (s.logViol path 1 off, 0, true) :=
  if_pos ((misaligned_iff off size).2 h)

end

/-- Below the doorbell pages a write over any path, Ilcen too, is a register access. -/
theorem registerWriteEff_of_lt {off : Nat} (h : off < 2 ^ 26) (path : Path) (size : Nat) (value : Word) (env : Env) (s : State) :
    registerWriteEff path off size value env s = (s.accessWrite path off size value env).1 := by
  have below : ¬ 67108864 ≤ off := Nat.not_le.2 h
  simp [registerWriteEff, below]

end Sys2Proof.Machine

namespace Sys2Proof

open Machine

/-- Settles O17: the test of R3 stands before every other one of an access, and what it answers is the state with the access logged. -/
theorem accessesAreAligned : Obligations.AccessesAreAligned := by
  unfold Obligations.AccessesAreAligned
  constructor
  case left =>
    intro path off size value env s hRegs hOff hBad
    refine ⟨_, rfl, ?_⟩
    rw [registerWriteEff_of_lt hOff, State.accessWrite_misaligned hBad]
    exact State.logViol_logged hRegs path 1 off (by decide) hOff
  case right =>
    intro path off size s hRegs hOff hBad
    rw [State.accessRead_misaligned hBad]
    exact ⟨rfl, State.logViol_logged hRegs path 1 off (by decide) hOff⟩

end Sys2Proof
end

section
/-! PROOFS. Resets drop what is staged (R45): the registers that a warm reset keeps have no RWS field, so a reset of any type leaves every RWS field at its reset value, with no commit pending and nothing in the shadow copy. -/

namespace Sys2Proof.Machine

open Sys2Proof

/-- A row of the register map without an RWS field. -/
def RegRow.noRws (r : RegRow) : Bool := r.fields.all fun f => decide (f.acc ≠ .rws)

/-- The fields of a row without an RWS field add nothing to the mask of the RWS bits. -/
theorem foldl_rwsMask_eq (fs : List RegField) (n : Nat) (h : (fs.all fun f => decide (f.acc ≠ .rws)) = true) :
    fs.foldl (fun n f => if f.acc = .rws then n + (2 ^ f.width - 1) * 2 ^ f.lo else n) n = n := by
  induction fs with
  | nil => rfl
  | cons f fs ih =>
    obtain ⟨hf, hfs⟩ : f.acc ≠ .rws ∧ (fs.all fun f => decide (f.acc ≠ .rws)) = true := by simpa using h
    rw [List.foldl_cons, if_neg hf, ih hfs]

/-- An offset has no RWS bit where no row of its block that holds it has an RWS field. -/
theorem accMask_rws_eq_zero {off inst rel : Nat} {w : Window} (hw : windowOf off = some (w, inst, rel))
    (h : ∀ r ∈ rowsNear w rel, r.holds w rel = true → r.noRws = true) : accMask off .rws = 0 := by
  have hRow : regRow off = (rowsNear w rel).find? fun r => r.holds w rel := by simp [regRow, hw]
  unfold accMask
  split
  case h_1 => rfl
  case h_2 r hr =>
    rw [hRow] at hr
    exact foldl_rwsMask_eq _ 0 (h r (List.mem_of_find?_eq_some hr) (List.find?_some (p := fun r : RegRow => r.holds w rel) hr))

/-! The blocks whose registers a warm reset keeps (Tables RM-5 to RM-7). -/

theorem rowsCLK_noRws : ∀ r ∈ rowsCLK, r.noRws = true := by decide

theorem rowsPWR_noRws : ∀ r ∈ rowsPWR, r.noRws = true := by decide

theorem rowsCLS_noRws : ∀ r ∈ rowsCLS, r.noRws = true := by decide

/-- Only BNK_CTL, below the BNK_BANK registers, has an RWS field. -/
theorem rowsBNK_noRws : ∀ r ∈ rowsBNK, r.noRws = true ∨ (r.base = 0x90000 ∧ r.dims = []) := by decide

theorem accMask_rws_of_warmKeeps {off : Nat} (h : warmKeeps off = true) : accMask off .rws = 0 := by
  have hOff : (off = Reg.CLK_STATUS ∨ off = Reg.PWR_SENSE_STATUS) ∨ (Reg.PWR_STRETCH_CNT 0 ≤ off ∧ off < Reg.PWR_STRETCH_CNT 4) := by
    simpa [warmKeeps] using h
  simp only [Reg.CLK_STATUS, Reg.PWR_SENSE_STATUS, Reg.PWR_STRETCH_CNT] at hOff
  have hw : windowOf off = some (.glob, 0, off) := if_pos (by omega)
  have hBlock : off / 0x10000 = 2 ∨ off / 0x10000 = 3 := by omega
  refine accMask_rws_eq_zero hw fun r hr _ => ?_
  rcases hBlock with hClk | hPwr
  · exact rowsCLK_noRws r (by simpa [rowsNear, hClk] using hr)
  · exact rowsPWR_noRws r (by simpa [rowsNear, hPwr] using hr)

theorem accMask_rws_of_poolKeeps {off : Nat} (h : poolKeeps off = true) : accMask off .rws = 0 := by
  unfold poolKeeps at h
  split at h
  case h_1 inst rel hw =>
    have hRel : (rel = 0x80000 ∨ rel = 0x80030) ∨ (0x81000 ≤ rel ∧ rel < 0x81800) := by simpa using h
    have hCls : rel / 0x10000 = 8 := by omega
    exact accMask_rws_eq_zero hw fun r hr _ => rowsCLS_noRws r (by simpa [rowsNear, hCls] using hr)
  case h_2 => cases h

theorem accMask_rws_of_bankRegister {off : Nat} (h : bankRegister off = true) : accMask off .rws = 0 := by
  unfold bankRegister at h
  split at h
  case h_1 inst rel hw =>
    have hRel : 0x91000 ≤ rel ∧ rel < 0x92000 := by simpa using h
    have hBnk : rel / 0x10000 = 9 := by omega
    refine accMask_rws_eq_zero hw fun r hr hHolds => ?_
    refine (rowsBNK_noRws r (by simpa [rowsNear, hBnk] using hr)).resolve_right ?_
    rintro ⟨hBase, hDims⟩
    have hHere : rel - 0x90000 = 0 := by
      simp only [RegRow.holds, hBase, hDims, inDims, Bool.and_eq_true, beq_iff_eq] at hHolds
      exact hHolds.2
    omega
  case h_2 => cases h

theorem accMask_rws_linkTime : ∀ n < 32, accMask (Reg.LNK_TIME_OFS n) .rws = 0 ∧ accMask (Reg.LNK_TIME_DELAY n) .rws = 0 := by
  decide

theorem accMask_rws_portStatus : ∀ n < 32, accMask (portStatus n) .rws = 0 := by decide

theorem accMask_rws_clsStatus : ∀ q < 4, accMask (Reg.CLS_STATUS q) .rws = 0 := by decide

theorem accMask_rws_of_keepsOffset {s : State} {off : Nat} (h : s.keepsOffset off = true) : accMask off .rws = 0 := by
  obtain ⟨n, hn, -, hOff⟩ : ∃ n < 32, lsActive ≤ s.linkState n ∧ (off = Reg.LNK_TIME_OFS n ∨ off = Reg.LNK_TIME_DELAY n) := by
    simpa [State.keepsOffset] using h
  rcases hOff with rfl | rfl
  · exact (accMask_rws_linkTime n hn).1
  · exact (accMask_rws_linkTime n hn).2

/-- What R45 asks of the state that a reset leaves: no commit pending, nothing staged, and every RWS field at its reset value. -/
def StagingDropped (t : State) : Prop := t.commit = none ∧ t.shadow = [] ∧ ∀ off, rwsPart off (t.reg off) = shadowReset off

namespace StagingDropped

/-- It speaks of the registers, the shadow copy and the commit alone. -/
theorem congr {s t : State} (h : StagingDropped s) (hRegs : t.regs = s.regs) (hShadow : t.shadow = s.shadow) (hCommit : t.commit = s.commit) :
    StagingDropped t := by
  obtain ⟨noCommit, noShadow, atReset⟩ := h
  exact ⟨hCommit.trans noCommit, hShadow.trans noShadow, fun off => by rw [State.reg, hRegs]; exact atReset off⟩

/-- A register without RWS bits may take any value. -/
theorem setReg {s : State} (h : StagingDropped s) {off : Nat} (hOff : accMask off .rws = 0) (w : Word) : StagingDropped (s.setReg off w) := by
  obtain ⟨noCommit, noShadow, atReset⟩ := h
  refine ⟨noCommit, noShadow, fun o => ?_⟩
  by_cases ho : o = off
  · subst ho
    simp [shadowReset, rwsPart, hOff]
  · rw [State.reg_setReg_other s w ho]
    exact atReset o

theorem setFld {s : State} (h : StagingDropped s) {off : Nat} (hOff : accMask off .rws = 0) (f : Field) (v : Nat) :
    StagingDropped (s.setFld off f v) := h.setReg hOff _

end StagingDropped

theorem stagingDropped_afterReset (s : State) (cause : Nat) : StagingDropped (s.afterReset cause) :=
  StagingDropped.setFld ⟨rfl, rfl, fun _ => rfl⟩ (by decide) _ _

theorem stagingDropped_coldReset (s : State) (cause : Nat) : StagingDropped (s.coldReset cause) :=
  (stagingDropped_afterReset s cause).congr rfl rfl rfl

theorem StagingDropped.keepBankMarks {s : State} (h : StagingDropped s) (old : State) : StagingDropped (s.keepBankMarks old) := by
  refine List.foldlRecOn _ _ h fun t ht e he => ?_
  have hBank := accMask_rws_of_bankRegister (List.mem_filter.1 he).2
  exact (ht.setFld hBank _ _).setFld hBank _ _

theorem StagingDropped.settleGroup {s : State} (h : StagingDropped s) {q : Nat} (hq : q < 4) : StagingDropped (s.settleGroup q) := by
  unfold State.settleGroup
  dsimp only
  split
  case isTrue => exact StagingDropped.setFld (h.congr rfl rfl rfl) (accMask_rws_clsStatus q hq) _ _
  case isFalse => split <;> exact h.congr rfl rfl rfl

theorem StagingDropped.keepStacks {s : State} (h : StagingDropped s) (old : State) : StagingDropped (s.keepStacks old) := by
  refine List.foldlRecOn _ _ ?ports fun t ht q hq => ht.settleGroup (List.mem_range.1 hq)
  case ports =>
    refine List.foldlRecOn _ _ (h.congr rfl rfl rfl) fun t ht n hn => ?_
    have hPort := accMask_rws_portStatus n (List.mem_range.1 hn)
    exact (ht.setFld hPort _ _).setFld hPort _ _

theorem StagingDropped.keepStacksIf {s : State} (h : StagingDropped s) (old : State) (keep : Bool) :
    StagingDropped (if keep then s.keepStacks old else s) := by
  split
  · exact h.keepStacks old
  · exact h

theorem StagingDropped.setRegs {s : State} (h : StagingDropped s) {kept : List (Nat × Word)} (hKept : ∀ e ∈ kept, accMask e.1 .rws = 0) :
    StagingDropped (kept.foldl (fun s e => s.setReg e.1 e.2) s) :=
  List.foldlRecOn _ _ h fun _ ht e he => ht.setReg (hKept e he) e.2

/-- What a warm reset keeps of the registers holds no RWS bit (Table SU-1). -/
theorem accMask_rws_of_warmKept (s : State) (keep : Bool) :
    ∀ e ∈ s.regs.filter fun e => warmKeeps e.1 || s.keepsOffset e.1 || (keep && poolKeeps e.1), accMask e.1 .rws = 0 := by
  intro e he
  have hKept : (warmKeeps e.1 = true ∨ s.keepsOffset e.1 = true) ∨ keep = true ∧ poolKeeps e.1 = true := by
    simpa using (List.mem_filter.1 he).2
  rcases hKept with (hWarm | hLink) | ⟨-, hPool⟩
  · exact accMask_rws_of_warmKeeps hWarm
  · exact accMask_rws_of_keepsOffset hLink
  · exact accMask_rws_of_poolKeeps hPool

/-- No staged value and no applied one outlives a warm reset (R45). -/
theorem stagingDropped_warmReset (s : State) (keepPool : Bool) : StagingDropped (s.warmReset keepPool) := by
  have hRegs := (stagingDropped_afterReset s 6).setRegs (accMask_rws_of_warmKept s (keepPool && s.bezel == 0))
  have hLocked := hRegs.setFld (off := Reg.PWR_SENSE_STATUS) (by decide) Fld.PWR_SENSE_STATUS_therm_locked 0
  unfold State.warmReset
  dsimp only
  refine StagingDropped.keepStacksIf (StagingDropped.keepBankMarks ?_ s) s _
  exact hLocked.congr rfl rfl rfl

/-- A write of CFG_RESET with the cold bit is a cold reset of cause 5, whatever its warm bit holds (R45). -/
theorem cfgResetWrite_cold {value : Word} (h : getF value Fld.CFG_RESET_cold = 1) (path : Path) (s : State) :
    cfgResetWrite path value s = (s.writeFields path Reg.CFG_RESET value).coldReset 5 := if_pos h

/-- A write of CFG_RESET with either bit leaves nothing staged (R45). -/
theorem stagingDropped_cfgResetWrite {value : Word} (h : getF value Fld.CFG_RESET_warm = 1 ∨ getF value Fld.CFG_RESET_cold = 1)
    (path : Path) (s : State) : StagingDropped (cfgResetWrite path value s) := by
  by_cases hCold : getF value Fld.CFG_RESET_cold = 1
  · rw [cfgResetWrite_cold hCold]
    exact stagingDropped_coldReset _ 5
  · have hWarm := h.resolve_right hCold
    simp only [cfgResetWrite, if_neg hCold, if_pos hWarm]
    exact stagingDropped_warmReset _ _

/-- The cause that a reset leaves in CFG_BOOT_STATUS. -/
theorem State.fld_coldReset_cause (s : State) (cause : Nat) :
    (s.coldReset cause).fld Reg.CFG_BOOT_STATUS Fld.CFG_BOOT_STATUS_reset_cause = cause % 8 :=
  State.fld_setFld_same (s := { State.reset with regs := [] }) rfl Reg.CFG_BOOT_STATUS cause rfl

/-- The bit that the row CFG_RESET_COLD names. -/
theorem coldBit_of_coldRow (value : Word) : getF (setF value Fld.CFG_RESET_cold 1) Fld.CFG_RESET_cold = 1 := getF_setF_same _ _ _ rfl

/-- The bit that the row CFG_RESET_WARM names. -/
theorem warmBit_of_warmRow (value : Word) : getF (setF value Fld.CFG_RESET_warm 1) Fld.CFG_RESET_warm = 1 := getF_setF_same _ _ _ rfl

/-- The row CFG_RESET_WARM leaves the cold bit of its value as it is. -/
theorem coldBit_of_warmRow (value : Word) : getF (setF value Fld.CFG_RESET_warm 1) Fld.CFG_RESET_cold = getF value Fld.CFG_RESET_cold :=
  getF_setF_apart _ _ _ _ rfl

/-- Where the cold bit is written, the reset shows cause 5 and is no warm one (R45). -/
theorem cfgResetWrite_cold_prevails {value : Word} (h : getF value Fld.CFG_RESET_cold = 1) (path : Path) (s : State) :
    (cfgResetWrite path value s).fld Reg.CFG_BOOT_STATUS Fld.CFG_BOOT_STATUS_reset_cause = 5 ∧ (cfgResetWrite path value s).boot.warm = false := by
  rw [cfgResetWrite_cold h]
  exact ⟨State.fld_coldReset_cause _ 5, rfl⟩

theorem stagingDropped_pwrokLossEff {s : State} (h : s.pins.perstN = true) : StagingDropped (pwrokLossEff s) := by
  simp only [pwrokLossEff, h, if_true]
  exact stagingDropped_coldReset _ 2

end Sys2Proof.Machine

namespace Sys2Proof

open Machine

/-- Settles O8: every reset starts from the reset state, and what Table SU-1 has a warm one keep lies in registers without RWS bits. -/
theorem resetsCancelCommits : Obligations.ResetsCancelCommits := by
  unfold Obligations.ResetsCancelCommits
  refine ⟨?coldBit, ?coldRow, ?powerOn, ?perstN, ?pwrok, ?undervoltage, ?overTemperature, ?dropCold, ?dropWarm⟩
  case coldBit => exact fun path value s h => ⟨_, rfl, cfgResetWrite_cold_prevails ((coldBit_of_warmRow value).trans h) path s⟩
  case coldRow => exact fun path value s => ⟨_, rfl, cfgResetWrite_cold_prevails (coldBit_of_coldRow value) path s⟩
  case powerOn => exact fun s => ⟨_, rfl, (stagingDropped_afterReset s 0).congr rfl rfl rfl⟩
  case perstN => exact fun s => ⟨_, rfl, stagingDropped_coldReset _ 1⟩
  case pwrok => exact fun s h => ⟨_, rfl, stagingDropped_pwrokLossEff h⟩
  case undervoltage => exact fun _ s => ⟨_, rfl, stagingDropped_coldReset s 3⟩
  case overTemperature => exact fun _ s => ⟨_, rfl, stagingDropped_coldReset s 4⟩
  case dropCold => exact fun path value s => ⟨_, rfl, stagingDropped_cfgResetWrite (.inr (coldBit_of_coldRow value)) path s⟩
  case dropWarm => exact fun path value s => ⟨_, rfl, stagingDropped_cfgResetWrite (.inl (warmBit_of_warmRow value)) path s⟩

end Sys2Proof
end

section
/-! PROOFS. Rows in spare mode (R134): the rows of position j within a group of eight rows are the six of spareRows j, so a data granule is its group of eight rows and a slot of that list. -/

namespace Sys2Proof.Machine

open Sys2Proof

/-- In the numbers below n that satisfy p, a number k stands behind as many entries as there are below k. -/
theorem getElem?_filter_range_length (p : Nat → Bool) {k n : Nat} (hk : p k = true) (hkn : k < n) :
    ((List.range n).filter p)[((List.range k).filter p).length]? = some k := by
  induction n with
  | zero => omega
  | succ n ih =>
    rw [List.range_succ, List.filter_append]
    obtain hlt | rfl := Nat.lt_succ_iff_lt_or_eq.mp hkn
    · obtain ⟨hlen, -⟩ := List.getElem?_eq_some_iff.mp (ih hlt)
      rw [List.getElem?_append_left hlen, ih hlt]
    · simp [hk]

@[simp] theorem mem_spareRows {j k : Nat} : k ∈ spareRows j ↔ k < 8 ∧ k ≠ j ∧ k ≠ (j + 7) % 8 := by simp [spareRows]

theorem nodup_spareRows (j : Nat) : (spareRows j).Nodup := List.nodup_range.filter _

/-- Two of the eight rows are left out: the one of the position's parity and the one of its spare slot. -/
theorem length_spareRows : ∀ {j : Nat}, j < 8 → (spareRows j).length = 6 := by decide

theorem State.dataPositions_spare {s : State} (h : s.spareMode = true) (r : Nat) :
    s.dataPositions r = (List.range 8).filter fun j => j != r % 8 && j != (r + 1) % 8 := by
  simp only [State.dataPositions, State.others, State.members, List.filter_filter, parityPos, sparePos, h, Bool.true_and]
  rfl

section

variable {j : Nat} (hj : j < 8) (d : Nat)
include hj

/-- The granule's slot stands in the list of its position. -/
theorem mod_six_lt_length_spareRows : d % 6 < (spareRows j).length := by
  rw [length_spareRows hj]
  exact Nat.mod_lt d (by decide)

theorem rowOf_spare : rowOf true j d = d / 6 * 8 + (spareRows j)[d % 6]'(mod_six_lt_length_spareRows hj d) := by
  rw [← List.getD_eq_getElem _ 0]
  rfl

theorem slot_mem_spareRows : (spareRows j)[d % 6]'(mod_six_lt_length_spareRows hj d) < 8 ∧
    (spareRows j)[d % 6]'(mod_six_lt_length_spareRows hj d) ≠ j ∧ (spareRows j)[d % 6]'(mod_six_lt_length_spareRows hj d) ≠ (j + 7) % 8 :=
  mem_spareRows.mp (List.getElem_mem _)

theorem rowOf_spare_div : rowOf true j d / 8 = d / 6 := by
  obtain ⟨hlt, -, -⟩ := slot_mem_spareRows hj d
  rw [rowOf_spare hj]
  omega

theorem rowOf_spare_mod : rowOf true j d % 8 = (spareRows j)[d % 6]'(mod_six_lt_length_spareRows hj d) := by
  obtain ⟨hlt, -, -⟩ := slot_mem_spareRows hj d
  rw [rowOf_spare hj]
  omega

/-- A granule's row has neither its parity nor its spare slot at the granule's position. -/
theorem rowOf_spare_holdsData : rowOf true j d % 8 ≠ j ∧ (rowOf true j d + 1) % 8 ≠ j := by
  obtain ⟨-, hParity, hSpare⟩ := slot_mem_spareRows hj d
  rw [← rowOf_spare_mod hj d] at hParity hSpare
  omega

theorem rowOf_spare_injective {d d' : Nat} (h : rowOf true j d = rowOf true j d') : d = d' := by
  have hGroup : d / 6 = d' / 6 := by rw [← rowOf_spare_div hj d, h, rowOf_spare_div hj d']
  have hRow : (spareRows j)[d % 6]'(mod_six_lt_length_spareRows hj d) = (spareRows j)[d' % 6]'(mod_six_lt_length_spareRows hj d') := by
    rw [← rowOf_spare_mod hj d, h, rowOf_spare_mod hj d']
  have hSlot : d % 6 = d' % 6 := (nodup_spareRows j).getElem_inj_iff.mp hRow
  rw [← Nat.div_add_mod d 6, hGroup, hSlot, Nat.div_add_mod]

/-- The granule of group g and slot i lies in the group's row of that slot. -/
theorem rowOf_spare_slot {g i k : Nat} (hi : (spareRows j)[i]? = some k) : rowOf true j (g * 6 + i) = g * 8 + k := by
  obtain ⟨hlen, hk⟩ := List.getElem?_eq_some_iff.mp hi
  rw [length_spareRows hj] at hlen
  have hDiv : (g * 6 + i) / 6 = g := by omega
  have hMod : (g * 6 + i) % 6 = i := by omega
  simp only [rowOf_spare hj, hDiv, hMod, hk]

theorem rowOf_spare_surjective {r : Nat} (hParity : r % 8 ≠ j) (hSpare : (r + 1) % 8 ≠ j) :
    rowOf true j (r / 8 * 6 + ((List.range (r % 8)).filter fun k => k != j && k != (j + 7) % 8).length) = r := by
  have hData : (r % 8 != j && r % 8 != (j + 7) % 8) = true := by
    simp only [Bool.and_eq_true, bne_iff_ne]
    omega
  have hSlot := getElem?_filter_range_length (fun k => k != j && k != (j + 7) % 8) hData (Nat.mod_lt r (by decide))
  rw [rowOf_spare_slot hj hSlot, Nat.div_add_mod']

end

end Sys2Proof.Machine

namespace Sys2Proof

open Machine

/-- Settles O57: a granule is a group of eight rows and one of the six rows of its position in it, each listed once. -/
theorem spareRowsHoldEachGranule : Obligations.SpareRowsHoldEachGranule := by
  unfold Obligations.SpareRowsHoldEachGranule
  refine ⟨?rowContent, ?granuleRow, ?injective, ?surjective⟩
  case rowContent => exact fun r s h => ⟨rfl, rfl, State.dataPositions_spare h r⟩
  case granuleRow => exact fun j d hj => ⟨rfl, rowOf_spare_holdsData hj d⟩
  case injective => exact fun j d d' hj => rowOf_spare_injective hj
  case surjective => exact fun j r hj => rowOf_spare_surjective hj

end Sys2Proof
end

section
/-! PROOFS. Window ends (R400): the gate list written twice shows two cycles in a row, so the first closed part from a position of the first cycle on starts where the window of that position ends. -/

namespace Sys2Proof.Machine

open Sys2Proof

/-- The time that a list of durations and masks covers: its positions are those below it. -/
def gateSpan (l : List (Nat × Nat)) : Nat := (l.map (·.1)).sum

@[simp] theorem gateSpan_nil : gateSpan [] = 0 := rfl

@[simp] theorem gateSpan_cons (d m : Nat) (l : List (Nat × Nat)) : gateSpan ((d, m) :: l) = d + gateSpan l := rfl

@[simp] theorem gateSpan_append (l l' : List (Nat × Nat)) : gateSpan (l ++ l') = gateSpan l + gateSpan l' := by
  simp [gateSpan]

theorem cycleOf_eq_gateSpan (s : State) (n : LinkId) : cycleOf s n = gateSpan (s.gateList n) := by
  simp [cycleOf, gateSpan, List.sum_eq_foldl, List.foldl_map]

theorem maskAt_cons_of_lt {d x : Nat} (h : x < d) (m : Nat) (l : List (Nat × Nat)) : maskAt ((d, m) :: l) x = m := if_pos h

theorem maskAt_cons_of_le {d x : Nat} (h : d ≤ x) (m : Nat) (l : List (Nat × Nat)) :
    maskAt ((d, m) :: l) x = maskAt l (x - d) := if_neg (Nat.not_lt.mpr h)

theorem maskAt_append_of_lt {l : List (Nat × Nat)} (l' : List (Nat × Nat)) {x : Nat} (h : x < gateSpan l) :
    maskAt (l ++ l') x = maskAt l x := by
  induction l generalizing x with
  | nil => exact absurd h (Nat.not_lt_zero x)
  | cons e l ih =>
    obtain ⟨d, m⟩ := e
    rw [gateSpan_cons] at h
    rw [List.cons_append]
    rcases Nat.lt_or_ge x d with hx | hx
    · rw [maskAt_cons_of_lt hx, maskAt_cons_of_lt hx]
    · rw [maskAt_cons_of_le hx, maskAt_cons_of_le hx, ih (by omega)]

theorem maskAt_append_of_le {l : List (Nat × Nat)} (l' : List (Nat × Nat)) {x : Nat} (h : gateSpan l ≤ x) :
    maskAt (l ++ l') x = maskAt l' (x - gateSpan l) := by
  induction l generalizing x with
  | nil => rfl
  | cons e l ih =>
    obtain ⟨d, m⟩ := e
    rw [gateSpan_cons] at h ⊢
    rw [List.cons_append, maskAt_cons_of_le (by omega), ih (by omega), Nat.sub_sub]

/-- Over two cycles in a row, a position shows the mask of its place in the cycle. -/
theorem maskAt_append_self {l : List (Nat × Nat)} {x : Nat} (h : x < gateSpan (l ++ l)) :
    maskAt (l ++ l) x = maskAt l (x % gateSpan l) := by
  rw [gateSpan_append] at h
  rcases Nat.lt_or_ge x (gateSpan l) with hx | hx
  · rw [maskAt_append_of_lt l hx, Nat.mod_eq_of_lt hx]
  · rw [maskAt_append_of_le l hx, Nat.mod_eq_sub_mod hx, Nat.mod_eq_of_lt (by omega)]

/-- Class t is open from position x on up to position e of a list that starts at position `here`. -/
def OpenUpTo (t : Nat) (l : List (Nat × Nat)) (here x e : Nat) : Prop :=
  ∀ z, here ≤ z → x ≤ z → z < e → (maskAt l (z - here)).testBit t = true

theorem openUpTo_zero_iff {t x e : Nat} {l : List (Nat × Nat)} :
    OpenUpTo t l 0 x e ↔ ∀ z, x ≤ z → z < e → (maskAt l z).testBit t = true := by
  simp [OpenUpTo]

/-- The head entry plays no part from x on where it ends by x, or where class t is open in it. -/
theorem openUpTo_cons {t d m here x e : Nat} {l : List (Nat × Nat)} (hHead : x < here + d → m.testBit t = true)
    (hTail : OpenUpTo t l (here + d) x e) : OpenUpTo t ((d, m) :: l) here x e := by
  intro z hHere hx he
  rcases Nat.lt_or_ge z (here + d) with hz | hz
  · rw [maskAt_cons_of_lt (by omega)]
    exact hHead (by omega)
  · rw [maskAt_cons_of_le (by omega), Nat.sub_sub]
    exact hTail z hz hx he

/-- A closed part that is found is the first one: it starts within the list, from x on, and class t is open up to it. -/
theorem closedFrom_eq_some {t here x e : Nat} {l : List (Nat × Nat)} (hpos : ∀ p ∈ l, p.1 ≠ 0)
    (h : closedFrom t l here x = some e) :
    here ≤ e ∧ x ≤ e ∧ e < here + gateSpan l ∧ (maskAt l (e - here)).testBit t = false ∧ OpenUpTo t l here x e := by
  induction l generalizing here with
  | nil => exact absurd h (Option.some_ne_none e).symm
  | cons p l ih =>
    obtain ⟨d, m⟩ := p
    obtain ⟨hd, hposTail⟩ := List.forall_mem_cons.mp hpos
    rw [closedFrom] at h
    rw [gateSpan_cons]
    split at h
    next hHead =>
      simp only [Bool.and_eq_true, decide_eq_true_eq, Bool.not_eq_true'] at hHead
      obtain ⟨hx, hClosed⟩ := hHead
      obtain rfl : max here x = e := Option.some.inj h
      have hWithin : max here x < here + d := by omega
      rw [maskAt_cons_of_lt (by omega)]
      exact ⟨le_max_left _ _, le_max_right _ _, by omega, hClosed, fun z hHere hxz hz => by omega⟩
    next hHead =>
      obtain ⟨hHere, hxe, hEnd, hClosed, hOpen⟩ := ih hposTail h
      rw [maskAt_cons_of_le (by omega), Nat.sub_sub]
      exact ⟨by omega, hxe, by omega, hClosed, openUpTo_cons (fun hx => by simpa [hx] using hHead) hOpen⟩

/-- Where no closed part is found, class t is open from x on up to the list's end. -/
theorem openUpTo_of_closedFrom_eq_none {t here x : Nat} {l : List (Nat × Nat)} (h : closedFrom t l here x = none) :
    OpenUpTo t l here x (here + gateSpan l) := by
  induction l generalizing here with
  | nil => exact fun z hHere _ hz => absurd hz (Nat.not_lt.mpr hHere)
  | cons p l ih =>
    obtain ⟨d, m⟩ := p
    rw [closedFrom] at h
    split at h
    next => exact absurd h (Option.some_ne_none _)
    next hHead =>
      rw [gateSpan_cons, ← Nat.add_assoc]
      exact openUpTo_cons (fun hx => by simpa [hx] using hHead) (ih h)

/-- The gate list leaves out the entries of no duration (R399). -/
theorem State.gateList_duration_ne_zero {s : State} {n : Nat} {p : Nat × Nat} (h : p ∈ s.gateList n) : p.1 ≠ 0 :=
  bne_iff_ne.mp (List.mem_filter.mp h).2

section

variable {s : State} {n : LinkId} (hOn : s.on (Reg.TSC_CTL n) Fld.TSC_CTL_enable = true)
include hOn

theorem State.gateOpen_of_on (t : Nat) : s.gateOpen n t = (maskAt (s.gateList n) (s.gatePos n)).testBit t := by
  simp [State.gateOpen, hOn]

theorem State.windowLeft_of_on (t : Nat) :
    s.windowLeft n t = (closedFrom t (s.gateList n ++ s.gateList n) 0 (s.gatePos n)).map fun e => e - s.gatePos n :=
  if_pos hOn

/-- What is left of a window is the way to a closed position of the two cycles, with the class open up to it. -/
theorem closed_of_windowLeft_eq_some {t k : Nat} (h : s.windowLeft n t = some k) :
    (maskAt (s.gateList n) ((s.gatePos n + k) % cycleOf s n)).testBit t = false ∧
    ∀ y, y < k → (maskAt (s.gateList n) ((s.gatePos n + y) % cycleOf s n)).testBit t = true := by
  rw [State.windowLeft_of_on hOn, Option.map_eq_some_iff] at h
  obtain ⟨e, hFound, rfl⟩ := h
  have hpos : ∀ p ∈ s.gateList n ++ s.gateList n, p.1 ≠ 0 := fun p hp =>
    State.gateList_duration_ne_zero ((List.mem_append.mp hp).elim id id)
  obtain ⟨-, hFrom, hEnd, hClosed, hOpen⟩ := closedFrom_eq_some hpos hFound
  rw [Nat.zero_add] at hEnd
  rw [cycleOf_eq_gateSpan]
  constructor
  · rwa [Nat.add_sub_cancel' hFrom, ← maskAt_append_self hEnd]
  · intro y hy
    rw [← maskAt_append_self (by omega)]
    exact openUpTo_zero_iff.mp hOpen _ (by omega) (by omega)

/-- The second of the two cycles lies after every position of the first: a class with no closed part there is never closed. -/
theorem open_of_windowLeft_eq_none {t : Nat} (hPos : s.gatePos n < cycleOf s n) (h : s.windowLeft n t = none)
    {y : Nat} (hy : y < cycleOf s n) : (maskAt (s.gateList n) y).testBit t = true := by
  rw [State.windowLeft_of_on hOn, Option.map_eq_none_iff] at h
  rw [cycleOf_eq_gateSpan] at hPos hy
  have hOpen := openUpTo_zero_iff.mp (openUpTo_of_closedFrom_eq_none h) (y + gateSpan (s.gateList n)) (by omega)
    (by rw [gateSpan_append]; omega)
  rwa [maskAt_append_of_le _ (by omega), Nat.add_sub_cancel] at hOpen

theorem windowLeft_eq_none_of_open {t : Nat} (hPos : s.gatePos n < cycleOf s n)
    (hOpen : ∀ y, y < cycleOf s n → (maskAt (s.gateList n) y).testBit t = true) : s.windowLeft n t = none := by
  cases hLeft : s.windowLeft n t with
  | none => rfl
  | some k =>
    obtain ⟨hClosed, -⟩ := closed_of_windowLeft_eq_some hOn hLeft
    have hOpenThere := hOpen ((s.gatePos n + k) % cycleOf s n) (Nat.mod_lt _ (by omega))
    exact absurd (hOpenThere.symm.trans hClosed) (by decide)

/-- A class that is open now is closed only later. -/
theorem windowLeft_pos {t k : Nat} (hPos : s.gatePos n < cycleOf s n) (hOpen : s.gateOpen n t = true)
    (h : s.windowLeft n t = some k) : 0 < k := by
  obtain ⟨hClosed, -⟩ := closed_of_windowLeft_eq_some hOn h
  rw [State.gateOpen_of_on hOn] at hOpen
  refine Nat.pos_of_ne_zero fun hk => ?_
  rw [hk, Nat.add_zero, Nat.mod_eq_of_lt hPos, hOpen] at hClosed
  exact absurd hClosed (by decide)

end

end Sys2Proof.Machine

namespace Sys2Proof

open Machine

/-- Settles O58: the gate list written twice covers a whole cycle from every position on, and its first closed part from there on starts at the window end. -/
theorem windowsEndWhereClosed : Obligations.WindowsEndWhereClosed := by
  unfold Obligations.WindowsEndWhereClosed
  refine ⟨?windowEnd, ?noWindowEnd⟩
  case windowEnd =>
    intro n t k s hOn hPos hOpen hLeft
    exact ⟨windowLeft_pos hOn hPos hOpen hLeft, closed_of_windowLeft_eq_some hOn hLeft⟩
  case noWindowEnd =>
    intro n t s hOn hPos _
    exact ⟨fun hNone _ => open_of_windowLeft_eq_none hOn hPos hNone, windowLeft_eq_none_of_open hOn hPos⟩

end Sys2Proof
end
